-- ==== Sys2Proof/Word.lean ====
section
/-! DEFINITION. The word types of the Bexel architecture and the plain data shapes the model is built from. -/

namespace Sys2Proof

/-- An x register, a CSR read, a message argument (R30). -/
abbrev Word := BitVec 64

/-- The smallest addressable unit of memory (R18). -/
abbrev Byte := BitVec 8

/-- One lane of a vector register: an FP32 or an INT32 value (R30). -/
abbrev Lane := BitVec 32

/-- A vector register of sixteen lanes, lane `i` in bits `[32i+31:32i]` (R30). -/
abbrev VecReg := BitVec 512

/-- A sparse table: keys strictly rising, a key that is not listed holds the table's default. -/
abbrev Tab (α : Type) := List (Nat × α)

end Sys2Proof
end

