-- ==== Sys2Proof/Syntax.lean ====
section
/-! DEFINITION. The instruction set as syntax: one constructor for every row of the opcode table. The 227 coded forms of
R24 to R29 carry the fields of their words, named as the table names them (`d` destination, `a` the rs1 field, `b` the
rs2 field, `c` the rs3 field, `m` the rounding field, `p` the governing predicate, `z` size, `s` scope); the other 102
rows, which the table gives no word, are steps of the package: which core, home, lease or value such a step is about
stands in the field `ev` of the state (log entry 2). -/

namespace Sys2Proof

inductive Instr where
  /-- LUI (R105). -/
  | lui (d : BitVec 5) (imm : BitVec 20)
  /-- AUIPC (R105). -/
  | auipc (d : BitVec 5) (imm : BitVec 20)
  /-- JAL (R106). -/
  | jal (d : BitVec 5) (off : BitVec 21)
  /-- JALR (R106). -/
  | jalr (d a : BitVec 5) (imm : BitVec 12)
  /-- BEQ (R107). -/
  | beq (a b : BitVec 5) (off : BitVec 13)
  /-- BNE (R107). -/
  | bne (a b : BitVec 5) (off : BitVec 13)
  /-- BLT (R107). -/
  | blt (a b : BitVec 5) (off : BitVec 13)
  /-- BGE (R107). -/
  | bge (a b : BitVec 5) (off : BitVec 13)
  /-- BLTU (R107). -/
  | bltu (a b : BitVec 5) (off : BitVec 13)
  /-- BGEU (R107). -/
  | bgeu (a b : BitVec 5) (off : BitVec 13)
  /-- LB (R144). -/
  | lb (d a : BitVec 5) (imm : BitVec 12)
  /-- LH (R144). -/
  | lh (d a : BitVec 5) (imm : BitVec 12)
  /-- LW (R144). -/
  | lw (d a : BitVec 5) (imm : BitVec 12)
  /-- LD (R144). -/
  | ld (d a : BitVec 5) (imm : BitVec 12)
  /-- LBU (R144). -/
  | lbu (d a : BitVec 5) (imm : BitVec 12)
  /-- LHU (R144). -/
  | lhu (d a : BitVec 5) (imm : BitVec 12)
  /-- LWU (R144). -/
  | lwu (d a : BitVec 5) (imm : BitVec 12)
  /-- SB (R145). -/
  | sb (a b : BitVec 5) (imm : BitVec 12)
  /-- SH (R145). -/
  | sh (a b : BitVec 5) (imm : BitVec 12)
  /-- SW (R145). -/
  | sw (a b : BitVec 5) (imm : BitVec 12)
  /-- SD (R145). -/
  | sd (a b : BitVec 5) (imm : BitVec 12)
  /-- ADDI (R120). -/
  | addi (d a : BitVec 5) (imm : BitVec 12)
  /-- SLTI (R120). -/
  | slti (d a : BitVec 5) (imm : BitVec 12)
  /-- SLTIU (R120). -/
  | sltiu (d a : BitVec 5) (imm : BitVec 12)
  /-- XORI (R120). -/
  | xori (d a : BitVec 5) (imm : BitVec 12)
  /-- ORI (R120). -/
  | ori (d a : BitVec 5) (imm : BitVec 12)
  /-- ANDI (R120). -/
  | andi (d a : BitVec 5) (imm : BitVec 12)
  /-- SLLI (R120). -/
  | slli (d a : BitVec 5) (sh : BitVec 6)
  /-- SRLI (R120). -/
  | srli (d a : BitVec 5) (sh : BitVec 6)
  /-- SRAI (R120). -/
  | srai (d a : BitVec 5) (sh : BitVec 6)
  /-- RORI (R120). -/
  | rori (d a : BitVec 5) (sh : BitVec 6)
  /-- ADD (R121). -/
  | add (d a b : BitVec 5)
  /-- SUB (R121). -/
  | sub (d a b : BitVec 5)
  /-- SLL (R121). -/
  | sll (d a b : BitVec 5)
  /-- SLT (R121). -/
  | slt (d a b : BitVec 5)
  /-- SLTU (R121). -/
  | sltu (d a b : BitVec 5)
  /-- XOR (R121). -/
  | xor (d a b : BitVec 5)
  /-- SRL (R121). -/
  | srl (d a b : BitVec 5)
  /-- SRA (R121). -/
  | sra (d a b : BitVec 5)
  /-- OR (R121). -/
  | or (d a b : BitVec 5)
  /-- AND (R121). -/
  | and (d a b : BitVec 5)
  /-- MUL (R122). -/
  | mul (d a b : BitVec 5)
  /-- MULH (R122). -/
  | mulh (d a b : BitVec 5)
  /-- MULHU (R122). -/
  | mulhu (d a b : BitVec 5)
  /-- DIV (R122). -/
  | div (d a b : BitVec 5)
  /-- DIVU (R122). -/
  | divu (d a b : BitVec 5)
  /-- REM (R122). -/
  | rem (d a b : BitVec 5)
  /-- REMU (R122). -/
  | remu (d a b : BitVec 5)
  /-- CLMUL (R123). -/
  | clmul (d a b : BitVec 5)
  /-- CLMULH (R123). -/
  | clmulh (d a b : BitVec 5)
  /-- CLZ (R123). -/
  | clz (d a : BitVec 5)
  /-- CTZ (R123). -/
  | ctz (d a : BitVec 5)
  /-- CPOP (R123). -/
  | cpop (d a : BitVec 5)
  /-- ROR (R123). -/
  | ror (d a b : BitVec 5)
  /-- BSWAP (R123). -/
  | bswap (d a : BitVec 5)
  /-- FADD_S (R128). -/
  | faddS (d a b : BitVec 5) (m : BitVec 3)
  /-- FSUB_S (R128). -/
  | fsubS (d a b : BitVec 5) (m : BitVec 3)
  /-- FMUL_S (R128). -/
  | fmulS (d a b : BitVec 5) (m : BitVec 3)
  /-- FDIV_S (R128). -/
  | fdivS (d a b : BitVec 5) (m : BitVec 3)
  /-- FSQRT_S (R128). -/
  | fsqrtS (d a : BitVec 5) (m : BitVec 3)
  /-- FSGNJ_S (R130). -/
  | fsgnjS (d a b : BitVec 5)
  /-- FSGNJN_S (R130). -/
  | fsgnjnS (d a b : BitVec 5)
  /-- FSGNJX_S (R130). -/
  | fsgnjxS (d a b : BitVec 5)
  /-- FMIN_S (R130). -/
  | fminS (d a b : BitVec 5)
  /-- FMAX_S (R130). -/
  | fmaxS (d a b : BitVec 5)
  /-- FLE_S (R130). -/
  | fleS (d a b : BitVec 5)
  /-- FLT_S (R130). -/
  | fltS (d a b : BitVec 5)
  /-- FEQ_S (R130). -/
  | feqS (d a b : BitVec 5)
  /-- FCVT_W_S (R132). -/
  | fcvtWS (d a : BitVec 5) (m : BitVec 3)
  /-- FCVT_L_S (R132). -/
  | fcvtLS (d a : BitVec 5) (m : BitVec 3)
  /-- FCVT_S_W (R131). -/
  | fcvtSW (d a : BitVec 5) (m : BitVec 3)
  /-- FCVT_S_L (R131). -/
  | fcvtSL (d a : BitVec 5) (m : BitVec 3)
  /-- FCLASS_S (R133). -/
  | fclassS (d a : BitVec 5)
  /-- FMADD_S (R129). -/
  | fmaddS (d a b c : BitVec 5) (m : BitVec 3)
  /-- TRAP (R374). -/
  | trap
  /-- BKPT (R374). -/
  | bkpt
  /-- RESUME (R187). -/
  | resume (d a : BitVec 5)
  /-- KILL (R187). -/
  | kill (d a : BitVec 5)
  /-- SLOTRD (R188). -/
  | slotrd (d a : BitVec 5)
  /-- PLBINV (R184). -/
  | plbinv (d a b : BitVec 5)
  /-- TLBI1 (R190). -/
  | tlbi1 (d a b : BitVec 5)
  /-- TLBI2 (R190). -/
  | tlbi2 (d a b : BitVec 5)
  /-- MGMT (R73). -/
  | mgmt (d a : BitVec 5)
  /-- SLOTWR (R188). -/
  | slotwr (d a b : BitVec 5)
  /-- CSRRW (R117). -/
  | csrrw (d a : BitVec 5) (csr : BitVec 12)
  /-- CSRRS (R117). -/
  | csrrs (d a : BitVec 5) (csr : BitVec 12)
  /-- CSRRC (R117). -/
  | csrrc (d a : BitVec 5) (csr : BitVec 12)
  /-- CSRRWI (R117). -/
  | csrrwi (d : BitVec 5) (u : BitVec 5) (csr : BitVec 12)
  /-- CSRRSI (R117). -/
  | csrrsi (d : BitVec 5) (u : BitVec 5) (csr : BitVec 12)
  /-- CSRRCI (R117). -/
  | csrrci (d : BitVec 5) (u : BitVec 5) (csr : BitVec 12)
  /-- LOOP (R109). -/
  | loop (l : BitVec 1) (a : BitVec 5) (n : BitVec 12)
  /-- FMT (R111). -/
  | fmt (w : BitVec 12)
  /-- SEND (R154). -/
  | send (d a b : BitVec 5)
  /-- SENDC (R154). -/
  | sendc (d a b : BitVec 5)
  /-- JARM (R327). -/
  | jarm (d a b : BitVec 5)
  /-- JDEC (R328). -/
  | jdec (d a b : BitVec 5)
  /-- TAGEN (R159). -/
  | tagen (d a : BitVec 5)
  /-- TAGDIS (R159). -/
  | tagdis (d a : BitVec 5)
  /-- TAGPD (R159). -/
  | tagpd (d a : BitVec 5)
  /-- LNCH (R94). -/
  | lnch (d a : BitVec 5)
  /-- YIELD (R113). -/
  | yield
  /-- END (R114). -/
  | endTask
  /-- WAITA (R322). -/
  | waita (d a b : BitVec 5)
  /-- WAKE (R323). -/
  | wake (d a : BitVec 5)
  /-- BARR (R325). -/
  | barr (d a : BitVec 5)
  /-- GATE (R365). -/
  | gate (n : BitVec 6)
  /-- GRET (R367). -/
  | gret
  /-- GQRY (R368). -/
  | gqry (d a : BitVec 5)
  /-- QPUSH (R116). -/
  | qpush (q : BitVec 3) (a : BitVec 5)
  /-- QPOP (R116). -/
  | qpop (d : BitVec 5) (q : BitVec 3)
  /-- QCNT (R116). -/
  | qcnt (d : BitVec 5) (q : BitVec 3)
  /-- VADD_F (R219). -/
  | vaddF (p : BitVec 3) (d a b : BitVec 5)
  /-- VSUB_F (R219). -/
  | vsubF (p : BitVec 3) (d a b : BitVec 5)
  /-- VMUL_F (R219). -/
  | vmulF (p : BitVec 3) (d a b : BitVec 5)
  /-- VFMA_F (R219). -/
  | vfmaF (p : BitVec 3) (d a b : BitVec 5)
  /-- VMIN_F (R219). -/
  | vminF (p : BitVec 3) (d a b : BitVec 5)
  /-- VMAX_F (R219). -/
  | vmaxF (p : BitVec 3) (d a b : BitVec 5)
  /-- VABS_F (R219). -/
  | vabsF (p : BitVec 3) (d a : BitVec 5)
  /-- VNEG_F (R219). -/
  | vnegF (p : BitVec 3) (d a : BitVec 5)
  /-- VDIV_F (R219). -/
  | vdivF (p : BitVec 3) (d a b : BitVec 5)
  /-- VSQRT_F (R219). -/
  | vsqrtF (p : BitVec 3) (d a : BitVec 5)
  /-- VEXP2_F (R219). -/
  | vexp2F (p : BitVec 3) (d a : BitVec 5)
  /-- VRCP_F (R219). -/
  | vrcpF (p : BitVec 3) (d a : BitVec 5)
  /-- VFMAS_F (R219). -/
  | vfmasF (p : BitVec 3) (d a b : BitVec 5)
  /-- VADD_I (R220). -/
  | vaddI (p : BitVec 3) (d a b : BitVec 5)
  /-- VSUB_I (R220). -/
  | vsubI (p : BitVec 3) (d a b : BitVec 5)
  /-- VMUL_I (R220). -/
  | vmulI (p : BitVec 3) (d a b : BitVec 5)
  /-- VMIN_I (R220). -/
  | vminI (p : BitVec 3) (d a b : BitVec 5)
  /-- VMAX_I (R220). -/
  | vmaxI (p : BitVec 3) (d a b : BitVec 5)
  /-- VMINU_I (R220). -/
  | vminuI (p : BitVec 3) (d a b : BitVec 5)
  /-- VMAXU_I (R220). -/
  | vmaxuI (p : BitVec 3) (d a b : BitVec 5)
  /-- VAND (R220). -/
  | vand (p : BitVec 3) (d a b : BitVec 5)
  /-- VOR (R220). -/
  | vor (p : BitVec 3) (d a b : BitVec 5)
  /-- VXOR (R220). -/
  | vxor (p : BitVec 3) (d a b : BitVec 5)
  /-- VSHL (R220). -/
  | vshl (p : BitVec 3) (d a b : BitVec 5)
  /-- VSRL (R220). -/
  | vsrl (p : BitVec 3) (d a b : BitVec 5)
  /-- VSRA (R220). -/
  | vsra (p : BitVec 3) (d a b : BitVec 5)
  /-- VCMP_FEQ (R221). -/
  | vcmpFEQ (p d : BitVec 3) (a b : BitVec 5)
  /-- VCMP_FLT (R221). -/
  | vcmpFLT (p d : BitVec 3) (a b : BitVec 5)
  /-- VCMP_FLE (R221). -/
  | vcmpFLE (p d : BitVec 3) (a b : BitVec 5)
  /-- VCMP_IEQ (R221). -/
  | vcmpIEQ (p d : BitVec 3) (a b : BitVec 5)
  /-- VCMP_ILT (R221). -/
  | vcmpILT (p d : BitVec 3) (a b : BitVec 5)
  /-- VCMP_ILTU (R221). -/
  | vcmpILTU (p d : BitVec 3) (a b : BitVec 5)
  /-- VSEL (R222). -/
  | vsel (p : BitVec 3) (d a b : BitVec 5)
  /-- PAND (R222). -/
  | pand (d a b : BitVec 3)
  /-- POR (R222). -/
  | por (d a b : BitVec 3)
  /-- PXOR (R222). -/
  | pxor (d a b : BitVec 3)
  /-- PNOT (R222). -/
  | pnot (d a : BitVec 3)
  /-- PSET (R222). -/
  | pset (d : BitVec 3) (a : BitVec 5)
  /-- PGET (R222). -/
  | pget (d : BitVec 5) (a : BitVec 3)
  /-- PPOP (R222). -/
  | ppop (p : BitVec 3) (d : BitVec 5) (a : BitVec 3)
  /-- VBCAST (R223). -/
  | vbcast (p : BitVec 3) (d a : BitVec 5)
  /-- VBCASTQ (R223). -/
  | vbcastq (p : BitVec 3) (d : BitVec 5) (q : BitVec 3)
  /-- VMVXV (R223). -/
  | vmvxv (d a : BitVec 5) (j : BitVec 4)
  /-- VMVVX (R223). -/
  | vmvvx (d a : BitVec 5) (j : BitVec 4)
  /-- VPERM (R223). -/
  | vperm (p : BitVec 3) (d a b : BitVec 5)
  /-- VSLIDE (R223). -/
  | vslide (p : BitVec 3) (d a b : BitVec 5)
  /-- VIOTA (R223). -/
  | viota (p : BitVec 3) (d : BitVec 5)
  /-- VRSUM_F (R224). -/
  | vrsumF (p : BitVec 3) (d a : BitVec 5)
  /-- VRMAX_F (R224). -/
  | vrmaxF (p : BitVec 3) (d a : BitVec 5)
  /-- VRSUM_I (R224). -/
  | vrsumI (p : BitVec 3) (d a : BitVec 5)
  /-- VCVT_FI (R225). -/
  | vcvtFI (p : BitVec 3) (d a : BitVec 5)
  /-- VCVT_IF (R225). -/
  | vcvtIF (p : BitVec 3) (d a : BitVec 5)
  /-- VCVT_FH (R225). -/
  | vcvtFH (p : BitVec 3) (d a : BitVec 5) (h : BitVec 1)
  /-- VCVT_HF (R225). -/
  | vcvtHF (p : BitVec 3) (d a : BitVec 5) (h : BitVec 1)
  /-- VQNT (R226). -/
  | vqnt (p : BitVec 3) (d a b : BitVec 5)
  /-- VDQNT (R228). -/
  | vdqnt (p : BitVec 3) (d a b : BitVec 5)
  /-- VBEXP (R227). -/
  | vbexp (p : BitVec 3) (d a : BitVec 5)
  /-- VLD (R229). -/
  | vld (p : BitVec 3) (d a : BitVec 5)
  /-- VST (R229). -/
  | vst (p : BitVec 3) (d a : BitVec 5)
  /-- VLDS (R229). -/
  | vlds (p : BitVec 3) (d a b : BitVec 5)
  /-- VSTS (R229). -/
  | vsts (p : BitVec 3) (d a b : BitVec 5)
  /-- VLDX (R229). -/
  | vldx (p : BitVec 3) (d a b : BitVec 5)
  /-- VSTX (R229). -/
  | vstx (p : BitVec 3) (d a b : BitVec 5)
  /-- VREDX (R232). -/
  | vredx (p : BitVec 3) (d a b : BitVec 5)
  /-- LDS_G (R247). -/
  | ldsG (a : BitVec 5)
  /-- SWS_G (R248). -/
  | swsG
  /-- MMA_G (R249). -/
  | mmaG (t : BitVec 3) (a b : BitVec 5)
  /-- MWAIT (R250). -/
  | mwait (a : BitVec 5)
  /-- MZERO (R251). -/
  | mzero (t : BitVec 3)
  /-- ASWAP (R252). -/
  | aswap (d : BitVec 5) (t : BitVec 3) (b : BitVec 5)
  /-- MREC (R253). -/
  | mrec (d : BitVec 5) (t : BitVec 3) (b : BitVec 5)
  /-- MRD (R254). -/
  | mrd (d : BitVec 5) (t : BitVec 3) (b : BitVec 5)
  /-- MWR (R254). -/
  | mwr (t : BitVec 3) (a b : BitVec 5)
  /-- MADDV (R254). -/
  | maddv (t : BitVec 3) (a b : BitVec 5)
  /-- MSTAT (R255). -/
  | mstat (d a : BitVec 5)
  /-- GINIT (R266). -/
  | ginit (d a b : BitVec 5)
  /-- GADD (R267). -/
  | gadd (d a b : BitVec 5)
  /-- GADDV (R268). -/
  | gaddv (d a b : BitVec 5)
  /-- GABAND (R271). -/
  | gaband (d a : BitVec 5)
  /-- GSTAT (R272). -/
  | gstat (d a : BitVec 5)
  /-- GREC (R272). -/
  | grec (d a b : BitVec 5)
  /-- CRD (R162). -/
  | crd (d a : BitVec 5)
  /-- CWR (R162). -/
  | cwr (d a : BitVec 5)
  /-- CMOV (R162). -/
  | cmov (d a : BitVec 5)
  /-- CFILL (R162). -/
  | cfill (d a b : BitVec 5)
  /-- CWAIT (R165). -/
  | cwait (d a : BitVec 5)
  /-- CSTAT (R165). -/
  | cstat (d a : BitVec 5)
  /-- COLL (R166). -/
  | coll (d a : BitVec 5)
  /-- LDA (R297). -/
  | lda (z : BitVec 2) (s : BitVec 3) (d a : BitVec 5)
  /-- STL (R297). -/
  | stl (z : BitVec 2) (s : BitVec 3) (a b : BitVec 5)
  /-- AMOADD (R314). -/
  | amoadd (z : BitVec 1) (s : BitVec 2) (d a b : BitVec 5)
  /-- AMOSWAP (R314). -/
  | amoswap (z : BitVec 1) (s : BitVec 2) (d a b : BitVec 5)
  /-- AMOCAS (R314). -/
  | amocas (z : BitVec 1) (s : BitVec 2) (d a b : BitVec 5)
  /-- AMOAND (R314). -/
  | amoand (z : BitVec 1) (s : BitVec 2) (d a b : BitVec 5)
  /-- AMOOR (R314). -/
  | amoor (z : BitVec 1) (s : BitVec 2) (d a b : BitVec 5)
  /-- AMOXOR (R314). -/
  | amoxor (z : BitVec 1) (s : BitVec 2) (d a b : BitVec 5)
  /-- AMOMIN (R314). -/
  | amomin (z : BitVec 1) (s : BitVec 2) (d a b : BitVec 5)
  /-- AMOMAX (R314). -/
  | amomax (z : BitVec 1) (s : BitVec 2) (d a b : BitVec 5)
  /-- AMOMINU (R314). -/
  | amominu (z : BitVec 1) (s : BitVec 2) (d a b : BitVec 5)
  /-- AMOMAXU (R314). -/
  | amomaxu (z : BitVec 1) (s : BitVec 2) (d a b : BitVec 5)
  /-- AMOFADD (R314). -/
  | amofadd (s : BitVec 2) (d a b : BitVec 5)
  /-- REDADD (R316). -/
  | redadd (z : BitVec 1) (s : BitVec 2) (a b : BitVec 5)
  /-- REDFADD (R316). -/
  | redfadd (s : BitVec 2) (a b : BitVec 5)
  /-- REDMAX (R316). -/
  | redmax (z : BitVec 1) (s : BitVec 2) (a b : BitVec 5)
  /-- REDMIN (R316). -/
  | redmin (z : BitVec 1) (s : BitVec 2) (a b : BitVec 5)
  /-- LDE (R344). -/
  | lde (d a b : BitVec 5)
  /-- LDF_W (R148). -/
  | ldfW (d a : BitVec 5)
  /-- LDF_D (R148). -/
  | ldfD (d a : BitVec 5)
  /-- STF_W (R149). -/
  | stfW (a b : BitVec 5)
  /-- STF_D (R149). -/
  | stfD (a b : BitVec 5)
  /-- SETE (R150). -/
  | sete (a b : BitVec 5)
  /-- DRAIN (R347). -/
  | drain (d a : BitVec 5)
  /-- FENCE (R298). -/
  | fence (s : BitVec 3)
  /-- TFENCE (R181). -/
  | tfence
  /-- PBAR (R356). -/
  | pbar
  /-- PBARW (R356). -/
  | pbarw
  /-- LAUNCH_SUBMIT (R78). -/
  | launchSubmit
  /-- DISTRIBUTOR_ACCEPT (R80). -/
  | distributorAccept
  /-- DISTRIBUTE_IDENTIFIER (R87). -/
  | distributeIdentifier
  /-- GANG_DISTRIBUTE (R88). -/
  | gangDistribute
  /-- LAUNCH_COMPLETE (R90). -/
  | launchComplete
  /-- LAUNCH_TAG_FREE (R90). -/
  | launchTagFree
  /-- PARTNEW (R75). -/
  | partnew
  /-- PARTDEL (R75). -/
  | partdel
  /-- LEASENEW (R76). -/
  | leasenew
  /-- LEASEDEL (R75). -/
  | leasedel
  /-- RIGHTS (R58). -/
  | rights
  /-- QGRANT (R61). -/
  | qgrant
  /-- QTAKE (R65). -/
  | qtake
  /-- SLICES (R62). -/
  | slices
  /-- S1ROOT (R170). -/
  | s1root
  /-- S2ROOT (R170). -/
  | s2root
  /-- BUDGET_ASSIGN (R66). -/
  | budgetAssign
  /-- BUDGET_SET (R69). -/
  | budgetSet
  /-- BUDGET_ADD (R69). -/
  | budgetAdd
  /-- BUDGET_BIND (R66). -/
  | budgetBind
  /-- WDLIM (R75). -/
  | wdlim
  /-- DRIFTLIM (R337). -/
  | driftlim
  /-- FGROUP (R402). -/
  | fgroup
  /-- APERTURE (R169). -/
  | aperture
  /-- VFRESET (R379). -/
  | vfreset
  /-- ATTEST (R406). -/
  | attest
  /-- STATEWIN (R389). -/
  | statewin
  /-- EVROUTE (R71). -/
  | evroute
  /-- EVACK_RESOLVE (R372). -/
  | evackResolve
  /-- EVACK_KILL (R372). -/
  | evackKill
  /-- WINDOW_REGISTER_WRITE (R394). -/
  | windowRegisterWrite
  /-- VTB_WRITE (R39). -/
  | vtbWrite
  /-- GTB_WRITE (R363). -/
  | gtbWrite
  /-- CULL_WRITE (R334). -/
  | cullWrite
  /-- CULLSZ_WRITE (R334). -/
  | cullszWrite
  /-- LATCH_RELEASE (R334). -/
  | latchRelease
  /-- MESSAGE_ARRIVAL (R39). -/
  | messageArrival
  /-- HANDLER_START (R46). -/
  | handlerStart
  /-- MESSAGE_AGEING (R97). -/
  | messageAgeing
  /-- WATCHDOG_EXPIRY (R103). -/
  | watchdogExpiry
  /-- GLIMIT_EXPIRY (R366). -/
  | glimitExpiry
  /-- SLICE_END (R62). -/
  | sliceEnd
  /-- PREEMPTION_SWITCH (R377). -/
  | preemptionSwitch
  /-- CHARGE_ARRIVAL (R69). -/
  | chargeArrival
  /-- NOTICE_DELIVERY (R167). -/
  | noticeDelivery
  /-- LDF_RETRY (R148). -/
  | ldfRetry
  /-- SLOT_UNBLOCK (R98). -/
  | slotUnblock
  /-- STORE_BUFFER_DRAIN (R284). -/
  | storeBufferDrain
  /-- FILL (R285). -/
  | fill
  /-- WRITEBACK (R285). -/
  | writeback
  /-- EVICT (R285). -/
  | evict
  /-- PAGE_WALK (R179). -/
  | pageWalk
  /-- VECTOR_COMMAND_EXECUTE (R214). -/
  | vectorCommandExecute
  /-- COPY_START (R291). -/
  | copyStart
  /-- ECOPY (R291). -/
  | ecopy
  /-- COPY_COMPLETE (R164). -/
  | copyComplete
  /-- ENGINE_HELD_DELIVERY (R116). -/
  | engineHeldDelivery
  /-- ENGINE_FAULT_UPCALL (R373). -/
  | engineFaultUpcall
  /-- COLLECTIVE_START (R166). -/
  | collectiveStart
  /-- COLLECTIVE_COMPLETE (R166). -/
  | collectiveComplete
  /-- COLLECTIVE_ABORT (R379). -/
  | collectiveAbort
  /-- GANG_BARRIER_COMPLETE (R237). -/
  | gangBarrierComplete
  /-- GANG_OPERATION_ACCEPT (R237). -/
  | gangOperationAccept
  /-- PASS_COMPLETE (R235). -/
  | passComplete
  /-- GATHER_CONTRIBUTION (R269). -/
  | gatherContribution
  /-- GATHER_INIT_PERFORM (R266). -/
  | gatherInitPerform
  /-- GATHER_ABANDON_PERFORM (R271). -/
  | gatherAbandonPerform
  /-- GATHER_QUERY_PERFORM (R272). -/
  | gatherQueryPerform
  /-- LDF_HOME (R148). -/
  | ldfHome
  /-- STF_HOME (R149). -/
  | stfHome
  /-- SETE_HOME (R150). -/
  | seteHome
  /-- CONTINUATION_SEND (R320). -/
  | continuationSend
  /-- CARRIED_CODE_EXECUTE (R157). -/
  | carriedCodeExecute
  /-- JDEC_APPLY (R329). -/
  | jdecApply
  /-- CULLET_REFILL (R332). -/
  | culletRefill
  /-- DRIFT_GRANT (R341). -/
  | driftGrant
  /-- DDRAIN (R342). -/
  | ddrain
  /-- FORCED_DRAIN (R345). -/
  | forcedDrain
  /-- DIE_RESET (R312). -/
  | dieReset
  /-- STALE_RESPONSE_DROP (R312). -/
  | staleResponseDrop
  /-- ACCEPT (R357). -/
  | lehrAccept
  /-- RETIRE (R357). -/
  | lehrRetire
  /-- PWRFAIL_N (R359). -/
  | pwrfailN
  /-- POWER_LOSS (R358). -/
  | powerLoss
  /-- PACKAGE_RESET (R407). -/
  | packageReset
  /-- LEASE_RESET (R379). -/
  | leaseReset
  /-- UNCORRECTABLE_ERROR (R380). -/
  | uncorrectableError
  /-- HOME_TAG_PARITY_ERROR (R383). -/
  | homeTagParityError
  /-- PAIR_LINK_FAILURE (R384). -/
  | pairLinkFailure
  /-- HOST_LINK_DOWN (R384). -/
  | hostLinkDown
  /-- FABRIC_PORT_DOWN (R399). -/
  | fabricPortDown
  /-- FABRIC_REPLAY (R309). -/
  | fabricReplay
  /-- FABRIC_ADMISSION (R403). -/
  | fabricAdmission
  /-- FABRIC_ACK (R310). -/
  | fabricAck
  /-- FABRIC_TIMEOUT (R400). -/
  | fabricTimeout
  /-- CLK (R68). -/
  | clk
  /-- ILLEGAL_INSTRUCTION (R22). -/
  | illegalInstruction
  /-- CLOCK_LOWERING (R17). -/
  | clockLowering
  /-- CORRECTABLE_ERROR (R384). -/
  | correctableError
  /-- HOST_LINK_WRITE (R318). -/
  | hostLinkWrite
  /-- STALE_REQUEST_DISCARD (R312). -/
  | staleRequestDiscard
  /-- MIGRATION_ENGINE_COPY (R382). -/
  | migrationEngineCopy
deriving DecidableEq, Repr

end Sys2Proof
end

