-- ==== Sys2Proof/WellFormed.lean ====
section
/-! DEFINITION. What the entries of the instruction set allow beyond the widths of fields: aligned offsets (R20), loop
counts (R27), format words (R33), rounding (R25), scopes (R29), assigned CSRs (R31), predicate destinations and
register pairs (R218). Events and commands of the package have no word and so no rule here. -/

namespace Sys2Proof

/-- The rounding fields R25 accepts. -/
def rmOk (m : BitVec 3) : Bool := m != 4#3 && m != 5#3 && m != 6#3

/-- The assigned CSR numbers (R31). -/
def csrAssigned (n : Nat) : Bool :=
  n ∈ [0x000, 0x001, 0x002, 0x003, 0x004, 0x005, 0x006, 0x007, 0x008, 0x009, 0x00A, 0x010, 0x011, 0x012, 0x013, 0x014,
    0x015, 0x020, 0x021, 0x030, 0x031, 0x032, 0x033, 0x034, 0x038, 0x039, 0x03A, 0x03B, 0x040, 0x041, 0x042, 0x050,
    0x051, 0x060, 0x061, 0x062]

/-- The CSRs some class may write (R31). -/
def csrWritable (n : Nat) : Bool :=
  n ∈ [0x005, 0x006, 0x009, 0x00A, 0x010, 0x011, 0x012, 0x013, 0x014, 0x015, 0x030, 0x031, 0x032, 0x033, 0x034, 0x038,
    0x039, 0x03A, 0x03B]

/-- A CSR form may name an assigned CSR, and write one that is not RO for every class (R31). -/
def csrOk (writes : Bool) (n : BitVec 12) : Bool := csrAssigned n.toNat && (!writes || csrWritable n.toNat)

/-- A format word holds no reserved value and has bit 11 clear (R33). -/
def fmtOk (w : BitVec 12) : Bool :=
  w.extractLsb' 11 1 == 0#1 && w.extractLsb' 7 2 != 3#2 && decide ((w.extractLsb' 4 3).toNat ≤ 4) &&
    decide ((w.extractLsb' 0 4).toNat ≤ 6)

/-- An even register, the first of a pair (R218). -/
def evenReg (r : BitVec 5) : Bool := r.extractLsb' 0 1 == 0#1

/-- The range rules of an instruction's entry. -/
def Instr.wellFormed : Instr → Bool
  | .lui _ _ => true
  | .auipc _ _ => true
  | .jal _ off => off.extractLsb' 0 2 == 0#2
  | .jalr _ _ _ => true
  | .beq _ _ off => off.extractLsb' 0 2 == 0#2
  | .bne _ _ off => off.extractLsb' 0 2 == 0#2
  | .blt _ _ off => off.extractLsb' 0 2 == 0#2
  | .bge _ _ off => off.extractLsb' 0 2 == 0#2
  | .bltu _ _ off => off.extractLsb' 0 2 == 0#2
  | .bgeu _ _ off => off.extractLsb' 0 2 == 0#2
  | .lb _ _ _ => true
  | .lh _ _ _ => true
  | .lw _ _ _ => true
  | .ld _ _ _ => true
  | .lbu _ _ _ => true
  | .lhu _ _ _ => true
  | .lwu _ _ _ => true
  | .sb _ _ _ => true
  | .sh _ _ _ => true
  | .sw _ _ _ => true
  | .sd _ _ _ => true
  | .addi _ _ _ => true
  | .slti _ _ _ => true
  | .sltiu _ _ _ => true
  | .xori _ _ _ => true
  | .ori _ _ _ => true
  | .andi _ _ _ => true
  | .slli _ _ _ => true
  | .srli _ _ _ => true
  | .srai _ _ _ => true
  | .rori _ _ _ => true
  | .add _ _ _ => true
  | .sub _ _ _ => true
  | .sll _ _ _ => true
  | .slt _ _ _ => true
  | .sltu _ _ _ => true
  | .xor _ _ _ => true
  | .srl _ _ _ => true
  | .sra _ _ _ => true
  | .or _ _ _ => true
  | .and _ _ _ => true
  | .mul _ _ _ => true
  | .mulh _ _ _ => true
  | .mulhu _ _ _ => true
  | .div _ _ _ => true
  | .divu _ _ _ => true
  | .rem _ _ _ => true
  | .remu _ _ _ => true
  | .clmul _ _ _ => true
  | .clmulh _ _ _ => true
  | .clz _ _ => true
  | .ctz _ _ => true
  | .cpop _ _ => true
  | .ror _ _ _ => true
  | .bswap _ _ => true
  | .faddS _ _ _ m => rmOk m
  | .fsubS _ _ _ m => rmOk m
  | .fmulS _ _ _ m => rmOk m
  | .fdivS _ _ _ m => rmOk m
  | .fsqrtS _ _ m => rmOk m
  | .fsgnjS _ _ _ => true
  | .fsgnjnS _ _ _ => true
  | .fsgnjxS _ _ _ => true
  | .fminS _ _ _ => true
  | .fmaxS _ _ _ => true
  | .fleS _ _ _ => true
  | .fltS _ _ _ => true
  | .feqS _ _ _ => true
  | .fcvtWS _ _ m => rmOk m
  | .fcvtLS _ _ m => rmOk m
  | .fcvtSW _ _ m => rmOk m
  | .fcvtSL _ _ m => rmOk m
  | .fclassS _ _ => true
  | .fmaddS _ _ _ _ m => rmOk m
  | .trap => true
  | .bkpt => true
  | .resume _ _ => true
  | .kill _ _ => true
  | .slotrd _ _ => true
  | .plbinv _ _ _ => true
  | .tlbi1 _ _ _ => true
  | .tlbi2 _ _ _ => true
  | .mgmt _ _ => true
  | .slotwr _ _ _ => true
  | .csrrw _ _ csr => csrOk true csr
  | .csrrs _ a csr => csrOk (a != 0#5) csr
  | .csrrc _ a csr => csrOk (a != 0#5) csr
  | .csrrwi _ _ csr => csrOk true csr
  | .csrrsi _ u csr => csrOk (u != 0#5) csr
  | .csrrci _ u csr => csrOk (u != 0#5) csr
  | .loop _ _ n => n != 0#12
  | .fmt w => fmtOk w
  | .send _ _ _ => true
  | .sendc _ _ _ => true
  | .jarm _ _ _ => true
  | .jdec _ _ _ => true
  | .tagen _ _ => true
  | .tagdis _ _ => true
  | .tagpd _ _ => true
  | .lnch _ _ => true
  | .yield => true
  | .endTask => true
  | .waita _ _ _ => true
  | .wake _ _ => true
  | .barr _ _ => true
  | .gate _ => true
  | .gret => true
  | .gqry _ _ => true
  | .qpush _ _ => true
  | .qpop _ _ => true
  | .qcnt _ _ => true
  | .vaddF _ _ _ _ => true
  | .vsubF _ _ _ _ => true
  | .vmulF _ _ _ _ => true
  | .vfmaF _ _ _ _ => true
  | .vminF _ _ _ _ => true
  | .vmaxF _ _ _ _ => true
  | .vabsF _ _ _ => true
  | .vnegF _ _ _ => true
  | .vdivF _ _ _ _ => true
  | .vsqrtF _ _ _ => true
  | .vexp2F _ _ _ => true
  | .vrcpF _ _ _ => true
  | .vfmasF _ _ _ _ => true
  | .vaddI _ _ _ _ => true
  | .vsubI _ _ _ _ => true
  | .vmulI _ _ _ _ => true
  | .vminI _ _ _ _ => true
  | .vmaxI _ _ _ _ => true
  | .vminuI _ _ _ _ => true
  | .vmaxuI _ _ _ _ => true
  | .vand _ _ _ _ => true
  | .vor _ _ _ _ => true
  | .vxor _ _ _ _ => true
  | .vshl _ _ _ _ => true
  | .vsrl _ _ _ _ => true
  | .vsra _ _ _ _ => true
  | .vcmpFEQ _ d _ _ => d != 0#3
  | .vcmpFLT _ d _ _ => d != 0#3
  | .vcmpFLE _ d _ _ => d != 0#3
  | .vcmpIEQ _ d _ _ => d != 0#3
  | .vcmpILT _ d _ _ => d != 0#3
  | .vcmpILTU _ d _ _ => d != 0#3
  | .vsel _ _ _ _ => true
  | .pand d _ _ => d != 0#3
  | .por d _ _ => d != 0#3
  | .pxor d _ _ => d != 0#3
  | .pnot d _ => d != 0#3
  | .pset d _ => d != 0#3
  | .pget _ _ => true
  | .ppop _ _ _ => true
  | .vbcast _ _ _ => true
  | .vbcastq _ _ _ => true
  | .vmvxv _ _ _ => true
  | .vmvvx _ _ _ => true
  | .vperm _ _ _ _ => true
  | .vslide _ _ _ _ => true
  | .viota _ _ => true
  | .vrsumF _ _ _ => true
  | .vrmaxF _ _ _ => true
  | .vrsumI _ _ _ => true
  | .vcvtFI _ _ _ => true
  | .vcvtIF _ _ _ => true
  | .vcvtFH _ _ _ _ => true
  | .vcvtHF _ _ _ _ => true
  | .vqnt _ _ a _ => evenReg a
  | .vdqnt _ d _ _ => evenReg d
  | .vbexp _ _ a => evenReg a
  | .vld _ _ _ => true
  | .vst _ _ _ => true
  | .vlds _ _ _ _ => true
  | .vsts _ _ _ _ => true
  | .vldx _ _ _ _ => true
  | .vstx _ _ _ _ => true
  | .vredx p _ _ _ => p != 0#3
  | .ldsG _ => true
  | .swsG => true
  | .mmaG _ _ _ => true
  | .mwait _ => true
  | .mzero _ => true
  | .aswap _ _ _ => true
  | .mrec _ _ _ => true
  | .mrd _ _ _ => true
  | .mwr _ _ _ => true
  | .maddv _ _ _ => true
  | .mstat _ _ => true
  | .ginit _ _ _ => true
  | .gadd _ _ _ => true
  | .gaddv _ _ _ => true
  | .gaband _ _ => true
  | .gstat _ _ => true
  | .grec _ _ _ => true
  | .crd _ _ => true
  | .cwr _ _ => true
  | .cmov _ _ => true
  | .cfill _ _ _ => true
  | .cwait _ _ => true
  | .cstat _ _ => true
  | .coll _ _ => true
  | .lda _ s _ _ => decide (s.toNat ≤ 3)
  | .stl _ s _ _ => decide (s.toNat ≤ 4)
  | .amoadd _ _ _ _ _ => true
  | .amoswap _ _ _ _ _ => true
  | .amocas _ _ _ _ _ => true
  | .amoand _ _ _ _ _ => true
  | .amoor _ _ _ _ _ => true
  | .amoxor _ _ _ _ _ => true
  | .amomin _ _ _ _ _ => true
  | .amomax _ _ _ _ _ => true
  | .amominu _ _ _ _ _ => true
  | .amomaxu _ _ _ _ _ => true
  | .amofadd _ _ _ _ => true
  | .redadd _ _ _ _ => true
  | .redfadd _ _ _ => true
  | .redmax _ _ _ _ => true
  | .redmin _ _ _ _ => true
  | .lde _ _ _ => true
  | .ldfW _ _ => true
  | .ldfD _ _ => true
  | .stfW _ _ => true
  | .stfD _ _ => true
  | .sete _ _ => true
  | .drain _ _ => true
  | .fence s => decide (s.toNat ≤ 4)
  | .tfence => true
  | .pbar => true
  | .pbarw => true
  | .launchSubmit => true
  | .distributorAccept => true
  | .distributeIdentifier => true
  | .gangDistribute => true
  | .launchComplete => true
  | .launchTagFree => true
  | .partnew => true
  | .partdel => true
  | .leasenew => true
  | .leasedel => true
  | .rights => true
  | .qgrant => true
  | .qtake => true
  | .slices => true
  | .s1root => true
  | .s2root => true
  | .budgetAssign => true
  | .budgetSet => true
  | .budgetAdd => true
  | .budgetBind => true
  | .wdlim => true
  | .driftlim => true
  | .fgroup => true
  | .aperture => true
  | .vfreset => true
  | .attest => true
  | .statewin => true
  | .evroute => true
  | .evackResolve => true
  | .evackKill => true
  | .windowRegisterWrite => true
  | .vtbWrite => true
  | .gtbWrite => true
  | .cullWrite => true
  | .cullszWrite => true
  | .latchRelease => true
  | .messageArrival => true
  | .handlerStart => true
  | .messageAgeing => true
  | .watchdogExpiry => true
  | .glimitExpiry => true
  | .sliceEnd => true
  | .preemptionSwitch => true
  | .chargeArrival => true
  | .noticeDelivery => true
  | .ldfRetry => true
  | .slotUnblock => true
  | .storeBufferDrain => true
  | .fill => true
  | .writeback => true
  | .evict => true
  | .pageWalk => true
  | .vectorCommandExecute => true
  | .copyStart => true
  | .ecopy => true
  | .copyComplete => true
  | .engineHeldDelivery => true
  | .engineFaultUpcall => true
  | .collectiveStart => true
  | .collectiveComplete => true
  | .collectiveAbort => true
  | .gangBarrierComplete => true
  | .gangOperationAccept => true
  | .passComplete => true
  | .gatherContribution => true
  | .gatherInitPerform => true
  | .gatherAbandonPerform => true
  | .gatherQueryPerform => true
  | .ldfHome => true
  | .stfHome => true
  | .seteHome => true
  | .continuationSend => true
  | .carriedCodeExecute => true
  | .jdecApply => true
  | .culletRefill => true
  | .driftGrant => true
  | .ddrain => true
  | .forcedDrain => true
  | .dieReset => true
  | .staleResponseDrop => true
  | .lehrAccept => true
  | .lehrRetire => true
  | .pwrfailN => true
  | .powerLoss => true
  | .packageReset => true
  | .leaseReset => true
  | .uncorrectableError => true
  | .homeTagParityError => true
  | .pairLinkFailure => true
  | .hostLinkDown => true
  | .fabricPortDown => true
  | .fabricReplay => true
  | .fabricAdmission => true
  | .fabricAck => true
  | .fabricTimeout => true
  | .clk => true
  | .illegalInstruction => true
  | .clockLowering => true
  | .correctableError => true
  | .hostLinkWrite => true
  | .staleRequestDiscard => true
  | .migrationEngineCopy => true

end Sys2Proof
end

