-- ==== Sys2Proof/Decode.lean ====
section
/-! DEFINITION. The decoder (R18 to R29), total on every word and refusing by name, and after it the encoder. A word is
read as the six fields of the R layout (R19); every other layout is the same fields joined differently. -/

namespace Sys2Proof

/-- Why a word is an illegal instruction (R22). -/
inductive DecodeError where
  /-- Bits [1:0] are not 0b11, or the major opcode is unassigned. -/
  | opcode
  /-- The funct3, funct7, vop, group or op value is unassigned. -/
  | selector
  /-- A field required to be zero is not. -/
  | zeroField
  /-- A register, predicate, level, CSR, scope, format or offset lies outside what the entry allows. -/
  | range
deriving DecidableEq, Repr

/-- The word whose R-layout fields are given (R19). -/
def rWord (f7 : BitVec 7) (b a : BitVec 5) (f3 : BitVec 3) (d : BitVec 5) (op : BitVec 7) : BitVec 32 :=
  f7 ++ b ++ a ++ f3 ++ d ++ op

/-- Bits [6:0]. -/
def fieldOp (w : BitVec 32) : BitVec 7 := w.extractLsb' 0 7
/-- Bits [11:7]. -/
def fieldD (w : BitVec 32) : BitVec 5 := w.extractLsb' 7 5
/-- Bits [14:12]. -/
def fieldF3 (w : BitVec 32) : BitVec 3 := w.extractLsb' 12 3
/-- Bits [19:15]. -/
def fieldA (w : BitVec 32) : BitVec 5 := w.extractLsb' 15 5
/-- Bits [24:20]. -/
def fieldB (w : BitVec 32) : BitVec 5 := w.extractLsb' 20 5
/-- Bits [31:25]. -/
def fieldF7 (w : BitVec 32) : BitVec 7 := w.extractLsb' 25 7

/-- The instruction when the fields required to be zero are (R22). -/
def whenZero (c : Bool) (i : Instr) : Except DecodeError Instr := if c then .ok i else .error .zeroField

/-- Major opcode Lui (R24 to R29). -/
def decodeLui (f7 : BitVec 7) (b a : BitVec 5) (f3 : BitVec 3) (d : BitVec 5) : Except DecodeError Instr :=
  .ok (.lui d (f7 ++ b ++ a ++ f3))

/-- Major opcode Auipc (R24 to R29). -/
def decodeAuipc (f7 : BitVec 7) (b a : BitVec 5) (f3 : BitVec 3) (d : BitVec 5) : Except DecodeError Instr :=
  .ok (.auipc d (f7 ++ b ++ a ++ f3))

/-- Major opcode Jal (R24 to R29). -/
def decodeJal (f7 : BitVec 7) (b a : BitVec 5) (f3 : BitVec 3) (d : BitVec 5) : Except DecodeError Instr :=
  .ok (.jal d (f7.extractLsb' 6 1 ++ a ++ f3 ++ b.extractLsb' 0 1 ++ f7.extractLsb' 0 6 ++ b.extractLsb' 1 4 ++ 0#1))

/-- Major opcode Jalr (R24 to R29). -/
def decodeJalr (f7 : BitVec 7) (b a : BitVec 5) (f3 : BitVec 3) (d : BitVec 5) : Except DecodeError Instr :=
  if f3 = 0#3 then .ok (.jalr d a (f7 ++ b)) else
  .error .selector

/-- Major opcode Branch (R24 to R29). -/
def decodeBranch (f7 : BitVec 7) (b a : BitVec 5) (f3 : BitVec 3) (d : BitVec 5) : Except DecodeError Instr :=
  if f3 = 0#3 then .ok (.beq a b (f7.extractLsb' 6 1 ++ d.extractLsb' 0 1 ++ f7.extractLsb' 0 6 ++ d.extractLsb' 1 4 ++ 0#1)) else
  if f3 = 1#3 then .ok (.bne a b (f7.extractLsb' 6 1 ++ d.extractLsb' 0 1 ++ f7.extractLsb' 0 6 ++ d.extractLsb' 1 4 ++ 0#1)) else
  if f3 = 4#3 then .ok (.blt a b (f7.extractLsb' 6 1 ++ d.extractLsb' 0 1 ++ f7.extractLsb' 0 6 ++ d.extractLsb' 1 4 ++ 0#1)) else
  if f3 = 5#3 then .ok (.bge a b (f7.extractLsb' 6 1 ++ d.extractLsb' 0 1 ++ f7.extractLsb' 0 6 ++ d.extractLsb' 1 4 ++ 0#1)) else
  if f3 = 6#3 then .ok (.bltu a b (f7.extractLsb' 6 1 ++ d.extractLsb' 0 1 ++ f7.extractLsb' 0 6 ++ d.extractLsb' 1 4 ++ 0#1)) else
  if f3 = 7#3 then .ok (.bgeu a b (f7.extractLsb' 6 1 ++ d.extractLsb' 0 1 ++ f7.extractLsb' 0 6 ++ d.extractLsb' 1 4 ++ 0#1)) else
  .error .selector

/-- Major opcode Load (R24 to R29). -/
def decodeLoad (f7 : BitVec 7) (b a : BitVec 5) (f3 : BitVec 3) (d : BitVec 5) : Except DecodeError Instr :=
  if f3 = 0#3 then .ok (.lb d a (f7 ++ b)) else
  if f3 = 1#3 then .ok (.lh d a (f7 ++ b)) else
  if f3 = 2#3 then .ok (.lw d a (f7 ++ b)) else
  if f3 = 3#3 then .ok (.ld d a (f7 ++ b)) else
  if f3 = 4#3 then .ok (.lbu d a (f7 ++ b)) else
  if f3 = 5#3 then .ok (.lhu d a (f7 ++ b)) else
  if f3 = 6#3 then .ok (.lwu d a (f7 ++ b)) else
  .error .selector

/-- Major opcode Store (R24 to R29). -/
def decodeStore (f7 : BitVec 7) (b a : BitVec 5) (f3 : BitVec 3) (d : BitVec 5) : Except DecodeError Instr :=
  if f3 = 0#3 then .ok (.sb a b (f7 ++ d)) else
  if f3 = 1#3 then .ok (.sh a b (f7 ++ d)) else
  if f3 = 2#3 then .ok (.sw a b (f7 ++ d)) else
  if f3 = 3#3 then .ok (.sd a b (f7 ++ d)) else
  .error .selector

/-- Major opcode OpImm (R24 to R29). -/
def decodeOpImm (f7 : BitVec 7) (b a : BitVec 5) (f3 : BitVec 3) (d : BitVec 5) : Except DecodeError Instr :=
  if f3 = 0#3 then .ok (.addi d a (f7 ++ b)) else
  if f3 = 2#3 then .ok (.slti d a (f7 ++ b)) else
  if f3 = 3#3 then .ok (.sltiu d a (f7 ++ b)) else
  if f3 = 4#3 then .ok (.xori d a (f7 ++ b)) else
  if f3 = 6#3 then .ok (.ori d a (f7 ++ b)) else
  if f3 = 7#3 then .ok (.andi d a (f7 ++ b)) else
  if f3 = 1#3 ∧ f7.extractLsb' 1 6 = 0#6 then .ok (.slli d a (f7.extractLsb' 0 1 ++ b)) else
  if f3 = 5#3 ∧ f7.extractLsb' 1 6 = 0#6 then .ok (.srli d a (f7.extractLsb' 0 1 ++ b)) else
  if f3 = 5#3 ∧ f7.extractLsb' 1 6 = 16#6 then .ok (.srai d a (f7.extractLsb' 0 1 ++ b)) else
  if f3 = 5#3 ∧ f7.extractLsb' 1 6 = 24#6 then .ok (.rori d a (f7.extractLsb' 0 1 ++ b)) else
  .error .selector

/-- Major opcode Op (R24 to R29). -/
def decodeOp (f7 : BitVec 7) (b a : BitVec 5) (f3 : BitVec 3) (d : BitVec 5) : Except DecodeError Instr :=
  if f3 = 0#3 ∧ f7 = 0#7 then .ok (.add d a b) else
  if f3 = 0#3 ∧ f7 = 32#7 then .ok (.sub d a b) else
  if f3 = 1#3 ∧ f7 = 0#7 then .ok (.sll d a b) else
  if f3 = 2#3 ∧ f7 = 0#7 then .ok (.slt d a b) else
  if f3 = 3#3 ∧ f7 = 0#7 then .ok (.sltu d a b) else
  if f3 = 4#3 ∧ f7 = 0#7 then .ok (.xor d a b) else
  if f3 = 5#3 ∧ f7 = 0#7 then .ok (.srl d a b) else
  if f3 = 5#3 ∧ f7 = 32#7 then .ok (.sra d a b) else
  if f3 = 6#3 ∧ f7 = 0#7 then .ok (.or d a b) else
  if f3 = 7#3 ∧ f7 = 0#7 then .ok (.and d a b) else
  if f3 = 0#3 ∧ f7 = 1#7 then .ok (.mul d a b) else
  if f3 = 1#3 ∧ f7 = 1#7 then .ok (.mulh d a b) else
  if f3 = 3#3 ∧ f7 = 1#7 then .ok (.mulhu d a b) else
  if f3 = 4#3 ∧ f7 = 1#7 then .ok (.div d a b) else
  if f3 = 5#3 ∧ f7 = 1#7 then .ok (.divu d a b) else
  if f3 = 6#3 ∧ f7 = 1#7 then .ok (.rem d a b) else
  if f3 = 7#3 ∧ f7 = 1#7 then .ok (.remu d a b) else
  if f3 = 0#3 ∧ f7 = 5#7 then .ok (.clmul d a b) else
  if f3 = 1#3 ∧ f7 = 5#7 then .ok (.clmulh d a b) else
  if f3 = 2#3 ∧ f7 = 5#7 then whenZero (decide (b = 0#5)) (.clz d a) else
  if f3 = 3#3 ∧ f7 = 5#7 then whenZero (decide (b = 0#5)) (.ctz d a) else
  if f3 = 4#3 ∧ f7 = 5#7 then whenZero (decide (b = 0#5)) (.cpop d a) else
  if f3 = 5#3 ∧ f7 = 5#7 then .ok (.ror d a b) else
  if f3 = 6#3 ∧ f7 = 5#7 then whenZero (decide (b = 0#5)) (.bswap d a) else
  .error .selector

/-- Major opcode OpFp (R24 to R29). -/
def decodeOpFp (f7 : BitVec 7) (b a : BitVec 5) (f3 : BitVec 3) (d : BitVec 5) : Except DecodeError Instr :=
  if f7 = 0#7 then .ok (.faddS d a b f3) else
  if f7 = 4#7 then .ok (.fsubS d a b f3) else
  if f7 = 8#7 then .ok (.fmulS d a b f3) else
  if f7 = 12#7 then .ok (.fdivS d a b f3) else
  if f7 = 44#7 then whenZero (decide (b = 0#5)) (.fsqrtS d a f3) else
  if f3 = 0#3 ∧ f7 = 16#7 then .ok (.fsgnjS d a b) else
  if f3 = 1#3 ∧ f7 = 16#7 then .ok (.fsgnjnS d a b) else
  if f3 = 2#3 ∧ f7 = 16#7 then .ok (.fsgnjxS d a b) else
  if f3 = 0#3 ∧ f7 = 20#7 then .ok (.fminS d a b) else
  if f3 = 1#3 ∧ f7 = 20#7 then .ok (.fmaxS d a b) else
  if f3 = 0#3 ∧ f7 = 80#7 then .ok (.fleS d a b) else
  if f3 = 1#3 ∧ f7 = 80#7 then .ok (.fltS d a b) else
  if f3 = 2#3 ∧ f7 = 80#7 then .ok (.feqS d a b) else
  if f7 = 96#7 ∧ b = 0#5 then .ok (.fcvtWS d a f3) else
  if f7 = 96#7 ∧ b = 2#5 then .ok (.fcvtLS d a f3) else
  if f7 = 104#7 ∧ b = 0#5 then .ok (.fcvtSW d a f3) else
  if f7 = 104#7 ∧ b = 2#5 then .ok (.fcvtSL d a f3) else
  if f3 = 1#3 ∧ f7 = 112#7 then whenZero (decide (b = 0#5)) (.fclassS d a) else
  .error .selector

/-- Major opcode Fmadd (R24 to R29). -/
def decodeFmadd (f7 : BitVec 7) (b a : BitVec 5) (f3 : BitVec 3) (d : BitVec 5) : Except DecodeError Instr :=
  whenZero (decide (f7.extractLsb' 0 2 = 0#2)) (.fmaddS d a b (f7.extractLsb' 2 5) f3)

/-- Major opcode System (R24 to R29). -/
def decodeSystem (f7 : BitVec 7) (b a : BitVec 5) (f3 : BitVec 3) (d : BitVec 5) : Except DecodeError Instr :=
  if f3 = 0#3 ∧ f7 = 0#7 ∧ b = 0#5 then whenZero (decide (a = 0#5) && decide (d = 0#5)) (.trap) else
  if f3 = 0#3 ∧ f7 = 0#7 ∧ b = 1#5 then whenZero (decide (a = 0#5) && decide (d = 0#5)) (.bkpt) else
  if f3 = 4#3 ∧ f7 = 0#7 then whenZero (decide (b = 0#5)) (.resume d a) else
  if f3 = 4#3 ∧ f7 = 1#7 then whenZero (decide (b = 0#5)) (.kill d a) else
  if f3 = 4#3 ∧ f7 = 2#7 then whenZero (decide (b = 0#5)) (.slotrd d a) else
  if f3 = 4#3 ∧ f7 = 3#7 then .ok (.plbinv d a b) else
  if f3 = 4#3 ∧ f7 = 4#7 then .ok (.tlbi1 d a b) else
  if f3 = 4#3 ∧ f7 = 5#7 then .ok (.tlbi2 d a b) else
  if f3 = 4#3 ∧ f7 = 6#7 then whenZero (decide (b = 0#5)) (.mgmt d a) else
  if f3 = 4#3 ∧ f7 = 7#7 then .ok (.slotwr d a b) else
  if f3 = 1#3 then .ok (.csrrw d a (f7 ++ b)) else
  if f3 = 2#3 then .ok (.csrrs d a (f7 ++ b)) else
  if f3 = 3#3 then .ok (.csrrc d a (f7 ++ b)) else
  if f3 = 5#3 then .ok (.csrrwi d a (f7 ++ b)) else
  if f3 = 6#3 then .ok (.csrrsi d a (f7 ++ b)) else
  if f3 = 7#3 then .ok (.csrrci d a (f7 ++ b)) else
  .error .selector

/-- Major opcode Custom0 (R24 to R29). -/
def decodeCustom0 (f7 : BitVec 7) (b a : BitVec 5) (f3 : BitVec 3) (d : BitVec 5) : Except DecodeError Instr :=
  if f3 = 0#3 then whenZero (decide (d.extractLsb' 1 4 = 0#4)) (.loop (d.extractLsb' 0 1) a (f7 ++ b)) else
  if f3 = 1#3 then whenZero (decide (a = 0#5) && decide (d = 0#5)) (.fmt (f7 ++ b)) else
  if f3 = 2#3 ∧ f7 = 0#7 then .ok (.send d a b) else
  if f3 = 2#3 ∧ f7 = 1#7 then .ok (.sendc d a b) else
  if f3 = 2#3 ∧ f7 = 2#7 then .ok (.jarm d a b) else
  if f3 = 2#3 ∧ f7 = 3#7 then .ok (.jdec d a b) else
  if f3 = 2#3 ∧ f7 = 4#7 then whenZero (decide (b = 0#5)) (.tagen d a) else
  if f3 = 2#3 ∧ f7 = 5#7 then whenZero (decide (b = 0#5)) (.tagdis d a) else
  if f3 = 2#3 ∧ f7 = 6#7 then whenZero (decide (b = 0#5)) (.tagpd d a) else
  if f3 = 2#3 ∧ f7 = 7#7 then whenZero (decide (b = 0#5)) (.lnch d a) else
  if f3 = 3#3 ∧ f7 = 0#7 then whenZero (decide (b = 0#5) && decide (a = 0#5) && decide (d = 0#5)) (.yield) else
  if f3 = 3#3 ∧ f7 = 1#7 then whenZero (decide (b = 0#5) && decide (a = 0#5) && decide (d = 0#5)) (.endTask) else
  if f3 = 3#3 ∧ f7 = 2#7 then .ok (.waita d a b) else
  if f3 = 3#3 ∧ f7 = 3#7 then whenZero (decide (b = 0#5)) (.wake d a) else
  if f3 = 3#3 ∧ f7 = 4#7 then whenZero (decide (b = 0#5)) (.barr d a) else
  if f3 = 4#3 then whenZero (decide (f7.extractLsb' 1 6 = 0#6) && decide (a = 0#5) && decide (d = 0#5)) (.gate (f7.extractLsb' 0 1 ++ b)) else
  if f3 = 5#3 ∧ f7 = 0#7 then whenZero (decide (b = 0#5) && decide (a = 0#5) && decide (d = 0#5)) (.gret) else
  if f3 = 5#3 ∧ f7 = 1#7 then whenZero (decide (b = 0#5)) (.gqry d a) else
  if f3 = 6#3 ∧ f7 = 0#7 then whenZero (decide (b = 0#5) && decide (d.extractLsb' 3 2 = 0#2)) (.qpush (d.extractLsb' 0 3) a) else
  if f3 = 6#3 ∧ f7 = 1#7 then whenZero (decide (b = 0#5) && decide (a.extractLsb' 3 2 = 0#2)) (.qpop d (a.extractLsb' 0 3)) else
  if f3 = 6#3 ∧ f7 = 2#7 then whenZero (decide (b = 0#5) && decide (a.extractLsb' 3 2 = 0#2)) (.qcnt d (a.extractLsb' 0 3)) else
  .error .selector

/-- custom-1, group 000 (R28). -/
def decodeGroup0 (f7 : BitVec 7) (b a d : BitVec 5) : Except DecodeError Instr :=
  if f7.extractLsb' 3 4 = 0#4 then .ok (.vaddF (f7.extractLsb' 0 3) d a b) else
  if f7.extractLsb' 3 4 = 1#4 then .ok (.vsubF (f7.extractLsb' 0 3) d a b) else
  if f7.extractLsb' 3 4 = 2#4 then .ok (.vmulF (f7.extractLsb' 0 3) d a b) else
  if f7.extractLsb' 3 4 = 3#4 then .ok (.vfmaF (f7.extractLsb' 0 3) d a b) else
  if f7.extractLsb' 3 4 = 4#4 then .ok (.vminF (f7.extractLsb' 0 3) d a b) else
  if f7.extractLsb' 3 4 = 5#4 then .ok (.vmaxF (f7.extractLsb' 0 3) d a b) else
  if f7.extractLsb' 3 4 = 6#4 then whenZero (decide (b = 0#5)) (.vabsF (f7.extractLsb' 0 3) d a) else
  if f7.extractLsb' 3 4 = 7#4 then whenZero (decide (b = 0#5)) (.vnegF (f7.extractLsb' 0 3) d a) else
  if f7.extractLsb' 3 4 = 8#4 then .ok (.vdivF (f7.extractLsb' 0 3) d a b) else
  if f7.extractLsb' 3 4 = 9#4 then whenZero (decide (b = 0#5)) (.vsqrtF (f7.extractLsb' 0 3) d a) else
  if f7.extractLsb' 3 4 = 10#4 then whenZero (decide (b = 0#5)) (.vexp2F (f7.extractLsb' 0 3) d a) else
  if f7.extractLsb' 3 4 = 11#4 then whenZero (decide (b = 0#5)) (.vrcpF (f7.extractLsb' 0 3) d a) else
  if f7.extractLsb' 3 4 = 12#4 then .ok (.vfmasF (f7.extractLsb' 0 3) d a b) else
  .error .selector

/-- custom-1, group 001 (R28). -/
def decodeGroup1 (f7 : BitVec 7) (b a d : BitVec 5) : Except DecodeError Instr :=
  if f7.extractLsb' 3 4 = 0#4 then .ok (.vaddI (f7.extractLsb' 0 3) d a b) else
  if f7.extractLsb' 3 4 = 1#4 then .ok (.vsubI (f7.extractLsb' 0 3) d a b) else
  if f7.extractLsb' 3 4 = 2#4 then .ok (.vmulI (f7.extractLsb' 0 3) d a b) else
  if f7.extractLsb' 3 4 = 3#4 then .ok (.vminI (f7.extractLsb' 0 3) d a b) else
  if f7.extractLsb' 3 4 = 4#4 then .ok (.vmaxI (f7.extractLsb' 0 3) d a b) else
  if f7.extractLsb' 3 4 = 5#4 then .ok (.vminuI (f7.extractLsb' 0 3) d a b) else
  if f7.extractLsb' 3 4 = 6#4 then .ok (.vmaxuI (f7.extractLsb' 0 3) d a b) else
  if f7.extractLsb' 3 4 = 7#4 then .ok (.vand (f7.extractLsb' 0 3) d a b) else
  if f7.extractLsb' 3 4 = 8#4 then .ok (.vor (f7.extractLsb' 0 3) d a b) else
  if f7.extractLsb' 3 4 = 9#4 then .ok (.vxor (f7.extractLsb' 0 3) d a b) else
  if f7.extractLsb' 3 4 = 10#4 then .ok (.vshl (f7.extractLsb' 0 3) d a b) else
  if f7.extractLsb' 3 4 = 11#4 then .ok (.vsrl (f7.extractLsb' 0 3) d a b) else
  if f7.extractLsb' 3 4 = 12#4 then .ok (.vsra (f7.extractLsb' 0 3) d a b) else
  .error .selector

/-- custom-1, group 010 (R28). -/
def decodeGroup2 (f7 : BitVec 7) (b a d : BitVec 5) : Except DecodeError Instr :=
  if f7.extractLsb' 3 4 = 0#4 then whenZero (decide (d.extractLsb' 3 2 = 0#2)) (.vcmpFEQ (f7.extractLsb' 0 3) (d.extractLsb' 0 3) a b) else
  if f7.extractLsb' 3 4 = 1#4 then whenZero (decide (d.extractLsb' 3 2 = 0#2)) (.vcmpFLT (f7.extractLsb' 0 3) (d.extractLsb' 0 3) a b) else
  if f7.extractLsb' 3 4 = 2#4 then whenZero (decide (d.extractLsb' 3 2 = 0#2)) (.vcmpFLE (f7.extractLsb' 0 3) (d.extractLsb' 0 3) a b) else
  if f7.extractLsb' 3 4 = 3#4 then whenZero (decide (d.extractLsb' 3 2 = 0#2)) (.vcmpIEQ (f7.extractLsb' 0 3) (d.extractLsb' 0 3) a b) else
  if f7.extractLsb' 3 4 = 4#4 then whenZero (decide (d.extractLsb' 3 2 = 0#2)) (.vcmpILT (f7.extractLsb' 0 3) (d.extractLsb' 0 3) a b) else
  if f7.extractLsb' 3 4 = 5#4 then whenZero (decide (d.extractLsb' 3 2 = 0#2)) (.vcmpILTU (f7.extractLsb' 0 3) (d.extractLsb' 0 3) a b) else
  if f7.extractLsb' 3 4 = 6#4 then .ok (.vsel (f7.extractLsb' 0 3) d a b) else
  if f7.extractLsb' 3 4 = 7#4 then whenZero (decide (f7.extractLsb' 0 3 = 0#3) && decide (b.extractLsb' 3 2 = 0#2) && decide (a.extractLsb' 3 2 = 0#2) && decide (d.extractLsb' 3 2 = 0#2)) (.pand (d.extractLsb' 0 3) (a.extractLsb' 0 3) (b.extractLsb' 0 3)) else
  if f7.extractLsb' 3 4 = 8#4 then whenZero (decide (f7.extractLsb' 0 3 = 0#3) && decide (b.extractLsb' 3 2 = 0#2) && decide (a.extractLsb' 3 2 = 0#2) && decide (d.extractLsb' 3 2 = 0#2)) (.por (d.extractLsb' 0 3) (a.extractLsb' 0 3) (b.extractLsb' 0 3)) else
  if f7.extractLsb' 3 4 = 9#4 then whenZero (decide (f7.extractLsb' 0 3 = 0#3) && decide (b.extractLsb' 3 2 = 0#2) && decide (a.extractLsb' 3 2 = 0#2) && decide (d.extractLsb' 3 2 = 0#2)) (.pxor (d.extractLsb' 0 3) (a.extractLsb' 0 3) (b.extractLsb' 0 3)) else
  if f7.extractLsb' 3 4 = 10#4 then whenZero (decide (f7.extractLsb' 0 3 = 0#3) && decide (b = 0#5) && decide (a.extractLsb' 3 2 = 0#2) && decide (d.extractLsb' 3 2 = 0#2)) (.pnot (d.extractLsb' 0 3) (a.extractLsb' 0 3)) else
  if f7.extractLsb' 3 4 = 11#4 then whenZero (decide (f7.extractLsb' 0 3 = 0#3) && decide (b = 0#5) && decide (d.extractLsb' 3 2 = 0#2)) (.pset (d.extractLsb' 0 3) a) else
  if f7.extractLsb' 3 4 = 12#4 then whenZero (decide (f7.extractLsb' 0 3 = 0#3) && decide (b = 0#5) && decide (a.extractLsb' 3 2 = 0#2)) (.pget d (a.extractLsb' 0 3)) else
  if f7.extractLsb' 3 4 = 13#4 then whenZero (decide (b = 0#5) && decide (a.extractLsb' 3 2 = 0#2)) (.ppop (f7.extractLsb' 0 3) d (a.extractLsb' 0 3)) else
  .error .selector

/-- custom-1, group 011 (R28). -/
def decodeGroup3 (f7 : BitVec 7) (b a d : BitVec 5) : Except DecodeError Instr :=
  if f7.extractLsb' 3 4 = 0#4 then whenZero (decide (b = 0#5)) (.vbcast (f7.extractLsb' 0 3) d a) else
  if f7.extractLsb' 3 4 = 1#4 then whenZero (decide (b = 0#5) && decide (a.extractLsb' 3 2 = 0#2)) (.vbcastq (f7.extractLsb' 0 3) d (a.extractLsb' 0 3)) else
  if f7.extractLsb' 3 4 = 2#4 then whenZero (decide (f7.extractLsb' 0 3 = 0#3) && decide (b.extractLsb' 4 1 = 0#1)) (.vmvxv d a (b.extractLsb' 0 4)) else
  if f7.extractLsb' 3 4 = 3#4 then whenZero (decide (f7.extractLsb' 0 3 = 0#3) && decide (b.extractLsb' 4 1 = 0#1)) (.vmvvx d a (b.extractLsb' 0 4)) else
  if f7.extractLsb' 3 4 = 4#4 then .ok (.vperm (f7.extractLsb' 0 3) d a b) else
  if f7.extractLsb' 3 4 = 5#4 then .ok (.vslide (f7.extractLsb' 0 3) d a b) else
  if f7.extractLsb' 3 4 = 6#4 then whenZero (decide (b = 0#5) && decide (a = 0#5)) (.viota (f7.extractLsb' 0 3) d) else
  if f7.extractLsb' 3 4 = 7#4 then whenZero (decide (b = 0#5)) (.vrsumF (f7.extractLsb' 0 3) d a) else
  if f7.extractLsb' 3 4 = 8#4 then whenZero (decide (b = 0#5)) (.vrmaxF (f7.extractLsb' 0 3) d a) else
  if f7.extractLsb' 3 4 = 9#4 then whenZero (decide (b = 0#5)) (.vrsumI (f7.extractLsb' 0 3) d a) else
  .error .selector

/-- custom-1, group 100 (R28). -/
def decodeGroup4 (f7 : BitVec 7) (b a d : BitVec 5) : Except DecodeError Instr :=
  if f7.extractLsb' 3 4 = 0#4 then whenZero (decide (b = 0#5)) (.vcvtFI (f7.extractLsb' 0 3) d a) else
  if f7.extractLsb' 3 4 = 1#4 then whenZero (decide (b = 0#5)) (.vcvtIF (f7.extractLsb' 0 3) d a) else
  if f7.extractLsb' 3 4 = 2#4 then whenZero (decide (b.extractLsb' 1 4 = 0#4)) (.vcvtFH (f7.extractLsb' 0 3) d a (b.extractLsb' 0 1)) else
  if f7.extractLsb' 3 4 = 3#4 then whenZero (decide (b.extractLsb' 1 4 = 0#4)) (.vcvtHF (f7.extractLsb' 0 3) d a (b.extractLsb' 0 1)) else
  if f7.extractLsb' 3 4 = 4#4 then .ok (.vqnt (f7.extractLsb' 0 3) d a b) else
  if f7.extractLsb' 3 4 = 5#4 then .ok (.vdqnt (f7.extractLsb' 0 3) d a b) else
  if f7.extractLsb' 3 4 = 6#4 then whenZero (decide (b = 0#5)) (.vbexp (f7.extractLsb' 0 3) d a) else
  .error .selector

/-- custom-1, group 101 (R28). -/
def decodeGroup5 (f7 : BitVec 7) (b a d : BitVec 5) : Except DecodeError Instr :=
  if f7.extractLsb' 3 4 = 0#4 then whenZero (decide (b = 0#5)) (.vld (f7.extractLsb' 0 3) d a) else
  if f7.extractLsb' 3 4 = 1#4 then whenZero (decide (b = 0#5)) (.vst (f7.extractLsb' 0 3) d a) else
  if f7.extractLsb' 3 4 = 2#4 then .ok (.vlds (f7.extractLsb' 0 3) d a b) else
  if f7.extractLsb' 3 4 = 3#4 then .ok (.vsts (f7.extractLsb' 0 3) d a b) else
  if f7.extractLsb' 3 4 = 4#4 then .ok (.vldx (f7.extractLsb' 0 3) d a b) else
  if f7.extractLsb' 3 4 = 5#4 then .ok (.vstx (f7.extractLsb' 0 3) d a b) else
  if f7.extractLsb' 3 4 = 6#4 then .ok (.vredx (f7.extractLsb' 0 3) d a b) else
  .error .selector

/-- custom-1 by its group (R28). -/
def decodeCustom1 (f7 : BitVec 7) (b a : BitVec 5) (f3 : BitVec 3) (d : BitVec 5) : Except DecodeError Instr :=
  if f3 = 0#3 then decodeGroup0 f7 b a d else
  if f3 = 1#3 then decodeGroup1 f7 b a d else
  if f3 = 2#3 then decodeGroup2 f7 b a d else
  if f3 = 3#3 then decodeGroup3 f7 b a d else
  if f3 = 4#3 then decodeGroup4 f7 b a d else
  if f3 = 5#3 then decodeGroup5 f7 b a d else
  .error .selector

/-- Major opcode Custom2 (R24 to R29). -/
def decodeCustom2 (f7 : BitVec 7) (b a : BitVec 5) (f3 : BitVec 3) (d : BitVec 5) : Except DecodeError Instr :=
  if f3 = 0#3 ∧ f7 = 0#7 then whenZero (decide (b = 0#5) && decide (d = 0#5)) (.ldsG a) else
  if f3 = 0#3 ∧ f7 = 1#7 then whenZero (decide (b = 0#5) && decide (a = 0#5) && decide (d = 0#5)) (.swsG) else
  if f3 = 0#3 ∧ f7 = 2#7 then whenZero (decide (d.extractLsb' 3 2 = 0#2)) (.mmaG (d.extractLsb' 0 3) a b) else
  if f3 = 0#3 ∧ f7 = 3#7 then whenZero (decide (b = 0#5) && decide (d = 0#5)) (.mwait a) else
  if f3 = 0#3 ∧ f7 = 4#7 then whenZero (decide (b = 0#5) && decide (a = 0#5) && decide (d.extractLsb' 3 2 = 0#2)) (.mzero (d.extractLsb' 0 3)) else
  if f3 = 0#3 ∧ f7 = 5#7 then whenZero (decide (a.extractLsb' 3 2 = 0#2)) (.aswap d (a.extractLsb' 0 3) b) else
  if f3 = 0#3 ∧ f7 = 6#7 then whenZero (decide (a.extractLsb' 3 2 = 0#2)) (.mrec d (a.extractLsb' 0 3) b) else
  if f3 = 0#3 ∧ f7 = 7#7 then whenZero (decide (a.extractLsb' 3 2 = 0#2)) (.mrd d (a.extractLsb' 0 3) b) else
  if f3 = 0#3 ∧ f7 = 8#7 then whenZero (decide (d.extractLsb' 3 2 = 0#2)) (.mwr (d.extractLsb' 0 3) a b) else
  if f3 = 0#3 ∧ f7 = 9#7 then whenZero (decide (d.extractLsb' 3 2 = 0#2)) (.maddv (d.extractLsb' 0 3) a b) else
  if f3 = 0#3 ∧ f7 = 10#7 then whenZero (decide (b = 0#5)) (.mstat d a) else
  if f3 = 1#3 ∧ f7 = 0#7 then .ok (.ginit d a b) else
  if f3 = 1#3 ∧ f7 = 1#7 then .ok (.gadd d a b) else
  if f3 = 1#3 ∧ f7 = 2#7 then .ok (.gaddv d a b) else
  if f3 = 1#3 ∧ f7 = 3#7 then whenZero (decide (b = 0#5)) (.gaband d a) else
  if f3 = 1#3 ∧ f7 = 4#7 then whenZero (decide (b = 0#5)) (.gstat d a) else
  if f3 = 1#3 ∧ f7 = 5#7 then .ok (.grec d a b) else
  if f3 = 2#3 ∧ f7 = 0#7 then whenZero (decide (b = 0#5)) (.crd d a) else
  if f3 = 2#3 ∧ f7 = 1#7 then whenZero (decide (b = 0#5)) (.cwr d a) else
  if f3 = 2#3 ∧ f7 = 2#7 then whenZero (decide (b = 0#5)) (.cmov d a) else
  if f3 = 2#3 ∧ f7 = 3#7 then .ok (.cfill d a b) else
  if f3 = 2#3 ∧ f7 = 4#7 then whenZero (decide (b = 0#5)) (.cwait d a) else
  if f3 = 2#3 ∧ f7 = 5#7 then whenZero (decide (b = 0#5)) (.cstat d a) else
  if f3 = 2#3 ∧ f7 = 6#7 then whenZero (decide (b = 0#5)) (.coll d a) else
  .error .selector

/-- Major opcode Custom3 (R24 to R29). -/
def decodeCustom3 (f7 : BitVec 7) (b a : BitVec 5) (f3 : BitVec 3) (d : BitVec 5) : Except DecodeError Instr :=
  if f3 = 0#3 then whenZero (decide (f7.extractLsb' 0 2 = 0#2) && decide (b = 0#5)) (.lda (f7.extractLsb' 5 2) (f7.extractLsb' 2 3) d a) else
  if f3 = 1#3 then whenZero (decide (f7.extractLsb' 0 2 = 0#2) && decide (d = 0#5)) (.stl (f7.extractLsb' 5 2) (f7.extractLsb' 2 3) a b) else
  if f3 = 2#3 ∧ f7.extractLsb' 3 4 = 0#4 then .ok (.amoadd (f7.extractLsb' 2 1) (f7.extractLsb' 0 2) d a b) else
  if f3 = 2#3 ∧ f7.extractLsb' 3 4 = 1#4 then .ok (.amoswap (f7.extractLsb' 2 1) (f7.extractLsb' 0 2) d a b) else
  if f3 = 2#3 ∧ f7.extractLsb' 3 4 = 2#4 then .ok (.amocas (f7.extractLsb' 2 1) (f7.extractLsb' 0 2) d a b) else
  if f3 = 2#3 ∧ f7.extractLsb' 3 4 = 3#4 then .ok (.amoand (f7.extractLsb' 2 1) (f7.extractLsb' 0 2) d a b) else
  if f3 = 2#3 ∧ f7.extractLsb' 3 4 = 4#4 then .ok (.amoor (f7.extractLsb' 2 1) (f7.extractLsb' 0 2) d a b) else
  if f3 = 2#3 ∧ f7.extractLsb' 3 4 = 5#4 then .ok (.amoxor (f7.extractLsb' 2 1) (f7.extractLsb' 0 2) d a b) else
  if f3 = 2#3 ∧ f7.extractLsb' 3 4 = 6#4 then .ok (.amomin (f7.extractLsb' 2 1) (f7.extractLsb' 0 2) d a b) else
  if f3 = 2#3 ∧ f7.extractLsb' 3 4 = 7#4 then .ok (.amomax (f7.extractLsb' 2 1) (f7.extractLsb' 0 2) d a b) else
  if f3 = 2#3 ∧ f7.extractLsb' 3 4 = 8#4 then .ok (.amominu (f7.extractLsb' 2 1) (f7.extractLsb' 0 2) d a b) else
  if f3 = 2#3 ∧ f7.extractLsb' 3 4 = 9#4 then .ok (.amomaxu (f7.extractLsb' 2 1) (f7.extractLsb' 0 2) d a b) else
  if f3 = 2#3 ∧ f7.extractLsb' 2 5 = 20#5 then .ok (.amofadd (f7.extractLsb' 0 2) d a b) else
  if f3 = 3#3 ∧ f7.extractLsb' 3 4 = 0#4 then whenZero (decide (d = 0#5)) (.redadd (f7.extractLsb' 2 1) (f7.extractLsb' 0 2) a b) else
  if f3 = 3#3 ∧ f7.extractLsb' 2 5 = 2#5 then whenZero (decide (d = 0#5)) (.redfadd (f7.extractLsb' 0 2) a b) else
  if f3 = 3#3 ∧ f7.extractLsb' 3 4 = 2#4 then whenZero (decide (d = 0#5)) (.redmax (f7.extractLsb' 2 1) (f7.extractLsb' 0 2) a b) else
  if f3 = 3#3 ∧ f7.extractLsb' 3 4 = 3#4 then whenZero (decide (d = 0#5)) (.redmin (f7.extractLsb' 2 1) (f7.extractLsb' 0 2) a b) else
  if f3 = 4#3 ∧ f7 = 0#7 then .ok (.lde d a b) else
  if f3 = 4#3 ∧ f7 = 1#7 then whenZero (decide (b = 0#5)) (.ldfW d a) else
  if f3 = 4#3 ∧ f7 = 2#7 then whenZero (decide (b = 0#5)) (.ldfD d a) else
  if f3 = 4#3 ∧ f7 = 3#7 then whenZero (decide (d = 0#5)) (.stfW a b) else
  if f3 = 4#3 ∧ f7 = 4#7 then whenZero (decide (d = 0#5)) (.stfD a b) else
  if f3 = 4#3 ∧ f7 = 5#7 then whenZero (decide (d = 0#5)) (.sete a b) else
  if f3 = 4#3 ∧ f7 = 6#7 then whenZero (decide (b = 0#5)) (.drain d a) else
  if f3 = 5#3 ∧ f7.extractLsb' 3 4 = 0#4 then whenZero (decide (b = 0#5) && decide (a = 0#5) && decide (d = 0#5)) (.fence (f7.extractLsb' 0 3)) else
  if f3 = 5#3 ∧ f7 = 16#7 then whenZero (decide (b = 0#5) && decide (a = 0#5) && decide (d = 0#5)) (.tfence) else
  if f3 = 5#3 ∧ f7 = 32#7 then whenZero (decide (b = 0#5) && decide (a = 0#5) && decide (d = 0#5)) (.pbar) else
  if f3 = 5#3 ∧ f7 = 48#7 then whenZero (decide (b = 0#5) && decide (a = 0#5) && decide (d = 0#5)) (.pbarw) else
  .error .selector

/-- The instruction of the fields of a word, before the range rules. -/
def decodeFields (f7 : BitVec 7) (b a : BitVec 5) (f3 : BitVec 3) (d : BitVec 5) (op : BitVec 7) :
    Except DecodeError Instr :=
  if op = 55#7 then decodeLui f7 b a f3 d else
  if op = 23#7 then decodeAuipc f7 b a f3 d else
  if op = 111#7 then decodeJal f7 b a f3 d else
  if op = 103#7 then decodeJalr f7 b a f3 d else
  if op = 99#7 then decodeBranch f7 b a f3 d else
  if op = 3#7 then decodeLoad f7 b a f3 d else
  if op = 35#7 then decodeStore f7 b a f3 d else
  if op = 19#7 then decodeOpImm f7 b a f3 d else
  if op = 51#7 then decodeOp f7 b a f3 d else
  if op = 83#7 then decodeOpFp f7 b a f3 d else
  if op = 67#7 then decodeFmadd f7 b a f3 d else
  if op = 115#7 then decodeSystem f7 b a f3 d else
  if op = 11#7 then decodeCustom0 f7 b a f3 d else
  if op = 43#7 then decodeCustom1 f7 b a f3 d else
  if op = 91#7 then decodeCustom2 f7 b a f3 d else
  if op = 123#7 then decodeCustom3 f7 b a f3 d else
  .error .opcode

/-- The range rules of R20, R27, R28, R31, R33 and R218. -/
def checkRange : Except DecodeError Instr → Except DecodeError Instr
  | .error e => .error e
  | .ok i => if i.wellFormed then .ok i else .error .range

/-- The instruction a word is, or why it is illegal (R22). -/
def decode (w : BitVec 32) : Except DecodeError Instr :=
  checkRange (decodeFields (fieldF7 w) (fieldB w) (fieldA w) (fieldF3 w) (fieldD w) (fieldOp w))

/-- The instruction the decoder reads from the 32 bits `w` of an opcode-table row: an instruction is one word, so
a row of any other length has none (R18). -/
def decodeTableWord (nbits w : Nat) : Option Instr :=
  if nbits = 32 then
    match decode (BitVec.ofNat 32 w) with
    | .ok i => some i
    | .error _ => none
  else none

/-- The word of an instruction (R19, R24 to R29); an event or command of the package has none, and is given the
all-zeros word, which is illegal (R22). -/
def encode : Instr → BitVec 32
  | .lui d imm => rWord (imm.extractLsb' 13 7) (imm.extractLsb' 8 5) (imm.extractLsb' 3 5) (imm.extractLsb' 0 3) d 55#7
  | .auipc d imm => rWord (imm.extractLsb' 13 7) (imm.extractLsb' 8 5) (imm.extractLsb' 3 5) (imm.extractLsb' 0 3) d 23#7
  | .jal d off => rWord (off.extractLsb' 20 1 ++ off.extractLsb' 5 6) (off.extractLsb' 1 4 ++ off.extractLsb' 11 1) (off.extractLsb' 15 5) (off.extractLsb' 12 3) d 111#7
  | .jalr d a imm => rWord (imm.extractLsb' 5 7) (imm.extractLsb' 0 5) a 0#3 d 103#7
  | .beq a b off => rWord (off.extractLsb' 12 1 ++ off.extractLsb' 5 6) b a 0#3 (off.extractLsb' 1 4 ++ off.extractLsb' 11 1) 99#7
  | .bne a b off => rWord (off.extractLsb' 12 1 ++ off.extractLsb' 5 6) b a 1#3 (off.extractLsb' 1 4 ++ off.extractLsb' 11 1) 99#7
  | .blt a b off => rWord (off.extractLsb' 12 1 ++ off.extractLsb' 5 6) b a 4#3 (off.extractLsb' 1 4 ++ off.extractLsb' 11 1) 99#7
  | .bge a b off => rWord (off.extractLsb' 12 1 ++ off.extractLsb' 5 6) b a 5#3 (off.extractLsb' 1 4 ++ off.extractLsb' 11 1) 99#7
  | .bltu a b off => rWord (off.extractLsb' 12 1 ++ off.extractLsb' 5 6) b a 6#3 (off.extractLsb' 1 4 ++ off.extractLsb' 11 1) 99#7
  | .bgeu a b off => rWord (off.extractLsb' 12 1 ++ off.extractLsb' 5 6) b a 7#3 (off.extractLsb' 1 4 ++ off.extractLsb' 11 1) 99#7
  | .lb d a imm => rWord (imm.extractLsb' 5 7) (imm.extractLsb' 0 5) a 0#3 d 3#7
  | .lh d a imm => rWord (imm.extractLsb' 5 7) (imm.extractLsb' 0 5) a 1#3 d 3#7
  | .lw d a imm => rWord (imm.extractLsb' 5 7) (imm.extractLsb' 0 5) a 2#3 d 3#7
  | .ld d a imm => rWord (imm.extractLsb' 5 7) (imm.extractLsb' 0 5) a 3#3 d 3#7
  | .lbu d a imm => rWord (imm.extractLsb' 5 7) (imm.extractLsb' 0 5) a 4#3 d 3#7
  | .lhu d a imm => rWord (imm.extractLsb' 5 7) (imm.extractLsb' 0 5) a 5#3 d 3#7
  | .lwu d a imm => rWord (imm.extractLsb' 5 7) (imm.extractLsb' 0 5) a 6#3 d 3#7
  | .sb a b imm => rWord (imm.extractLsb' 5 7) b a 0#3 (imm.extractLsb' 0 5) 35#7
  | .sh a b imm => rWord (imm.extractLsb' 5 7) b a 1#3 (imm.extractLsb' 0 5) 35#7
  | .sw a b imm => rWord (imm.extractLsb' 5 7) b a 2#3 (imm.extractLsb' 0 5) 35#7
  | .sd a b imm => rWord (imm.extractLsb' 5 7) b a 3#3 (imm.extractLsb' 0 5) 35#7
  | .addi d a imm => rWord (imm.extractLsb' 5 7) (imm.extractLsb' 0 5) a 0#3 d 19#7
  | .slti d a imm => rWord (imm.extractLsb' 5 7) (imm.extractLsb' 0 5) a 2#3 d 19#7
  | .sltiu d a imm => rWord (imm.extractLsb' 5 7) (imm.extractLsb' 0 5) a 3#3 d 19#7
  | .xori d a imm => rWord (imm.extractLsb' 5 7) (imm.extractLsb' 0 5) a 4#3 d 19#7
  | .ori d a imm => rWord (imm.extractLsb' 5 7) (imm.extractLsb' 0 5) a 6#3 d 19#7
  | .andi d a imm => rWord (imm.extractLsb' 5 7) (imm.extractLsb' 0 5) a 7#3 d 19#7
  | .slli d a sh => rWord (0#6 ++ sh.extractLsb' 5 1) (sh.extractLsb' 0 5) a 1#3 d 19#7
  | .srli d a sh => rWord (0#6 ++ sh.extractLsb' 5 1) (sh.extractLsb' 0 5) a 5#3 d 19#7
  | .srai d a sh => rWord (16#6 ++ sh.extractLsb' 5 1) (sh.extractLsb' 0 5) a 5#3 d 19#7
  | .rori d a sh => rWord (24#6 ++ sh.extractLsb' 5 1) (sh.extractLsb' 0 5) a 5#3 d 19#7
  | .add d a b => rWord 0#7 b a 0#3 d 51#7
  | .sub d a b => rWord 32#7 b a 0#3 d 51#7
  | .sll d a b => rWord 0#7 b a 1#3 d 51#7
  | .slt d a b => rWord 0#7 b a 2#3 d 51#7
  | .sltu d a b => rWord 0#7 b a 3#3 d 51#7
  | .xor d a b => rWord 0#7 b a 4#3 d 51#7
  | .srl d a b => rWord 0#7 b a 5#3 d 51#7
  | .sra d a b => rWord 32#7 b a 5#3 d 51#7
  | .or d a b => rWord 0#7 b a 6#3 d 51#7
  | .and d a b => rWord 0#7 b a 7#3 d 51#7
  | .mul d a b => rWord 1#7 b a 0#3 d 51#7
  | .mulh d a b => rWord 1#7 b a 1#3 d 51#7
  | .mulhu d a b => rWord 1#7 b a 3#3 d 51#7
  | .div d a b => rWord 1#7 b a 4#3 d 51#7
  | .divu d a b => rWord 1#7 b a 5#3 d 51#7
  | .rem d a b => rWord 1#7 b a 6#3 d 51#7
  | .remu d a b => rWord 1#7 b a 7#3 d 51#7
  | .clmul d a b => rWord 5#7 b a 0#3 d 51#7
  | .clmulh d a b => rWord 5#7 b a 1#3 d 51#7
  | .clz d a => rWord 5#7 0#5 a 2#3 d 51#7
  | .ctz d a => rWord 5#7 0#5 a 3#3 d 51#7
  | .cpop d a => rWord 5#7 0#5 a 4#3 d 51#7
  | .ror d a b => rWord 5#7 b a 5#3 d 51#7
  | .bswap d a => rWord 5#7 0#5 a 6#3 d 51#7
  | .faddS d a b m => rWord 0#7 b a m d 83#7
  | .fsubS d a b m => rWord 4#7 b a m d 83#7
  | .fmulS d a b m => rWord 8#7 b a m d 83#7
  | .fdivS d a b m => rWord 12#7 b a m d 83#7
  | .fsqrtS d a m => rWord 44#7 0#5 a m d 83#7
  | .fsgnjS d a b => rWord 16#7 b a 0#3 d 83#7
  | .fsgnjnS d a b => rWord 16#7 b a 1#3 d 83#7
  | .fsgnjxS d a b => rWord 16#7 b a 2#3 d 83#7
  | .fminS d a b => rWord 20#7 b a 0#3 d 83#7
  | .fmaxS d a b => rWord 20#7 b a 1#3 d 83#7
  | .fleS d a b => rWord 80#7 b a 0#3 d 83#7
  | .fltS d a b => rWord 80#7 b a 1#3 d 83#7
  | .feqS d a b => rWord 80#7 b a 2#3 d 83#7
  | .fcvtWS d a m => rWord 96#7 0#5 a m d 83#7
  | .fcvtLS d a m => rWord 96#7 2#5 a m d 83#7
  | .fcvtSW d a m => rWord 104#7 0#5 a m d 83#7
  | .fcvtSL d a m => rWord 104#7 2#5 a m d 83#7
  | .fclassS d a => rWord 112#7 0#5 a 1#3 d 83#7
  | .fmaddS d a b c m => rWord (c ++ 0#2) b a m d 67#7
  | .trap => rWord 0#7 0#5 0#5 0#3 0#5 115#7
  | .bkpt => rWord 0#7 1#5 0#5 0#3 0#5 115#7
  | .resume d a => rWord 0#7 0#5 a 4#3 d 115#7
  | .kill d a => rWord 1#7 0#5 a 4#3 d 115#7
  | .slotrd d a => rWord 2#7 0#5 a 4#3 d 115#7
  | .plbinv d a b => rWord 3#7 b a 4#3 d 115#7
  | .tlbi1 d a b => rWord 4#7 b a 4#3 d 115#7
  | .tlbi2 d a b => rWord 5#7 b a 4#3 d 115#7
  | .mgmt d a => rWord 6#7 0#5 a 4#3 d 115#7
  | .slotwr d a b => rWord 7#7 b a 4#3 d 115#7
  | .csrrw d a csr => rWord (csr.extractLsb' 5 7) (csr.extractLsb' 0 5) a 1#3 d 115#7
  | .csrrs d a csr => rWord (csr.extractLsb' 5 7) (csr.extractLsb' 0 5) a 2#3 d 115#7
  | .csrrc d a csr => rWord (csr.extractLsb' 5 7) (csr.extractLsb' 0 5) a 3#3 d 115#7
  | .csrrwi d u csr => rWord (csr.extractLsb' 5 7) (csr.extractLsb' 0 5) u 5#3 d 115#7
  | .csrrsi d u csr => rWord (csr.extractLsb' 5 7) (csr.extractLsb' 0 5) u 6#3 d 115#7
  | .csrrci d u csr => rWord (csr.extractLsb' 5 7) (csr.extractLsb' 0 5) u 7#3 d 115#7
  | .loop l a n => rWord (n.extractLsb' 5 7) (n.extractLsb' 0 5) a 0#3 (0#4 ++ l) 11#7
  | .fmt w => rWord (w.extractLsb' 5 7) (w.extractLsb' 0 5) 0#5 1#3 0#5 11#7
  | .send d a b => rWord 0#7 b a 2#3 d 11#7
  | .sendc d a b => rWord 1#7 b a 2#3 d 11#7
  | .jarm d a b => rWord 2#7 b a 2#3 d 11#7
  | .jdec d a b => rWord 3#7 b a 2#3 d 11#7
  | .tagen d a => rWord 4#7 0#5 a 2#3 d 11#7
  | .tagdis d a => rWord 5#7 0#5 a 2#3 d 11#7
  | .tagpd d a => rWord 6#7 0#5 a 2#3 d 11#7
  | .lnch d a => rWord 7#7 0#5 a 2#3 d 11#7
  | .yield => rWord 0#7 0#5 0#5 3#3 0#5 11#7
  | .endTask => rWord 1#7 0#5 0#5 3#3 0#5 11#7
  | .waita d a b => rWord 2#7 b a 3#3 d 11#7
  | .wake d a => rWord 3#7 0#5 a 3#3 d 11#7
  | .barr d a => rWord 4#7 0#5 a 3#3 d 11#7
  | .gate n => rWord (0#6 ++ n.extractLsb' 5 1) (n.extractLsb' 0 5) 0#5 4#3 0#5 11#7
  | .gret => rWord 0#7 0#5 0#5 5#3 0#5 11#7
  | .gqry d a => rWord 1#7 0#5 a 5#3 d 11#7
  | .qpush q a => rWord 0#7 0#5 a 6#3 (0#2 ++ q) 11#7
  | .qpop d q => rWord 1#7 0#5 (0#2 ++ q) 6#3 d 11#7
  | .qcnt d q => rWord 2#7 0#5 (0#2 ++ q) 6#3 d 11#7
  | .vaddF p d a b => rWord (0#4 ++ p) b a 0#3 d 43#7
  | .vsubF p d a b => rWord (1#4 ++ p) b a 0#3 d 43#7
  | .vmulF p d a b => rWord (2#4 ++ p) b a 0#3 d 43#7
  | .vfmaF p d a b => rWord (3#4 ++ p) b a 0#3 d 43#7
  | .vminF p d a b => rWord (4#4 ++ p) b a 0#3 d 43#7
  | .vmaxF p d a b => rWord (5#4 ++ p) b a 0#3 d 43#7
  | .vabsF p d a => rWord (6#4 ++ p) 0#5 a 0#3 d 43#7
  | .vnegF p d a => rWord (7#4 ++ p) 0#5 a 0#3 d 43#7
  | .vdivF p d a b => rWord (8#4 ++ p) b a 0#3 d 43#7
  | .vsqrtF p d a => rWord (9#4 ++ p) 0#5 a 0#3 d 43#7
  | .vexp2F p d a => rWord (10#4 ++ p) 0#5 a 0#3 d 43#7
  | .vrcpF p d a => rWord (11#4 ++ p) 0#5 a 0#3 d 43#7
  | .vfmasF p d a b => rWord (12#4 ++ p) b a 0#3 d 43#7
  | .vaddI p d a b => rWord (0#4 ++ p) b a 1#3 d 43#7
  | .vsubI p d a b => rWord (1#4 ++ p) b a 1#3 d 43#7
  | .vmulI p d a b => rWord (2#4 ++ p) b a 1#3 d 43#7
  | .vminI p d a b => rWord (3#4 ++ p) b a 1#3 d 43#7
  | .vmaxI p d a b => rWord (4#4 ++ p) b a 1#3 d 43#7
  | .vminuI p d a b => rWord (5#4 ++ p) b a 1#3 d 43#7
  | .vmaxuI p d a b => rWord (6#4 ++ p) b a 1#3 d 43#7
  | .vand p d a b => rWord (7#4 ++ p) b a 1#3 d 43#7
  | .vor p d a b => rWord (8#4 ++ p) b a 1#3 d 43#7
  | .vxor p d a b => rWord (9#4 ++ p) b a 1#3 d 43#7
  | .vshl p d a b => rWord (10#4 ++ p) b a 1#3 d 43#7
  | .vsrl p d a b => rWord (11#4 ++ p) b a 1#3 d 43#7
  | .vsra p d a b => rWord (12#4 ++ p) b a 1#3 d 43#7
  | .vcmpFEQ p d a b => rWord (0#4 ++ p) b a 2#3 (0#2 ++ d) 43#7
  | .vcmpFLT p d a b => rWord (1#4 ++ p) b a 2#3 (0#2 ++ d) 43#7
  | .vcmpFLE p d a b => rWord (2#4 ++ p) b a 2#3 (0#2 ++ d) 43#7
  | .vcmpIEQ p d a b => rWord (3#4 ++ p) b a 2#3 (0#2 ++ d) 43#7
  | .vcmpILT p d a b => rWord (4#4 ++ p) b a 2#3 (0#2 ++ d) 43#7
  | .vcmpILTU p d a b => rWord (5#4 ++ p) b a 2#3 (0#2 ++ d) 43#7
  | .vsel p d a b => rWord (6#4 ++ p) b a 2#3 d 43#7
  | .pand d a b => rWord 56#7 (0#2 ++ b) (0#2 ++ a) 2#3 (0#2 ++ d) 43#7
  | .por d a b => rWord 64#7 (0#2 ++ b) (0#2 ++ a) 2#3 (0#2 ++ d) 43#7
  | .pxor d a b => rWord 72#7 (0#2 ++ b) (0#2 ++ a) 2#3 (0#2 ++ d) 43#7
  | .pnot d a => rWord 80#7 0#5 (0#2 ++ a) 2#3 (0#2 ++ d) 43#7
  | .pset d a => rWord 88#7 0#5 a 2#3 (0#2 ++ d) 43#7
  | .pget d a => rWord 96#7 0#5 (0#2 ++ a) 2#3 d 43#7
  | .ppop p d a => rWord (13#4 ++ p) 0#5 (0#2 ++ a) 2#3 d 43#7
  | .vbcast p d a => rWord (0#4 ++ p) 0#5 a 3#3 d 43#7
  | .vbcastq p d q => rWord (1#4 ++ p) 0#5 (0#2 ++ q) 3#3 d 43#7
  | .vmvxv d a j => rWord 16#7 (0#1 ++ j) a 3#3 d 43#7
  | .vmvvx d a j => rWord 24#7 (0#1 ++ j) a 3#3 d 43#7
  | .vperm p d a b => rWord (4#4 ++ p) b a 3#3 d 43#7
  | .vslide p d a b => rWord (5#4 ++ p) b a 3#3 d 43#7
  | .viota p d => rWord (6#4 ++ p) 0#5 0#5 3#3 d 43#7
  | .vrsumF p d a => rWord (7#4 ++ p) 0#5 a 3#3 d 43#7
  | .vrmaxF p d a => rWord (8#4 ++ p) 0#5 a 3#3 d 43#7
  | .vrsumI p d a => rWord (9#4 ++ p) 0#5 a 3#3 d 43#7
  | .vcvtFI p d a => rWord (0#4 ++ p) 0#5 a 4#3 d 43#7
  | .vcvtIF p d a => rWord (1#4 ++ p) 0#5 a 4#3 d 43#7
  | .vcvtFH p d a h => rWord (2#4 ++ p) (0#4 ++ h) a 4#3 d 43#7
  | .vcvtHF p d a h => rWord (3#4 ++ p) (0#4 ++ h) a 4#3 d 43#7
  | .vqnt p d a b => rWord (4#4 ++ p) b a 4#3 d 43#7
  | .vdqnt p d a b => rWord (5#4 ++ p) b a 4#3 d 43#7
  | .vbexp p d a => rWord (6#4 ++ p) 0#5 a 4#3 d 43#7
  | .vld p d a => rWord (0#4 ++ p) 0#5 a 5#3 d 43#7
  | .vst p d a => rWord (1#4 ++ p) 0#5 a 5#3 d 43#7
  | .vlds p d a b => rWord (2#4 ++ p) b a 5#3 d 43#7
  | .vsts p d a b => rWord (3#4 ++ p) b a 5#3 d 43#7
  | .vldx p d a b => rWord (4#4 ++ p) b a 5#3 d 43#7
  | .vstx p d a b => rWord (5#4 ++ p) b a 5#3 d 43#7
  | .vredx p d a b => rWord (6#4 ++ p) b a 5#3 d 43#7
  | .ldsG a => rWord 0#7 0#5 a 0#3 0#5 91#7
  | .swsG => rWord 1#7 0#5 0#5 0#3 0#5 91#7
  | .mmaG t a b => rWord 2#7 b a 0#3 (0#2 ++ t) 91#7
  | .mwait a => rWord 3#7 0#5 a 0#3 0#5 91#7
  | .mzero t => rWord 4#7 0#5 0#5 0#3 (0#2 ++ t) 91#7
  | .aswap d t b => rWord 5#7 b (0#2 ++ t) 0#3 d 91#7
  | .mrec d t b => rWord 6#7 b (0#2 ++ t) 0#3 d 91#7
  | .mrd d t b => rWord 7#7 b (0#2 ++ t) 0#3 d 91#7
  | .mwr t a b => rWord 8#7 b a 0#3 (0#2 ++ t) 91#7
  | .maddv t a b => rWord 9#7 b a 0#3 (0#2 ++ t) 91#7
  | .mstat d a => rWord 10#7 0#5 a 0#3 d 91#7
  | .ginit d a b => rWord 0#7 b a 1#3 d 91#7
  | .gadd d a b => rWord 1#7 b a 1#3 d 91#7
  | .gaddv d a b => rWord 2#7 b a 1#3 d 91#7
  | .gaband d a => rWord 3#7 0#5 a 1#3 d 91#7
  | .gstat d a => rWord 4#7 0#5 a 1#3 d 91#7
  | .grec d a b => rWord 5#7 b a 1#3 d 91#7
  | .crd d a => rWord 0#7 0#5 a 2#3 d 91#7
  | .cwr d a => rWord 1#7 0#5 a 2#3 d 91#7
  | .cmov d a => rWord 2#7 0#5 a 2#3 d 91#7
  | .cfill d a b => rWord 3#7 b a 2#3 d 91#7
  | .cwait d a => rWord 4#7 0#5 a 2#3 d 91#7
  | .cstat d a => rWord 5#7 0#5 a 2#3 d 91#7
  | .coll d a => rWord 6#7 0#5 a 2#3 d 91#7
  | .lda z s d a => rWord (z ++ s ++ 0#2) 0#5 a 0#3 d 123#7
  | .stl z s a b => rWord (z ++ s ++ 0#2) b a 1#3 0#5 123#7
  | .amoadd z s d a b => rWord (0#4 ++ z ++ s) b a 2#3 d 123#7
  | .amoswap z s d a b => rWord (1#4 ++ z ++ s) b a 2#3 d 123#7
  | .amocas z s d a b => rWord (2#4 ++ z ++ s) b a 2#3 d 123#7
  | .amoand z s d a b => rWord (3#4 ++ z ++ s) b a 2#3 d 123#7
  | .amoor z s d a b => rWord (4#4 ++ z ++ s) b a 2#3 d 123#7
  | .amoxor z s d a b => rWord (5#4 ++ z ++ s) b a 2#3 d 123#7
  | .amomin z s d a b => rWord (6#4 ++ z ++ s) b a 2#3 d 123#7
  | .amomax z s d a b => rWord (7#4 ++ z ++ s) b a 2#3 d 123#7
  | .amominu z s d a b => rWord (8#4 ++ z ++ s) b a 2#3 d 123#7
  | .amomaxu z s d a b => rWord (9#4 ++ z ++ s) b a 2#3 d 123#7
  | .amofadd s d a b => rWord (20#5 ++ s) b a 2#3 d 123#7
  | .redadd z s a b => rWord (0#4 ++ z ++ s) b a 3#3 0#5 123#7
  | .redfadd s a b => rWord (2#5 ++ s) b a 3#3 0#5 123#7
  | .redmax z s a b => rWord (2#4 ++ z ++ s) b a 3#3 0#5 123#7
  | .redmin z s a b => rWord (3#4 ++ z ++ s) b a 3#3 0#5 123#7
  | .lde d a b => rWord 0#7 b a 4#3 d 123#7
  | .ldfW d a => rWord 1#7 0#5 a 4#3 d 123#7
  | .ldfD d a => rWord 2#7 0#5 a 4#3 d 123#7
  | .stfW a b => rWord 3#7 b a 4#3 0#5 123#7
  | .stfD a b => rWord 4#7 b a 4#3 0#5 123#7
  | .sete a b => rWord 5#7 b a 4#3 0#5 123#7
  | .drain d a => rWord 6#7 0#5 a 4#3 d 123#7
  | .fence s => rWord (0#4 ++ s) 0#5 0#5 5#3 0#5 123#7
  | .tfence => rWord 16#7 0#5 0#5 5#3 0#5 123#7
  | .pbar => rWord 32#7 0#5 0#5 5#3 0#5 123#7
  | .pbarw => rWord 48#7 0#5 0#5 5#3 0#5 123#7
  | .launchSubmit => 0
  | .distributorAccept => 0
  | .distributeIdentifier => 0
  | .gangDistribute => 0
  | .launchComplete => 0
  | .launchTagFree => 0
  | .partnew => 0
  | .partdel => 0
  | .leasenew => 0
  | .leasedel => 0
  | .rights => 0
  | .qgrant => 0
  | .qtake => 0
  | .slices => 0
  | .s1root => 0
  | .s2root => 0
  | .budgetAssign => 0
  | .budgetSet => 0
  | .budgetAdd => 0
  | .budgetBind => 0
  | .wdlim => 0
  | .driftlim => 0
  | .fgroup => 0
  | .aperture => 0
  | .vfreset => 0
  | .attest => 0
  | .statewin => 0
  | .evroute => 0
  | .evackResolve => 0
  | .evackKill => 0
  | .windowRegisterWrite => 0
  | .vtbWrite => 0
  | .gtbWrite => 0
  | .cullWrite => 0
  | .cullszWrite => 0
  | .latchRelease => 0
  | .messageArrival => 0
  | .handlerStart => 0
  | .messageAgeing => 0
  | .watchdogExpiry => 0
  | .glimitExpiry => 0
  | .sliceEnd => 0
  | .preemptionSwitch => 0
  | .chargeArrival => 0
  | .noticeDelivery => 0
  | .ldfRetry => 0
  | .slotUnblock => 0
  | .storeBufferDrain => 0
  | .fill => 0
  | .writeback => 0
  | .evict => 0
  | .pageWalk => 0
  | .vectorCommandExecute => 0
  | .copyStart => 0
  | .ecopy => 0
  | .copyComplete => 0
  | .engineHeldDelivery => 0
  | .engineFaultUpcall => 0
  | .collectiveStart => 0
  | .collectiveComplete => 0
  | .collectiveAbort => 0
  | .gangBarrierComplete => 0
  | .gangOperationAccept => 0
  | .passComplete => 0
  | .gatherContribution => 0
  | .gatherInitPerform => 0
  | .gatherAbandonPerform => 0
  | .gatherQueryPerform => 0
  | .ldfHome => 0
  | .stfHome => 0
  | .seteHome => 0
  | .continuationSend => 0
  | .carriedCodeExecute => 0
  | .jdecApply => 0
  | .culletRefill => 0
  | .driftGrant => 0
  | .ddrain => 0
  | .forcedDrain => 0
  | .dieReset => 0
  | .staleResponseDrop => 0
  | .lehrAccept => 0
  | .lehrRetire => 0
  | .pwrfailN => 0
  | .powerLoss => 0
  | .packageReset => 0
  | .leaseReset => 0
  | .uncorrectableError => 0
  | .homeTagParityError => 0
  | .pairLinkFailure => 0
  | .hostLinkDown => 0
  | .fabricPortDown => 0
  | .fabricReplay => 0
  | .fabricAdmission => 0
  | .fabricAck => 0
  | .fabricTimeout => 0
  | .clk => 0
  | .illegalInstruction => 0
  | .clockLowering => 0
  | .correctableError => 0
  | .hostLinkWrite => 0
  | .staleRequestDiscard => 0
  | .migrationEngineCopy => 0

end Sys2Proof
end

