-- ==== Sys2Proof/Config.lean ====
section
/-! DEFINITION. What the part fixes (counts, sizes and windows of the LX8-512) and the free values: what the
spec leaves open, constants without a body, so that no proof can rest on a value of one. -/

namespace Sys2Proof.Config

/-- Cores of the package (R5). -/
def cores : Nat := 4096
/-- Core dies, and home dies (R4). -/
def dies : Nat := 8
/-- Quadrants of the package (R61). -/
def quadrants : Nat := 32
/-- Rows of the package (R5). -/
def rows : Nat := 256
/-- Handler slots of a core (R37). -/
def slots : Nat := 8
/-- Entries of a vector or copy engine's queue (R8). -/
def engineQueue : Nat := 2
/-- Entries of a core's store buffer (R281). -/
def storeBuffer : Nat := 16
/-- Entries of a core's protection lookaside buffer (R183). -/
def plbEntries : Nat := 32
/-- Lines of a row cache of 1 MiB (R9, R134). -/
def rowCacheLines : Nat := 16384
/-- Lines of a die cache of 192 MiB (R10, R134). -/
def dieCacheLines : Nat := 3145728
/-- Lines of a remote-data cache of 32 MiB (R10, R134). -/
def rdcLines : Nat := 524288
/-- Lines of a home cache of 32 MiB (R11, R134). -/
def homeCacheLines : Nat := 524288
/-- Entries of a die translation cache (R178). -/
def dtcEntries : Nat := 4096
/-- Entries of a home's wait table (R317). -/
def waitEntries : Nat := 4096
/-- Delta entries of a die (R338). -/
def deltaEntries : Nat := 8192
/-- Pointer entries of a page-walk unit's walk cache (R178). -/
def walkEntries : Nat := 512
/-- Region trackers of a die (R338). -/
def trackers : Nat := 256
/-- Entries of a core's carried-code queue (R157). -/
def carriedQueue : Nat := 4
/-- Entries of a gang's pass queue (R235). -/
def passQueue : Nat := 4
/-- Entries of the work queue (R95). -/
def workQueue : Nat := 16
/-- Entries of the service queue, and of the runtime queue (R95). -/
def sideQueue : Nat := 8
/-- Headers a function holds for the distributor (R79). -/
def waitingHeaders : Nat := 8
/-- Words a slot may hold fetched ahead (R294). -/
def fetchAhead : Nat := 16
/-- First DVA of the local window (R136). -/
def localBase : Nat := 0x7FFFFFF00000
/-- Backed bytes of the local window (R136). -/
def localBacked : Nat := 0x40000
/-- First protected scratchpad offset (R47). -/
def protectedOff : Nat := 0x3F808
/-- Offset of the scratch map (R48). -/
def scratchMap : Nat := 0x3F800
/-- DVA of the domain rights table (R182). -/
def rightsTable : Nat := 0x7FFFFFC00000
/-- Bytes of the domain rights table (R182). -/
def rightsSize : Nat := 0x100000
/-- The locked value of `gtb` (R363). -/
def gtbLocked : Nat := 0x7FFFFFDFF800
/-- Records a lehr holds, in 64-byte units (R352, R354). -/
def lehrUnits : Nat := 131072
/-- Dunaro ports of the package (R12). -/
def fabricPorts : Nat := 18
/-- CXL ports, each with a lehr (R12). -/
def ports : Nat := 4
/-- The clk of message ageing (R97). -/
def ageClk : Nat := 65536

/-- FREE VALUE (log entry 5): a lane read from a working-bank tile whose BUSY bit is set (R244). -/
opaque freeLane : Nat → Lane
/-- FREE VALUE (log entries 6, 53): which held entry a full lookaside buffer, translation cache or walk cache gives up, and which line a
full row cache, die cache, remote-data cache or home cache does. -/
opaque freeVictim : Nat → Nat
/-- FREE VALUE (log entry 7): where the search for a free launch tag begins (R80 leaves the order open). -/
opaque freeTag : Nat → Nat
/-- FREE VALUES (log entry 9): how a report packs the node, partition and lease of its issuer; the hashes of the verified images, by the
image's place in the order of their verification; the digest of some bytes; the signature of the device identity key over some bytes; and
the Urlys certificate of that key (R405, R406). -/
opaque freeIssuer : Nat → Nat → Nat → BitVec 64
opaque freeImageHash : Nat → BitVec 384
opaque freeDigest : List Byte → BitVec 384
opaque freeSignature : List Byte → BitVec 768
opaque freeCertificate : List Byte
/-- FREE VALUE (log entry 10): byte i of an item of a state-window object whose layout R390 leaves open, as a function of the item's fields. -/
opaque freePack : Nat → Nat → List Nat → Byte
/-- FREE VALUE (log entry 29): bytes recovered on a port whose flush did not complete (R359), and bytes of a dirty line that a home
dropped (R383). -/
opaque freeLost : Nat → Byte
/-- FREE VALUE (log entry 55): whether the fabric port of a message accepts it on its request channel now (R154). -/
opaque freeAccept : Nat → Bool
/-- FREE VALUE (log entry 55): the Dunaro port through which traffic of this device and a node goes, modulo their number (R309). -/
opaque routePort : Nat → Nat
/-- FREE VALUE (log entry 11): x12 of an upcall whose cause has no address. -/
opaque freeFaultWord : Nat → Word

end Sys2Proof.Config
end

