-- ==== Sys2Proof/Machine/Inputs.lean ====
section
/-! DEFINITION. What the outside world hands the machine: host functions, requests that arrive over the fabric,
the plan of a reduction, and the findings of bring-up. Plain data, carried by the event rows of the opcode table. -/

namespace Sys2Proof.Machine

/-- A function on a host link: the physical function of a link, or a virtual function by its 10-bit ID (R59). -/
inductive HostFn where
  | pf (link : Nat)
  | vf (id : Nat)
deriving DecidableEq, Repr

/-- The order in which a collective adds the operands of its ranks (R166 leaves it to the engine; log entry 8). -/
inductive SumTree where
  | rank (r : Nat)
  | join (l r : SumTree)
deriving DecidableEq, Repr

/-- A request that arrives from another device, or from this device's own node (R401, R403). -/
inductive FabricReq where
  /-- A message of SEND, SENDC or a completion: source node and lease, destination core, type, arguments, sender word,
  work identifier and launch tag (R42). -/
  | message (node lease core type : Nat) (args : List Word) (sender wid : Word) (tag : Nat)
  /-- A JDEC: destination core, join offset, amount, sender word, work identifier and launch tag (R42, R328). -/
  | jdec (node lease core off amount : Nat) (sender wid : Word) (tag : Nat)
  /-- A GADD contribution: header DVA here, interval, first tile column, the captured tile of 32 rows (R278). -/
  | contribution (node lease : Nat) (dva : Nat) (a b c0 : Nat) (tile : List Lane)
  /-- Copy bytes for a DVA of the admitted lease, in fill mode where `fill` (R164, R403). -/
  | copyBytes (node lease : Nat) (dva : Nat) (fill : Bool) (bytes : List Byte)
  /-- Copy bytes for the scratchpad of a core of this device (R162, R403). -/
  | peerBytes (node lease core off : Nat) (bytes : List Byte)
  /-- A copy's read of bytes at a DVA of the admitted lease (R163, R403). -/
  | copyRead (node lease dva n : Nat)
  /-- The source bytes of a member of a collective on the node: its lease, the group, and which collective of the group (R166, R308). -/
  | collBytes (node lease group n : Nat) (bytes : List Byte)
deriving DecidableEq, Repr

/-- What the gaffer finds at bring-up (R407): whether each of the three images verifies (R405), the interleaved share in GiB, per-port
far-tier findings, the capacities that each port's expander reports, `none` where the port has none (R398), the node, and whether the root
port completes AtomicOps (R306). -/
structure BringUp where
  verified   : List Bool
  interleave : Nat
  node       : Nat
  pen        : List Bool
  gpf        : List Bool
  clean      : List Bool
  volatile   : List (Option Nat)
  persistent : List (Option Nat)
  atomicOps  : Bool
deriving DecidableEq, Repr

/-- What an uncorrectable error hits (R380, R384). -/
inductive ErrorSite where
  /-- A line of HBM, or its copy in a home cache. -/
  | memLine (pa : Nat)
  | spadWord (lease core off : Nat)
  | deltaEntry (die : Nat) (lease region : Nat)
  /-- Element [row][col] of a tile, in the visible bank or the working bank. -/
  | accWord (lease core : Nat) (visible : Bool) (tile row col : Nat)
  | plane (lease core : Nat) (planeB : Bool)
  /-- The copy of a line of a lease in a die cache, a remote-data cache or a row cache of a core die, its tag included. -/
  | cacheLine (die lease line : Nat)
  /-- Record `i` of a lehr. -/
  | lehrRecord (port i : Nat)
  /-- Entry `i` of a core's store buffer. -/
  | storeEntry (core i : Nat)
  /-- Entry `i` of a queue of a core: inbound 0 to 2 by class, 3 carried code, 4 vector engine, 5 copy engine, 6 upcall reserve. -/
  | queueEntry (core queue i : Nat)
  /-- Entry `i` of a home's wait table. -/
  | waitEntry (home i : Nat)
  /-- Pass `i` of the queue of a gang. -/
  | passEntry (gang i : Nat)
  /-- Request `i` of the queue of a home. -/
  | homeRequest (home i : Nat)
  /-- Command `i` of those in the collective engines. -/
  | collective (i : Nat)
  /-- Header `i` of those that wait in the queue of a window. -/
  | headerEntry (fn : HostFn) (i : Nat)
  /-- Continuation `i` of those that a home has still to send. -/
  | continuation (home i : Nat)
  /-- Command `i` of those that wait for the gaffer. -/
  | gafferCommand (i : Nat)
deriving DecidableEq, Repr

/-- What an event or command row of the opcode table is about: the operands that tell one such step from another. Each
event says in its docstring which of them it reads. -/
structure EventArgs where
  a      : Nat := 0
  b      : Nat := 0
  c      : Nat := 0
  word   : Word := 0
  flag   : Bool := false
  flag2  : Bool := false
  fn     : HostFn := .pf 0
  bytes  : List Byte := []
  nats   : List Nat := []
  bools  : List Bool := []
  order  : SumTree := .rank 0
  found  : Option BringUp := none
  site   : Option ErrorSite := none
  req    : Option FabricReq := none
  fid    : Nat := 0
  finc   : BitVec 3 := 0
  fseq   : Nat := 0
deriving DecidableEq, Repr

end Sys2Proof.Machine
end

