-- ==== Sys2Proof/Machine/Table.lean ====
section
/-! DEFINITION. Sparse tables and the byte memory: plain lists of key and value pairs, keys rising, with one
reading and one writing operation each. -/

namespace Sys2Proof.Machine

/-- The value a table lists for a key. -/
def tabFind {α : Type} : Tab α → Nat → Option α
  | [], _ => none
  | (k, v) :: t, n => if n = k then some v else tabFind t n

/-- The value of a key: what the table lists, else the table's default. -/
def tabGet {α : Type} (dflt : α) (t : Tab α) (n : Nat) : α := (tabFind t n).getD dflt

/-- The table with one key set. -/
def tabPut {α : Type} : Tab α → Nat → α → Tab α
  | [], n, v => [(n, v)]
  | (k, w) :: t, n, v =>
    if n < k then (n, v) :: (k, w) :: t
    else if n = k then (k, v) :: t
    else (k, w) :: tabPut t n v

/-- The table without a key. -/
def tabDel {α : Type} : Tab α → Nat → Tab α
  | [], _ => []
  | (k, w) :: t, n => if n = k then tabDel t n else (k, w) :: tabDel t n

/-- What a byte of memory that nothing has written reads as: HBM is scrubbed to zero at bring-up (R407); the
far tier and host memory read zero too (log entry 4, DESIGN CHOICE). -/
def memDefault : Byte := 0#8

/-- One byte of memory. -/
def memGet (m : List Host.Cell) (a : Nat) : Byte := tabGet memDefault m a

/-- Memory with one byte written, in canonical form: a byte equal to what an unlisted address reads as is not
listed. -/
def memPut : List Host.Cell → Nat → Byte → List Host.Cell
  | [], n, v => if v = memDefault then [] else [(n, v)]
  | (k, w) :: t, n, v =>
    if n < k then (if v = memDefault then (k, w) :: t else (n, v) :: (k, w) :: t)
    else if n = k then (if v = memDefault then t else (k, v) :: t)
    else (k, w) :: memPut t n v

/-- The bytes at `a`, `a + 1`, ... (R18: the byte at the lowest address is the least significant). -/
def memBytes (m : List Host.Cell) (a : Nat) : Nat → List Byte
  | 0 => []
  | n + 1 => memGet m a :: memBytes m (a + 1) n

/-- Memory with bytes written from `a` upward. -/
def memPutBytes (m : List Host.Cell) (a : Nat) : List Byte → List Host.Cell
  | [] => m
  | b :: bs => memPutBytes (memPut m a b) (a + 1) bs

/-- The canonical form of memory: addresses strictly rising, no listed byte equal to the default. -/
def memWf : List Host.Cell → Bool
  | [] => true
  | [(_, v)] => v != memDefault
  | (a, v) :: (b, w) :: t => v != memDefault && decide (a < b) && memWf ((b, w) :: t)

/-- The number that a little-endian list of bytes stands for (R18). -/
def leNat : List Byte → Nat
  | [] => 0
  | b :: bs => b.toNat + 256 * leNat bs

/-- The `n` bytes of a number, little-endian (R18). -/
def leBytes : Nat → Nat → List Byte
  | 0, _ => []
  | n + 1, v => BitVec.ofNat 8 v :: leBytes n (v / 256)

/-- Bits `hi` to `lo` of a number. -/
def bitsOf (v hi lo : Nat) : Nat := (v >>> lo) % 2 ^ (hi + 1 - lo)

/-- A list with one position replaced. -/
def listSet {α : Type} : List α → Nat → α → List α
  | [], _, _ => []
  | _ :: t, 0, v => v :: t
  | a :: t, n + 1, v => a :: listSet t n v

/-- A list without one position. -/
def listDrop {α : Type} : List α → Nat → List α
  | [], _ => []
  | _ :: t, 0 => t
  | a :: t, n + 1 => a :: listDrop t n

/-- The first position whose element satisfies a test. -/
def listIndex {α : Type} (p : α → Bool) : List α → Option Nat
  | [] => none
  | a :: t => if p a then some 0 else (listIndex p t).map (· + 1)

/-- Replace every element that satisfies a test. -/
def listMapIf {α : Type} (p : α → Bool) (f : α → α) (l : List α) : List α := l.map fun a => if p a then f a else a

end Sys2Proof.Machine
end

