-- ==== Sys2Proof/Machine/State.lean ====
section
/-! DEFINITION. The state of the package: cores and slots, what a lease keeps on each core, dies and their held lines,
home requests and wait tables, launches, gangs, quadrants, partitions, leases, accounts, memory, full/empty state,
durable store, host windows, fabric requests; the stops of the machine; and the state after reset. -/

namespace Sys2Proof.Machine

/-- Why the model stops with a fault. No architectural fault of the spec is one: those are NEXT states (R186). -/
inductive Fault where
  /-- An event names a core, die, home, port, link or function that the package does not have (R4 to R12). Safe. -/
  | noSuchUnit (n : Nat)
  /-- An outside party names a physical address that no window holds (R137, R398). Safe. -/
  | noSuchAddress (pa : Nat)
deriving DecidableEq, Repr

/-- Why the model refuses. -/
inductive Refusal where
  /-- The instruction has no meaning in the model yet; raised by `exec` alone. Safe. -/
  | notModelled (mnemonic : String)
deriving DecidableEq, Repr

/-- A fused translation (R178); also what a walk returns. -/
structure Xlat where
  lease : Nat
  /-- Bytes of its page, the smaller of the two leaves (R178). -/
  span : Nat := 4096
  /-- The page of the lease's addresses, counted in pages of `span` bytes. -/
  page : Nat
  pa : Nat
  ra : Nat
  kind : Nat
  region : Nat
  wc1 : Bool
  xc1 : Bool
  lv1 : Nat
  wc2 : Bool
  xc2 : Bool
  lv2 : Nat
  /-- The stage-1 leaf has D = 1. -/
  dirty : Bool
deriving DecidableEq, Repr

/-- Where a checked access goes: the scratchpad of the core, or memory with what its translation gave (R136, R177). -/
inductive Place where
  | spad (off : Nat)
  | mem (dva : Nat) (x : Xlat)
deriving DecidableEq, Repr

/-- What a BLOCKED slot waits for (R98). -/
inductive Wait where
  /-- The condition of this instruction; it completes when the condition clears. -/
  | on (i : Instr)
  /-- An answer for the instruction from a home, the gaffer, the distributor or the fabric; `d` is its destination. -/
  | answer (d : BitVec 5)
  /-- An LDF answer, held by the home's wait table or queue: destination, DVA, size; and the translation that it was checked with, whose
  removal waits for it (R190). -/
  | ldf (d : BitVec 5) (dva n : Nat) (x : Xlat)
  /-- An LDF answered "retry", to be sent again (R148). -/
  | ldfRetry (d : BitVec 5) (dva n : Nat)
  /-- The gaffer's answer to MGMT: destination, and the place of the block, checked for the store of return data before the command is
  performed; blocked clk do not advance `wdc` (R73, R102). -/
  | mgmt (d : BitVec 5) (block : Place)
  /-- LNCH: the distributor's decision on the header that was read at a DVA (R94). -/
  | launch (d : BitVec 5) (hdr : List Byte) (dva : Nat)
  /-- The gang barrier (R237). -/
  | gang
  /-- MWAIT: the passes on the tiles of a mask that were accepted before it issued, numbered below `before` (R250). -/
  | passes (mask : BitVec 8) (before : Nat)
  /-- ASWAP: destination, tile, the register of its operand, and its place among the ASWAPs of its core that wait (R245, R252). -/
  | swap (d : BitVec 5) (tl : BitVec 3) (b : BitVec 5) (no : Nat)
  /-- PLBINV, TLBI1, TLBI2: destination, and the slots, with their generations, whose accesses used what was removed (R184, R190). -/
  | drain (d : BitVec 5) (users : List (Nat × Nat × BitVec 8))
deriving DecidableEq, Repr

/-- Why a slot is PARKED (R98). -/
inductive Park where
  /-- A lease-owned fault delivered as an upcall (R186). -/
  | fault
  /-- TRAP or BKPT, which have completed (R374). -/
  | trap
  /-- A stage-2 fault, answered by the house (R372), with its cause. -/
  | stage2 (cause : Nat)
deriving DecidableEq, Repr

/-- The state of a slot (R98). -/
inductive SlotSt where
  | free
  | ready
  | blocked (w : Wait)
  | parked (p : Park)
deriving DecidableEq, Repr

/-- A fault of a slot's instruction: its cause code (R371), its address and level word (R186) where the spec states
them, its stage, and whether GATE itself raised it (R369). -/
structure FaultInfo where
  cause : Nat
  addr : Option Word := none
  level : Option Word := none
  stage2 : Bool := false
  /-- Whether the access writes, and whether it is a fetch (R186). -/
  write : Bool := false
  fetch : Bool := false
  gate : Bool := false
deriving DecidableEq, Repr

/-- Ways an instruction stops short of completing. -/
inductive Stop where
  /-- A fault of the instruction, delivered under R186, R369 or R372. -/
  | fault (f : FaultInfo)
  /-- The word is illegal (R22, R23). -/
  | illop
  /-- The slot stalls: it stays READY at the same PC and issues again (R98). -/
  | stall
  /-- The slot blocks; its instruction completes later without being issued again (R98). -/
  | block (w : Wait)
  /-- The access consumed poison (R381). -/
  | poison
deriving DecidableEq, Repr

/-- How an instruction that completed leaves the program counter. -/
inductive Flow where
  /-- The next word, after the end check (R109). -/
  | seq
  /-- A taken transfer (R106, R107, R110). -/
  | jump (t : BitVec 48)
  /-- A loop body of no trips, up to and including its last word (R109). -/
  | skip (e : BitVec 48)
  /-- The program counter is already set, with no end check. -/
  | stay
deriving DecidableEq, Repr

/-- A frame pushed by GATE (R365). -/
structure Frame where
  pc : BitVec 48
  x : Tab Word
  dom : BitVec 8
  ff : BitVec 8
  ctype : BitVec 8
  bexp : BitVec 8
  lc : Word × Word
  ls : BitVec 48 × BitVec 48
  le : BitVec 48 × BitVec 48
  loops : BitVec 2
  vec : Bool
  v : Tab VecReg
  p : Tab (BitVec 16)
  q : Tab (List Word)
  remaining : Nat
  own : Bool
  index : Nat
  sbase : Nat
  ssize : Nat
deriving DecidableEq, Repr

/-- A handler slot (R30, R31, R98). -/
structure Slot where
  st : SlotSt
  gen : BitVec 8
  pc : BitVec 48
  x : Tab Word
  v : Tab VecReg
  p : Tab (BitVec 16)
  q : Tab (List Word)
  wid : Word
  lease : Nat
  tag : Nat
  part : Nat
  ss : BitVec 28
  ff : BitVec 8
  phase : BitVec 4
  dom : BitVec 8
  ctype : BitVec 8
  bexp : BitVec 8
  lc : Word × Word
  ls : BitVec 48 × BitVec 48
  le : BitVec 48 × BitVec 48
  wdc : BitVec 32
  hlc : Word
  hrc : Word
  warned : Bool
  epoch : Nat
  frames : List Frame
  ahead : List (BitVec 32)
  account : Nat
  counted : Bool
  /-- Started by a hardware upcall (R41, R89). -/
  upcall : Bool
  gang : Option Nat
  /-- Started by an entry message of the distributor, whose end serial sending waits for (R86). -/
  entryTask : Bool := false
  /-- Frames that a fault has unwound: what an unwound callee asked for is answered to no later one (R369). -/
  unwound : Nat := 0
deriving DecidableEq, Repr

/-- A slot that is FREE after reset. -/
def Slot.init : Slot :=
  { st := .free, gen := 0, pc := 0, x := [], v := [], p := [], q := [], wid := 0, lease := 0, tag := 0, part := 0,
    ss := 0, ff := 0, phase := 0, dom := 0, ctype := 0, bexp := 127#8, lc := (0, 0), ls := (0, 0), le := (0, 0),
    wdc := 0, hlc := 0, hrc := 0, warned := false, epoch := 0, frames := [], ahead := [], account := 0,
    counted := false, upcall := false, gang := none }

/-- Where a request that came over the fabric came from: the source node, its number there, and the incarnation of the die that
sent it, which every response carries back (R310, R311). -/
structure Origin where
  node : Nat
  id : Nat
  inc : BitVec 3
deriving DecidableEq, Repr

/-- A message on its way, queued or in a reserve entry (R42). -/
structure Msg where
  type : Nat
  args : List Word
  sender : Word
  wid : Word
  tag : Nat
  srcLease : Nat
  lease : Nat
  core : Nat
  /-- Counted in the open count of the launch `tag` of the destination lease (R89). -/
  counted : Bool
  /-- An entry message of the distributor: class, priority and initial phase of the header (R46), gang. -/
  entry : Option (Nat × Nat × Nat)
  gang : Option Nat
  /-- A JDEC: offset and amount (R328). -/
  jdec : Option (Nat × Nat)
  prio : Nat
  age : Nat
  aged : Bool
  /-- While on its way: the class of the queue in which its sender found room for it (R154), 3 for the carried-code queue. -/
  room : Option Nat := none
  /-- Of a message that came over the fabric: whom its acceptance is acknowledged to (R310). -/
  origin : Option Origin := none
  /-- Its place in the order of arrival at its core (R377). -/
  stamp : Nat := 0
  /-- Its queue entry holds an error that cannot be corrected (R384). -/
  poison : Bool := false
  /-- Of an upcall in its reserve entry: it has not reached its core, which reads CLASS and PRIO of its type then (R39, R95). -/
  fresh : Bool := false
  /-- Of a message that leaves a core die: the incarnation of the die (R311). -/
  inc : BitVec 3 := 0
deriving DecidableEq, Repr

/-- A command of the vector engine (R214): its instruction, slot, generation, and what it read at issue. -/
structure VecCmd where
  instr : Instr
  slot : Nat
  gen : BitVec 8
  a : Word
  b : Word
  rm : Nat
  pfx : Option (BitVec 12)
  bexp : BitVec 8
  epoch : Nat
  /-- The checked places of a memory form's active lanes (R229). -/
  places : List (Nat × Place)
  /-- Of a load that has begun: the lanes it has read, one move each (R230). -/
  got : List (Nat × Lane) := []
  /-- Its queue entry holds an error that cannot be corrected (R384). -/
  poison : Bool := false
deriving DecidableEq, Repr

/-- A captured copy command (R160, R162). -/
structure CopyCmd where
  id : Nat
  slot : Nat
  gen : BitVec 8
  lease : Nat
  tag : Nat
  account : Nat
  dom : BitVec 8
  depth : Nat
  wid : Word
  epoch : Nat
  /-- Whether its completion message is counted (R89). -/
  member : Bool
  fillPat : Option Word
  coll : Bool
  /-- Of a COLL: which collective of its group it takes part in (R404). -/
  n : Nat
  desc : List Byte
  active : Bool
  done : Nat
  window : Option (Nat × Nat)
  /-- Its queue entry holds an error that cannot be corrected (R384). -/
  poison : Bool := false
deriving DecidableEq, Repr

/-- The virtual channels of a fabric port (R308). -/
inductive VirtChan where
  | request
  | data
  | response
  | control
deriving DecidableEq, Repr

/-- The number of a channel. -/
def VirtChan.code : VirtChan → Nat
  | .request => 0
  | .data => 1
  | .response => 2
  | .control => 3

/-- A request to another device that is not yet acknowledged (R400). -/
structure FabReq where
  id : Nat
  core : Nat
  slot : Nat
  gen : BitVec 8
  lease : Nat
  tag : Nat
  /-- 0 message or JDEC, 1 GADD contribution, 2 copy bytes, 3 a copy's or a collective's read of a source there, 4 a member's source bytes for a
  peer of its collective (R308). -/
  kind : Nat
  counted : Bool
  dest : Nat
  /-- The copy ID of the command whose bytes these are (R162). -/
  copyId : Nat
  d : BitVec 5
  inc : BitVec 3
  type : Nat
  /-- What the request carries: arguments, join offset and amount, interval and elements, or DVA and bytes. -/
  data : List Word
  /-- Clk since it left (R400). -/
  age : Nat := 0
  /-- Its sender word and its work identifier, which a message takes with it (R42, R45). -/
  sender : Word := 0
  wid : Word := 0
  /-- Its channel (R308), and its place in the order of that channel to its node (R309). -/
  vc : VirtChan := .request
  seq : Nat := 0
  /-- Of a contribution to this device's own node: it does not leave the package (R401). -/
  there : Bool := false
  /-- The slot's count of unwound frames when it asked (R369). -/
  unwound : Nat := 0
  /-- Of copy bytes: the address of the copy's lease that they are for, or come from (R373). -/
  addr : Word := 0
deriving DecidableEq, Repr

/-- What an engine holds until it can deliver it (R95, R116, R164, R373). A token: `depth` is the gate depth whose q registers it is for, `inc` the
incarnation of the die that its command came from (R311). A completion message, as its status was last decided, with what decides it again when it
is sent (R164): the issuing lease, whether the task of its command is counted, and TARGET. `away` is one for another device, which waits for
the room of its port. -/
inductive Held where
  | token (core slot : Nat) (gen : BitVec 8) (depth q : Nat) (v : Word) (lease : Nat) (inc : BitVec 3)
  | message (m : Msg) (lease : Nat) (member : Bool) (target : Word)
  | upcall (slot : Nat) (m : Msg)
  | away (r : FabReq)
deriving DecidableEq, Repr

/-- What a store-buffer entry does when it drains (R281, R284). -/
inductive SbOp where
  | store (bytes : List Byte)
  | red (op size scope : Nat) (val : Word)
deriving DecidableEq, Repr

/-- A store-buffer entry: its slot and task, lease, DVA, translation held since its checks, and operation. -/
structure SbEntry where
  slot : Nat
  gen : BitVec 8
  lease : Nat
  tag : Nat
  dva : Nat
  x : Xlat
  epoch : Nat
  /-- The work of the vector engine, which `hlc` and `hrc` leave out (R141; log entry 19). -/
  eng : Bool
  op : SbOp
  /-- It holds an error that cannot be corrected, and carries poison where it drains to (R380, R384). -/
  poison : Bool := false
deriving DecidableEq, Repr

/-- A PLB entry (R183). -/
structure PlbEntry where
  lease : Nat
  dom : Nat
  seg : Nat
  r : Bool
  w : Bool
  x : Bool
  g : Bool
deriving DecidableEq, Repr

/-- A core (R7). -/
structure Core where
  slots : Tab Slot
  /-- Inbound queues by class (R95). -/
  inbound : Tab (List Msg)
  /-- Messages sent to the core that have not arrived (R39). -/
  transit : List Msg
  /-- Upcall reserve: key 0 to 7 for 0xF1 of a slot, 8 to 15 for 0xF2, 16 for 0xF3, 17 for 0xF5 (R95). -/
  reserve : Tab Msg
  carried : List Msg
  vecq : List VecCmd
  copyq : List CopyCmd
  held : List Held
  heldUp : List Held
  sb : List SbEntry
  plb : List PlbEntry
  cyc : Word
  /-- Running slot of an issue level, key class * 4 + priority: `2 * slot` running, `2 * slot + 1` the next after slot. -/
  run : Tab Nat
  /-- Whether the previous start of a class came from the ready ring (R96); absent: no previous start. -/
  last : Tab Bool
  /-- Clk, the one of issue among them, that a JALR, carried code or throttling holds the issue port (R69, R104, R157). -/
  busy : Nat
  /-- Of those, the clk that carried code and JDECs take, which their own account is charged for (R157, R328). -/
  carriedClk : Nat
  /-- Set when a register of the core issued in this clk: the slot (R68, R91). -/
  issued : Option Nat
  /-- Messages that have arrived, in whose order pre-emption spills them (R377). -/
  arrivals : Nat := 0
  /-- The `phase` that the issuing slot had before its instruction, in which its clk counts (R91, R118). -/
  issuedPhase : Nat := 0
  /-- Issue clk that a JALR still takes, the one of its issue among them, and its slot (R104). -/
  jalrClk : Nat := 0
  jalrSlot : Nat := 0
  /-- The instruction of this clk's slot stalled: the core issues nothing in it (R98). -/
  stalled : Bool := false
  /-- By account: the clk for which a throttled account's slots do not issue (R69). -/
  slow : Tab Nat := []
deriving DecidableEq, Repr

/-- A core after reset. -/
def Core.init : Core :=
  { slots := [], inbound := [], transit := [], reserve := [], carried := [], vecq := [], copyq := [], held := [], heldUp := [],
    sb := [], plb := [], cyc := 0, run := [], last := [], busy := 0, carriedClk := 0, issued := none }

/-- A stationary plane (R233): elements by column and k, downshift and NaN mark by column and block. -/
structure Plane where
  bi4 : Bool
  elems : Tab Int
  shifts : Tab Nat
  nans : Tab Bool
  t : Nat
deriving DecidableEq, Repr

def Plane.init : Plane := { bi4 := false, elems := [], shifts := [], nans := [], t := 0 }

/-- What the core keeps of a message whose record stands in a ring or in the spill latch, beside the record (R42, R44, R89): the sending
lease, and whether the message is counted in its launch. -/
structure RecFact where
  srcLease : Nat
  counted : Bool
  /-- The sender word: what its slot sends later does not arrive before it (R155). -/
  sender : Word := 0
deriving DecidableEq, Repr

/-- What a lease keeps on one core (R31, R48, R331, R378): scratchpad, lease CSRs, copy IDs, matrix image. -/
structure LCore where
  spad : Tab Byte
  spadPoison : List Nat
  vtb : Word
  ten : Tab Word
  vcache : Tab (List Byte)
  gtb : Word
  cull : Word
  cullsz : Nat
  latch : BitVec 16
  latched : Option (List Byte)
  refillStop : Bool
  pushes : List (List Byte)
  /-- Messages that found the spill latch held at pre-emption (R333). -/
  saved : List Msg
  fca : BitVec 16
  fad : Word
  fsl : BitVec 16
  mst : BitVec 16
  skb : BitVec 24
  /-- Copy IDs given out since the lease's creation (R162). -/
  copyId : Nat
  copySt : Tab Nat
  work : Tab Lane
  vis : Tab Lane
  /-- Records: key tile + 8 * bank, fragments [s, e) ascending (R242). -/
  recs : Tab (List (Nat × Nat))
  planeA : Plane
  planeB : Plane
  activeB : Bool
  changed : Bool
  /-- Of each message record of the ready ring, oldest first, and of the cullet ring with the spill latch after it: what the record does
  not say (R42, R44, R89). -/
  readyFacts : List RecFact := []
  culletFacts : List RecFact := []
  /-- The DVA of the entry at which the record in the spill latch failed (R333). -/
  latchDva : Nat := 0
  /-- Poisoned words of the accumulators: 16,384 for the visible bank, and the element's key (R384). -/
  accPoison : List Nat := []
  /-- Poisoned planes: true is plane B (R384). -/
  planePoison : List Bool := []
  /-- The vector-table entry of the ready ring's head record, read when the record became the head (R96). -/
  headEntry : Option (List Byte) := none
deriving DecidableEq, Repr

/-- A line held on a core die with its hidden state (R177); a remote copy has its bytes and dirty mask (R300). -/
structure Line where
  x : Xlat
  line : Nat
  remote : Bool
  bytes : List Byte
  dirty : BitVec 16
  poison : Bool
  /-- Rows of the die (0 to 31) whose row cache holds the line as well (R9, R134). -/
  rows : List Nat := []
deriving DecidableEq, Repr

/-- A delta entry (R338). -/
structure Delta where
  lease : Nat
  region : Nat
  pa : Nat
  val : Lane
deriving DecidableEq, Repr

/-- A region tracker (R338). -/
structure Tracker where
  lease : Nat
  region : Nat
  mag : Lane
  share : Lane
deriving DecidableEq, Repr

/-- A core die (R10). -/
structure Die where
  lines : List Line
  dtc : List Xlat
  deltas : List Delta
  trackers : List Tracker
  inc : BitVec 3
  staleResp : Nat
deriving DecidableEq, Repr

def Die.init : Die := { lines := [], dtc := [], deltas := [], trackers := [], inc := 0, staleResp := 0 }

/-- Who an answer of a home goes to (R167). -/
structure Asker where
  core : Nat
  slot : Nat
  gen : BitVec 8
  lease : Nat
  inc : BitVec 3
  d : BitVec 5
  /-- The slot's count of unwound frames when it asked (R369). -/
  unwound : Nat := 0
deriving DecidableEq, Repr

/-- A contribution or query for a gather engine (R256). -/
inductive GatherOp where
  | contribute (gadd : Bool) (a b c0 : Nat) (data : List Lane)
  | init (shape : Nat)
  | abandon
  | stat
  | record (j : Nat)
  /-- A contribution or GABAND that was under way when the reset of the gather's lease released its frame (R279, R379). -/
  | gone
deriving DecidableEq, Repr

/-- A request waiting at a home, in arrival order (R151, R256). -/
inductive HomeReq where
  /-- The launch tag and the work identifier of the asking task go into a wait-table entry (R317). -/
  | ldf (who : Asker) (pa dva n tag : Nat) (wid : Word)
  | stf (who : Asker) (pa dva n : Nat) (v : Word)
  | sete (who : Asker) (pa dva count : Nat)
  | gather (who : Asker) (pa : Nat) (op : GatherOp)
  /-- A contribution that came over the fabric: its origin, the admitted lease, the header PA. -/
  | remoteGather (from_ : Origin) (lease pa : Nat) (op : GatherOp)
  /-- A request whose queue entry holds an error that cannot be corrected (R384). -/
  | bad (r : HomeReq)
deriving DecidableEq, Repr

/-- A wait-table entry (R317). -/
structure WaitEntry where
  isLdf : Bool
  pa : Nat
  lease : Nat
  tag : Nat
  type : Nat
  sid : BitVec 16
  core : Nat
  arg0 : Word
  arg1 : Word
  wid : Word
  counted : Bool
  d : BitVec 5
  n : Nat
  dva : Nat
  inc : BitVec 3
  unwound : Nat := 0
  /-- It holds an error that cannot be corrected (R384). -/
  poison : Bool := false
deriving DecidableEq, Repr

/-- A pointer entry in the walk cache of a page-walk unit (R178): its stage, its lease (stage 1) or partition (stage 2), its level,
the part of the address above what it covers, where the table holds it (an RA in stage 1, a PA in stage 2), and its value. -/
structure Pointer where
  second : Bool
  owner : Nat
  level : Nat
  upper : Nat
  place : Nat
  entry : Nat
  /-- Of a stage-1 pointer: the bytes of the stage-2 leaf through which its place was reached (R191). -/
  via : Nat := 4096
deriving DecidableEq, Repr

/-- A home die (R11). -/
structure Home where
  reqs : List HomeReq
  waits : List WaitEntry
  /-- Continuations the home has still to send (R320). -/
  outbox : List Msg
  /-- Completions that the home die's collective engine holds (R95). -/
  held : List Held
  staleReq : Nat
  /-- The walk cache of its page-walk unit (R178). -/
  walks : List Pointer
  /-- The home cache: the lines it holds by PA / 64, each with whether it is dirty (R11, R134). -/
  cache : List (Nat × Bool) := []
deriving DecidableEq, Repr

def Home.init : Home := { reqs := [], waits := [], outbox := [], held := [], staleReq := 0, walks := [], cache := [] }

/-- A notice on its way to a slot (R167): an LDF answer, a gather answer; `retry` for LDF; `acq` when an acquire at
pkg scope follows; `ab` when abandoned data was returned. -/
structure Notice where
  who : Asker
  val : Word
  ab : Bool
  acq : Bool
  retry : Bool
deriving DecidableEq, Repr

/-- An accepted pass (R249): its tile, operand rows, interval, format and address, and the members' cores whose plane B
was active when it was accepted (R248). -/
structure Pass where
  tile : Nat
  m : Nat
  k0 : Nat
  bi4 : Bool
  addr : Nat
  planeB : List Nat
  /-- Its place among all the passes that the package has accepted (R250). -/
  no : Nat := 0
  /-- Its queue entry holds an error that cannot be corrected (R384). -/
  poison : Bool := false
deriving DecidableEq, Repr

/-- What a gang member brought to the barrier (R237): its instruction, prefix, operands, and a failed check. -/
structure Entrant where
  core : Nat
  slot : Nat
  instr : Instr
  pfx : Option (BitVec 12)
  a : Word
  b : Word
  failed : Option FaultInfo
  gen : BitVec 8 := 0
  /-- The slot's count of unwound frames when it entered (R369). -/
  unwound : Nat := 0
deriving DecidableEq, Repr

/-- A gang (R236): lease, rows, members (core and slot), those in the barrier, whether an operation is agreed and not accepted, what its
members brought to it (R237), passes. -/
structure Gang where
  lease : Nat
  tag : Nat
  rows : List Nat
  live : List (Nat × Nat)
  size : Nat
  entered : List Entrant
  agreed : Bool
  op : List Entrant := []
  passes : List Pass
  /-- Of an operation that is agreed: its place among those that wait to be accepted, in the order in which their barriers completed (R239, R245). -/
  turn : Nat := 0
deriving DecidableEq, Repr

/-- A quadrant (R61 to R64). -/
structure Quad where
  owner : Option Nat
  holder : Option Nat
  sched : List (Nat × Nat)
  next : Option (List (Nat × Nat))
  idx : Nat
  clk : Nat
  preempt : Bool
  /-- The house takes the quadrant back once pre-emption is done (R65). -/
  taking : Bool
  /-- The accounts for whose exhaustion the quadrant is throttled (R69). -/
  throttled : List Nat
deriving DecidableEq, Repr

/-- A partition (R54 to R58). -/
structure Partn where
  mask : BitVec 16
  vf : Nat
  control : Nat
  s2root : Nat
  target : Option (Bool × Nat × Nat × Nat)
  groups : Tab (Nat × Tab (Nat × Nat))
deriving DecidableEq, Repr

/-- A drift region entry (R336). -/
structure Region where
  l : Lane
  u : Lane
  loss : Lane
  pend : Bool
  share : Tab Lane
  grants : Nat
  self : Nat
  forced : Nat
  drains : Nat
deriving DecidableEq, Repr

def Region.init : Region :=
  { l := 0, u := 0, loss := 0, pend := false, share := [], grants := 0, self := 0, forced := 0, drains := 0 }

/-- A lease (R54, R76, R169, R390). -/
structure Lease where
  part : Nat
  mask : BitVec 16
  /-- Its VF (R59): a control lease has none of its own. -/
  vf : Option Nat
  account : Nat
  s1root : Nat
  w3 : Word
  ten0 : List Word
  wdl : BitVec 32
  apertures : Tab (Bool × Nat × Nat)
  regions : Tab Region
  target : Option (Bool × Nat × Nat × Nat)
  dropped : Nat
  stale : Nat
  lost : Nat
  carriedRefused : Nat
  /-- Events kept with the saved state of a quadrant (R417). -/
  kept : Tab Msg
  /-- Frames the gaffer's frame table lists for the lease (R379). -/
  frames : List Nat
  /-- How many COLLs the lease has issued on each group (R404). -/
  collN : Tab Nat
deriving DecidableEq, Repr

/-- A live launch (R89, R90). -/
structure Launch where
  lease : Nat
  fn : Option HostFn
  hdr : List Byte
  /-- Where LNCH read the header (R94); 0 for a header submitted through a window. -/
  hdrDva : Nat
  account : Nat
  open_ : Int
  /-- Serial groups begun, in enumeration order; an identifier outside every SEQ field is a group of its own (R86). -/
  next : Nat
  sent : Nat
  /-- Serial groups (R86): group, core, whether its task is live, the work identifier last sent, its index. -/
  groups : Tab (Nat × Bool × Nat × Nat)
  rows : List Nat
  completed : Bool
  /-- Dies on which a counted task of the launch has started, beside those of `rows`: the release of R387 is made on them too. -/
  dies : List Nat := []
deriving DecidableEq, Repr

/-- An account (R66). -/
structure Account where
  balance : Int
  part : Nat
  lease : Nat
  en : Bool
  /-- EXH: BALANCE is at or below 0, as the last charge or BUDGET command that moved it left it; 0 at reset (R66, R69). -/
  exh : Bool := false
deriving DecidableEq, Repr

/-- A collective in its engine (R166). -/
structure Coll where
  core : Nat
  cmd : CopyCmd
  /-- Clk since it was handed over, with no progress (R404). -/
  age : Nat := 0
  /-- Its result is written; what it wrote on other devices is not yet acknowledged (R164, R310). -/
  written : Bool := false
  /-- Its source bytes, where they have been sent to members on other devices (R308). -/
  given : Option (List Byte) := none
  /-- The incarnation of the member's die when its command left for the home die (R311). -/
  inc : BitVec 3 := 0
deriving DecidableEq, Repr

/-- The source bytes of a collective's member on another device, which have arrived (R166, R308). -/
structure PeerBytes where
  node : Nat
  lease : Nat
  group : Nat
  n : Nat
  /-- The lease of this device that they are admitted to (R403). -/
  holder : Nat
  bytes : List Byte
  /-- Whom their acknowledgement goes to, when what is made of them is performed at its home (R310). -/
  origin : Origin
  /-- What is made of them is written: whether a part of it failed. Their acknowledgement waits for what was written on other devices (R310). -/
  made : Option Bool := none
deriving DecidableEq, Repr

/-- A host function's window and waiting headers (R78, R79, R394). -/
structure Window where
  cmd : List Byte
  busy : Bool
  cstat : Nat
  irq : Nat
  refused : Nat
  headers : List (List Byte)
  /-- The places of waiting headers whose queue entry holds an error that cannot be corrected (R384). -/
  badHeaders : List Nat := []
  /-- Virtual function bound to: partition (true) or lease (false) and its ID. -/
  bound : Option (Bool × Nat)
deriving DecidableEq, Repr

def Window.init : Window :=
  { cmd := List.replicate 64 0#8, busy := false, cstat := 0, irq := 0, refused := 0, headers := [], bound := none }

/-- A command waiting for the gaffer (R73, R395): issuer level, partition and lease, the block, who waits. -/
structure GafferCmd where
  level : Nat
  part : Nat
  lease : Nat
  blk : List Byte
  fn : Option HostFn
  who : Option (Nat × Nat)
  /-- Of MGMT: the die that asked, and its incarnation (R311). -/
  asked : Option (Nat × BitVec 3) := none
  /-- Its queue entry holds an error that cannot be corrected (R384). -/
  poison : Bool := false
deriving DecidableEq, Repr

/-- Frames of a reset lease that are unreachable and wait to be scrubbed (R192): for the accesses, by core, slot and generation, that used
translations removed with them (R190); and the command that answers then. -/
structure Release where
  frames : List Nat
  users : List (Nat × Nat × BitVec 8)
  cmd : Option GafferCmd := none
deriving DecidableEq, Repr

/-- A record of an event for the house or a partition (R70 to R72): who, code, and details. -/
structure LogEntry where
  part : Nat
  code : Nat
  a : Nat
  b : Nat
  c : Nat
  d : Nat
deriving DecidableEq, Repr

/-- A persist record (R357). -/
structure Record where
  core : Nat
  slot : Nat
  gen : BitVec 8
  epoch : Nat
  pa : Nat
  bytes : List Byte
  accepted : Bool
  /-- It holds an error that cannot be corrected, and carries poison to the durable store (R380, R384). -/
  poison : Bool := false
deriving DecidableEq, Repr

/-- What leaves over the fabric and is not itself acknowledged (R308): a response, on its channel, to the request `id` of a node
(an acknowledgement, a GADD status, the completion of copy bytes, or a refusal with its cause), carrying the request's incarnation back
(R311); on the control channel, a collective's ABORT to a member: the group and the collective's number in it (R166, R404). -/
structure FabOut where
  vc : VirtChan
  node : Nat
  id : Nat
  inc : BitVec 3
  status : Nat
  refused : Bool := false
  /-- Of a response to a copy's read: the bytes, on the data channel. -/
  bytes : List Byte := []
  /-- Its place in the order of its channel to its node (R309). -/
  seq : Nat := 0
  /-- Of a replay request or a link credit: the port whose link it crosses, and no further (R308, R309). -/
  link : Option Nat := none
  /-- It is a link credit: it returns the room of one flit of the channel `status` (R308, R399). -/
  credit : Bool := false
deriving DecidableEq, Repr

/-- A chosen next move of the machine (log entry 2). -/
inductive Move where
  /-- A core issues one instruction (R99). -/
  | issue (core : Nat)
  /-- A slot fetches one word ahead (R294). -/
  | prefetch (core slot : Nat)
  /-- An event or command row of the opcode table. -/
  | event (i : Instr) (args : EventArgs)
deriving DecidableEq, Repr

/-- The state of the whole package. -/
structure State where
  cores : Tab Core
  lcores : Tab LCore
  dies : Tab Die
  homes : Tab Home
  rows : Tab (Tab Nat)
  gangs : Tab Gang
  /-- Passes accepted so far (R250). -/
  passNo : Nat
  quads : Tab Quad
  parts : Tab Partn
  leases : Tab Lease
  accounts : Tab Account
  /-- Charges incurred and not yet at their account (R69). -/
  pending : Tab Nat
  /-- By account with such charges: clk since the oldest of them (R69). -/
  pendAge : Tab Nat
  launches : Tab Launch
  windows : Tab Window
  gaffer : List GafferCmd
  /-- Releases of frames under way (R192). -/
  releasing : List Release
  log : List LogEntry
  houseTarget : Option (Bool × Nat × Nat × Nat)
  msix : List (Nat × Nat)
  notices : List Notice
  colls : List Coll
  /-- Source bytes of collectives that have arrived from other devices (R308). -/
  peerBytes : List PeerBytes
  mem : List Host.Cell
  /-- Full/empty state of 8-byte words by PA / 8: 0 EMPTY, 1 FULL, 2 ABANDONED; unlisted FULL (R142). -/
  fe : Tab Nat
  /-- Poisoned lines by PA / 64 (R380). -/
  poison : List Nat
  /-- Lease of a gather by header PA, and whether it answers LEASE (R279). -/
  gathers : Tab (Nat × Bool)
  lehrs : Tab (List Record)
  durable : Tab Byte
  /-- Lines of the durable store, by PA / 64, to which a poisoned record retired (R380, R384). -/
  durPoison : List Nat
  lehrFlags : Tab Nat
  pwrfail : Bool
  fabric : List FabReq
  fabNext : Nat
  /-- Responses and control traffic that leave for other devices, oldest first (R308). -/
  fabOut : List FabOut
  /-- The next sequence number of a channel to a node, and from a node (R309, R399): key node * 4 + channel. -/
  fabSent : Tab Nat
  fabSeq : Tab Nat
  /-- Replays of one flit that have failed in a row (R399): key (port * 4 + channel) * 65536 + the flit's sequence number. -/
  replays : Tab Nat
  portsDown : List Nat
  linksDown : List Nat
  corrected : Tab Nat
  interleave : Nat
  volatileSize : Nat
  persistSize : Nat
  node : Nat
  atomicOps : Bool
  up : Bool
  clockLowered : Bool
  robin : Nat
  /-- MODEL'S OWN (log entry 2): moves chosen to come next, the issuing core and slot, and the core in focus. -/
  agenda : List Move
  /-- MODEL'S OWN (log entry 2): the operands of the event or command whose turn it is. -/
  ev : EventArgs
  core : Nat
  slot : Nat
  /-- MODEL'S OWN (log entry 2): moves that the machine has chosen for itself. -/
  turn : Nat
  /-- MODEL'S OWN (log entry 5): how many free values have been taken. -/
  free : Nat
deriving DecidableEq, Repr

/-- A lease's state on a core when nothing has changed it since the lease's creation (R31, R76, R241). -/
def LCore.fresh (vtb : Word) (ten : List Word) : LCore :=
  { spad := [], spadPoison := [], vtb := vtb, ten := (List.range 4).zip ten, vcache := [],
    gtb := 0, cull := 0, cullsz := 0, latch := 0, latched := none,
    refillStop := false, pushes := [], saved := [], fca := 0, fad := 0, fsl := 0, mst := 0, skb := 0, copyId := 0, copySt := [], work := [],
    vis := [], recs := [], planeA := Plane.init, planeB := Plane.init, activeB := false, changed := false }

/-- A quadrant after reset: held by lease 0, with a schedule of the one entry lease 0 (R407; log entry 3). -/
def Quad.init : Quad :=
  { owner := some 0, holder := some 0, sched := [(0, 1)], next := none, idx := 0, clk := 0, preempt := false,
    taking := false, throttled := [] }

/-- The house's lease 0 after reset (R56, R407; log entry 3). -/
def Lease.house : Lease :=
  { part := 0, mask := 0x0FFF#16, vf := none, account := 0, s1root := 0, w3 := 0, ten0 := [0, 0, 0, 0],
    wdl := 0xFFFFFFFF#32, apertures := [], regions := [], target := none, dropped := 0, stale := 0, lost := 0, carriedRefused := 0,
    kept := [], frames := [], collN := [] }

/-- An account after reset (R66). -/
def Account.init : Account := { balance := 0, part := 0, lease := 0, en := false }

/-- The house's own partition, ID 0 (R54, R56). -/
def Partn.house : Partn := { mask := 0x0FFF#16, vf := 0, control := 0, s2root := 0, target := none, groups := [] }

/-- The machine right after package reset, with bring-up complete and lease 0 only (R407). -/
def State.reset : State :=
  { cores := [], lcores := [], dies := [], homes := [], rows := [], gangs := [], passNo := 0, quads := [], parts := [],
    leases := [(0, Lease.house)], accounts := [], pending := [], pendAge := [], launches := [], windows := [], gaffer := [], releasing := [], log := [],
    houseTarget := none, msix := [], notices := [], colls := [], peerBytes := [], mem := [], fe := [], poison := [], gathers := [],
    lehrs := [], durable := [], durPoison := [], lehrFlags := [], pwrfail := false, fabric := [], fabNext := 0, fabOut := [], fabSent := [], fabSeq := [], replays := [],
    portsDown := [], linksDown := [],
    corrected := [], interleave := 64, volatileSize := 0, persistSize := 0, node := 0,
    atomicOps := true, up := true, clockLowered := false, robin := 0, agenda := [], ev := {}, core := 0, slot := 0, turn := 0, free := 0 }

end Sys2Proof.Machine
end

