-- ==== Sys2Proof/Machine/Flags.lean ====
section
/-! DEFINITION. The flags of `ff` (R32, R127) and the rounding a form takes (R25, R125). -/

namespace Sys2Proof.Machine

/-- The sticky flags, `ff` [4:0]: NV, DZ, OF, UF, NX. -/
abbrev FpFlags := BitVec 5

def flagNV : FpFlags := 16#5
def flagDZ : FpFlags := 8#5
def flagOF : FpFlags := 4#5
def flagUF : FpFlags := 2#5
def flagNX : FpFlags := 1#5

/-- A flag when a condition holds. -/
def flagIf (c : Bool) (f : FpFlags) : FpFlags := if c then f else 0#5

/-- `ff` with flags ORed in; the rounding field stays (R127). -/
def ffRaise (ff : BitVec 8) (f : FpFlags) : BitVec 8 := ff ||| f.zeroExtend 8

/-- `ff.RM` (R32): 0 RNE, 1 RTZ, 2 RDN, 3 RUP. -/
def ffRm (ff : BitVec 8) : Nat := (ff.extractLsb' 5 3).toNat

/-- What a CSR write leaves in `ff`: a written RM of 4 to 7 stores 0 (R32). -/
def ffWrite (v : Word) : BitVec 8 :=
  let w := v.setWidth 8
  if w.extractLsb' 7 1 = 1#1 then w &&& 0x1F#8 else w

/-- The rounding of a scalar form: its rm field, or `ff.RM` when that is 111 (R25, R125). -/
def roundingOf (m : BitVec 3) (ff : BitVec 8) : Nat := if m = 7#3 then ffRm ff else m.toNat

end Sys2Proof.Machine
end

