-- ==== Sys2Proof/Machine/Fp.lean ====
section
/-! DEFINITION. Exact arithmetic and the one rounding (R124 to R133, R193 to R195, R200, R201). A finite value is kept
as sign, magnitude and power of two, computed exactly in `Nat` and `Int`, and rounded once. -/

namespace Sys2Proof.Machine

/-- What an FP32 word stands for (R193). -/
inductive FpVal where
  | nan
  | inf (neg : Bool)
  /-- (-1)^neg × m × 2^e; `m = 0` is a signed zero. -/
  | fin (neg : Bool) (m : Nat) (e : Int)
deriving DecidableEq, Repr

/-- The canonical NaN (R126). -/
def canonNaN : Lane := 0x7FC00000#32

def fpSign (w : Lane) : Bool := w.getLsbD 31
def fpExp (w : Lane) : Nat := (w.extractLsb' 23 8).toNat
def fpFrac (w : Lane) : Nat := (w.extractLsb' 0 23).toNat
def fpIsNaN (w : Lane) : Bool := decide (fpExp w = 255) && decide (fpFrac w ≠ 0)
def fpIsInf (w : Lane) : Bool := decide (fpExp w = 255) && decide (fpFrac w = 0)

/-- The value of an FP32 word. -/
def fpVal (w : Lane) : FpVal :=
  if fpExp w = 255 then (if fpFrac w = 0 then .inf (fpSign w) else .nan)
  else if fpExp w = 0 then .fin (fpSign w) (fpFrac w) (-149)
  else .fin (fpSign w) (fpFrac w + 2 ^ 23) ((fpExp w : Int) - 150)

/-- The word of a sign and a magnitude of bits [30:0]. -/
def fpPack (neg : Bool) (mag : Nat) : Lane := BitVec.ofNat 32 (mag + if neg then 2 ^ 31 else 0)

def fpInf (neg : Bool) : Lane := fpPack neg 0x7F800000
def fpZero (neg : Bool) : Lane := fpPack neg 0

/-- Whether a value cut off below the unit place goes up, by mode (R125): `odd` is the kept unit's parity. -/
def roundsUp (rm : Nat) (neg odd : Bool) (rest half : Nat) : Bool :=
  match rm with
  | 0 => decide (half < rest) || (decide (rest = half) && odd)
  | 1 => false
  | 2 => neg && decide (0 < rest)
  | _ => !neg && decide (0 < rest)

/-- `m × 2^e` as a whole number of units `2^q`, and whether it is inexact. -/
def toUnits (rm : Nat) (neg : Bool) (m : Nat) (e q : Int) : Nat × Bool :=
  if q ≤ e then (m * 2 ^ (e - q).toNat, false)
  else
    let k := (q - e).toNat
    let n := m / 2 ^ k
    let r := m % 2 ^ k
    (n + (if roundsUp rm neg (n % 2 = 1) (2 * r) (2 ^ k) then 1 else 0), decide (r ≠ 0))

/-- The magnitude delivered on overflow: infinity (`none`) or the largest finite value (R128). -/
def overflowToInf (rm : Nat) (neg : Bool) : Bool :=
  match rm with
  | 0 => true
  | 1 => false
  | 2 => neg
  | _ => !neg

/-- The magnitude bits and the flags of a non-zero exact value rounded to `prec` bits over the exponents of FP32:
FP32 has 24 bits, H16 has 8 (R125, R127, R195). -/
def roundMag (prec rm : Nat) (neg : Bool) (m : Nat) (e : Int) : Nat × FpFlags :=
  let len : Int := (Nat.log2 m : Int) + 1
  let qmin : Int := -125 - (prec : Int)
  let qFree := e + len - prec
  let q := if qFree < qmin then qmin else qFree
  let (n0, inexact) := toUnits rm neg m e q
  let (n, q) := if n0 = 2 ^ prec then (2 ^ (prec - 1), q + 1) else (n0, q)
  let (nf, _) := toUnits rm neg m e qFree
  let tiny := decide (qFree + (Nat.log2 nf : Int) < -126)
  let top : Nat := 255 * 2 ^ (prec - 1)
  if 127 < q + (prec : Int) - 1 then
    ((if overflowToInf rm neg then top else top - 1), flagOF ||| flagNX)
  else
    ((q - qmin).toNat * 2 ^ (prec - 1) + n, flagIf inexact flagNX ||| flagIf (inexact && tiny) flagUF)

/-- An exact value rounded to FP32 once. -/
def roundFp (rm : Nat) (neg : Bool) (m : Nat) (e : Int) : Lane × FpFlags :=
  if m = 0 then (fpZero neg, 0#5)
  else
    let (b, f) := roundMag 24 rm neg m e
    (fpPack neg b, f)

/-- A signed integer multiple of 2^e rounded to FP32; an exact zero is −0 under RDN and +0 otherwise (R128). -/
def roundInt (rm : Nat) (n e : Int) : Lane × FpFlags :=
  if n = 0 then (fpZero (rm = 2), 0#5) else roundFp rm (n < 0) n.natAbs e

/-- The signed integer that `(neg, m, e)` is in units of 2^q, for q at most e. -/
def scaledInt (neg : Bool) (m : Nat) (e q : Int) : Int :=
  let v : Int := (m * 2 ^ (e - q).toNat : Nat)
  if neg then -v else v

/-- Addition (R128), NV on ∞ − ∞ (R127). -/
def fpAdd (rm : Nat) (a b : Lane) : Lane × FpFlags :=
  match fpVal a, fpVal b with
  | .nan, _ => (canonNaN, 0)
  | _, .nan => (canonNaN, 0)
  | .inf s, .inf t => if s = t then (fpInf s, 0) else (canonNaN, flagNV)
  | .inf s, _ => (fpInf s, 0)
  | _, .inf t => (fpInf t, 0)
  | .fin s m e, .fin t n f =>
    if m = 0 ∧ n = 0 ∧ s = t then (fpZero s, 0)
    else
      let q := if e < f then e else f
      roundInt rm (scaledInt s m e q + scaledInt t n f q) q

def fpNeg (a : Lane) : Lane := a ^^^ 0x80000000#32

/-- Subtraction (R128); a NaN stays a NaN whatever its sign. -/
def fpSub (rm : Nat) (a b : Lane) : Lane × FpFlags := fpAdd rm a (fpNeg b)

/-- Multiplication (R128), NV on 0 × ∞ (R127). -/
def fpMul (rm : Nat) (a b : Lane) : Lane × FpFlags :=
  match fpVal a, fpVal b with
  | .nan, _ => (canonNaN, 0)
  | _, .nan => (canonNaN, 0)
  | .inf s, .inf t => (fpInf (s != t), 0)
  | .inf s, .fin t n _ => if n = 0 then (canonNaN, flagNV) else (fpInf (s != t), 0)
  | .fin s m _, .inf t => if m = 0 then (canonNaN, flagNV) else (fpInf (s != t), 0)
  | .fin s m e, .fin t n f => roundFp rm (s != t) (m * n) (e + f)

/-- a × b + c with one rounding (R129); NV on 0 × ∞ whatever c holds, and on ∞ − ∞ (R127). -/
def fpFma (rm : Nat) (a b c : Lane) : Lane × FpFlags :=
  let zeroInf := match fpVal a, fpVal b with
    | .inf _, .fin _ 0 _ => true
    | .fin _ 0 _, .inf _ => true
    | _, _ => false
  if zeroInf then (canonNaN, flagNV)
  else match fpVal a, fpVal b, fpVal c with
  | .nan, _, _ => (canonNaN, 0)
  | _, .nan, _ => (canonNaN, 0)
  | _, _, .nan => (canonNaN, 0)
  | .fin s m e, .fin t n f, .fin u k g =>
    let ps := s != t
    if m * n = 0 ∧ k = 0 ∧ ps = u then (fpZero ps, 0)
    else
      let q := if e + f < g then e + f else g
      roundInt rm (scaledInt ps (m * n) (e + f) q + scaledInt u k g q) q
  | .fin _ _ _, .fin _ _ _, .inf u => (fpInf u, 0)
  | x, y, z =>
    let s := match x with | .inf s => s | .fin s _ _ => s | .nan => false
    let t := match y with | .inf s => s | .fin s _ _ => s | .nan => false
    match z with
    | .inf u => if u = (s != t) then (fpInf u, 0) else (canonNaN, flagNV)
    | _ => (fpInf (s != t), 0)

/-- Division (R128); NV on 0 ÷ 0 and ∞ ÷ ∞, DZ on a finite non-zero value by zero (R127). -/
def fpDiv (rm : Nat) (a b : Lane) : Lane × FpFlags :=
  match fpVal a, fpVal b with
  | .nan, _ => (canonNaN, 0)
  | _, .nan => (canonNaN, 0)
  | .inf _, .inf _ => (canonNaN, flagNV)
  | .inf s, .fin t _ _ => (fpInf (s != t), 0)
  | .fin s _ _, .inf t => (fpZero (s != t), 0)
  | .fin s m e, .fin t n f =>
    if n = 0 then (if m = 0 then (canonNaN, flagNV) else (fpInf (s != t), flagDZ))
    else
      let q := m * 2 ^ 64 / n
      let sticky := if m * 2 ^ 64 % n = 0 then 0 else 1
      roundFp rm (s != t) (2 * q + sticky) (e - f - 65)

/-- The integer square root, one bit a round. -/
def isqrtGo (n : Nat) : Nat → Nat → Nat
  | 0, r => r
  | k + 1, r => if (r + 2 ^ k) * (r + 2 ^ k) ≤ n then isqrtGo n k (r + 2 ^ k) else isqrtGo n k r

def isqrt (n : Nat) : Nat := isqrtGo n (Nat.log2 n / 2 + 1) 0

/-- Square root (R128); NV below −0 (R127). -/
def fpSqrt (rm : Nat) (a : Lane) : Lane × FpFlags :=
  match fpVal a with
  | .nan => (canonNaN, 0)
  | .inf s => if s then (canonNaN, flagNV) else (fpInf false, 0)
  | .fin s m e =>
    if m = 0 then (fpZero s, 0)
    else if s then (canonNaN, flagNV)
    else
      let odd := e % 2 ≠ 0
      let m' := if odd then m * 2 ^ 61 else m * 2 ^ 60
      let e' := if odd then e - 61 else e - 60
      let r := isqrt m'
      let sticky := if r * r = m' then 0 else 1
      roundFp rm false (2 * r + sticky) (e' / 2 - 1)

/-- Fixed-point bits of the exponential's enclosure. -/
def exp2Bits : Nat := 256

/-- The product of 2^(2^−k) over the set bits of a fraction, most significant first; `s` is 2^(2^−(k−1)). -/
def exp2Go (frac : Nat) : Nat → Nat → Nat → Nat
  | 0, _, acc => acc
  | k + 1, s, acc =>
    let s' := isqrt (s * 2 ^ exp2Bits)
    let acc' := if frac.testBit k then acc * s' / 2 ^ exp2Bits else acc
    exp2Go frac k s' acc'

/-- 2 raised to a value, correctly rounded (R219). The enclosure is far narrower than the distance of any such power
from a rounding boundary (log entry 13). -/
def fpExp2 (rm : Nat) (a : Lane) : Lane × FpFlags :=
  match fpVal a with
  | .nan => (canonNaN, 0)
  | .inf s => (if s then fpZero false else fpInf false, 0)
  | .fin s m e =>
    if m = 0 then (0x3F800000#32, 0)
    else if e + (Nat.log2 m : Int) < -26 then
      roundFp rm false (if s then 2 ^ 60 - 1 else 2 ^ 60 + 1) (-60)
    else
      let e0 : Int := if e < 0 then e else 0
      let n : Int := scaledInt s m e e0
      let fb := (-e0).toNat
      let i := n / (2 ^ fb : Nat)
      let frac := (n % (2 ^ fb : Nat)).toNat
      let i := if 400 < i then 400 else if i < -400 then -400 else i
      if frac = 0 then roundFp rm false 1 i
      else roundFp rm false (2 * exp2Go frac fb (2 * 2 ^ exp2Bits) (2 ^ exp2Bits) + 1) (i - (exp2Bits : Int) - 1)

/-- 1 ÷ a (R219). -/
def fpRcp (rm : Nat) (a : Lane) : Lane × FpFlags := fpDiv rm 0x3F800000#32 a

/-- A key that orders FP32 values other than NaN, −0 just below +0 (R130). -/
def fpKey (a : Lane) : Int :=
  let m : Int := ((a.extractLsb' 0 31).toNat : Int)
  if fpSign a then -m - 1 else m

def fpIsZero (a : Lane) : Bool := a.extractLsb' 0 31 == 0#31

/-- The smaller operand, −0 below +0; one NaN gives the other operand, two the canonical NaN (R130). -/
def fpMin (a b : Lane) : Lane :=
  if fpIsNaN a && fpIsNaN b then canonNaN
  else if fpIsNaN a then b else if fpIsNaN b then a
  else if fpKey b < fpKey a then b else a

/-- The larger operand (R130). -/
def fpMax (a b : Lane) : Lane :=
  if fpIsNaN a && fpIsNaN b then canonNaN
  else if fpIsNaN a then b else if fpIsNaN b then a
  else if fpKey a < fpKey b then b else a

/-- Equality; false with a NaN, −0 equal to +0 (R130). -/
def fpEq (a b : Lane) : Bool :=
  !fpIsNaN a && !fpIsNaN b && (a == b || (fpIsZero a && fpIsZero b))

/-- Less than; false with a NaN (R130). -/
def fpLt (a b : Lane) : Bool :=
  !fpIsNaN a && !fpIsNaN b && !(fpIsZero a && fpIsZero b) && decide (fpKey a < fpKey b)

/-- Less than or equal; false with a NaN (R130). -/
def fpLe (a b : Lane) : Bool := fpLt a b || fpEq a b

/-- NV of FLT.S, FLE.S and their vector forms (R127). -/
def fpCmpFlags (a b : Lane) : FpFlags := flagIf (fpIsNaN a || fpIsNaN b) flagNV

/-- The whole number nearest a value in a mode, and whether it differs from the value. -/
def roundToInteger (rm : Nat) (neg : Bool) (m : Nat) (e : Int) : Int × Bool :=
  let (n, inexact) := toUnits rm neg m e 0
  ((if neg then -(n : Int) else n), inexact)

/-- A conversion to an integer of the range [lo, hi], saturating (R132). -/
def fpToInt (lo hi : Int) (rm : Nat) (a : Lane) : Int × FpFlags :=
  match fpVal a with
  | .nan => (0, flagNV)
  | .inf s => ((if s then lo else hi), flagNV)
  | .fin s m e =>
    let (n, inexact) := roundToInteger rm s m e
    if hi < n then (hi, flagNV) else if n < lo then (lo, flagNV) else (n, flagIf inexact flagNX)

/-- A conversion from an integer (R131); zero gives +0. -/
def fpOfInt (rm : Nat) (n : Int) : Lane × FpFlags :=
  if n = 0 then (0#32, 0) else roundFp rm (n < 0) n.natAbs 0

/-- The class mask (R133). -/
def fpClass (a : Lane) : Word :=
  if fpIsNaN a then 256#64
  else if fpIsInf a then (if fpSign a then 1#64 else 128#64)
  else if fpIsZero a then (if fpSign a then 8#64 else 16#64)
  else if fpExp a = 0 then (if fpSign a then 4#64 else 32#64)
  else (if fpSign a then 2#64 else 64#64)

/-- FP32 to H16 (R195). -/
def fpToH16 (rm : Nat) (a : Lane) : BitVec 16 × FpFlags :=
  match fpVal a with
  | .nan => (0x7FC0#16, 0)
  | .inf s => ((if s then 0xFF80#16 else 0x7F80#16), 0)
  | .fin s m e =>
    if m = 0 then ((if s then 0x8000#16 else 0#16), 0)
    else
      let (b, f) := roundMag 8 rm s m e
      (BitVec.ofNat 16 (b + if s then 2 ^ 15 else 0), f)

/-- H16 to FP32, exact (R195). -/
def fpOfH16 (h : BitVec 16) : Lane :=
  let w : Lane := h ++ 0#16
  if fpIsNaN w then canonNaN else w

/-- The sum of an accumulator and exact integer terms n × 2^e, rounded once under RNE (R211 to R213). -/
def accAdd (acc : Lane) (terms : List (Int × Int)) : Lane :=
  match fpVal acc with
  | .nan => canonNaN
  | .inf s => fpInf s
  | .fin s m e =>
    let q := terms.foldl (fun q t => if t.2 < q then t.2 else q) e
    let n : Int := terms.foldl (fun (n : Int) t => n + t.1 * ((2 ^ (t.2 - q).toNat : Nat) : Int)) (scaledInt s m e q)
    (roundInt 0 n q).1

/-- RoundNE of a sum, with the rules of MADDV (R254). -/
def fpAddNe (a b : Lane) : Lane := (fpAdd 0 a b).1

/-- An FP32 value as an exact multiple of 2^−149. An infinity is the first that no finite value reaches, so that it compares with them as
it should, and a sum that holds it rounds to an infinity again. -/
def fpUnits (a : Lane) : Int :=
  match fpVal a with
  | .fin s m e => scaledInt s m e (-149)
  | .inf s => if s then -2 ^ 277 else 2 ^ 277
  | .nan => 0

/-- An exact multiple of 2^−149 rounded to FP32 in a mode. -/
def fpOfUnits (rm : Nat) (n : Int) : Lane := (roundInt rm n (-149)).1

/-- The element range of BI8 and BI4 (R197). -/
def biRange (bi4 : Bool) : Int × Int := if bi4 then (-8, 7) else (-128, 127)

/-- x × 2^(127 − E) rounded to a whole number; `none` for a NaN or an infinity (R200). -/
def quantOne (rm : Nat) (ex : Nat) (a : Lane) : Option Int :=
  match fpVal a with
  | .fin s m e => some (roundToInteger rm s m (e + 127 - ex)).1
  | _ => none

/-- Whether every element fits under an exponent (R201). -/
def quantFits (bi4 : Bool) (rm ex : Nat) (xs : List Lane) : Bool :=
  xs.all fun a => match quantOne rm ex a with
    | some y => decide ((biRange bi4).1 ≤ y) && decide (y ≤ (biRange bi4).2)
    | none => false

/-- The smallest exponent from `255 − k` on for which every element fits. -/
def autoGo (bi4 : Bool) (rm : Nat) (xs : List Lane) : Nat → Nat
  | 0 => 255
  | k + 1 => if quantFits bi4 rm (254 - k) xs then 254 - k else autoGo bi4 rm xs k

/-- The automatic exponent (R201). -/
def autoExp (bi4 : Bool) (rm : Nat) (xs : List Lane) : Nat :=
  if xs.any (fun a => fpIsNaN a || fpIsInf a) then 255 else autoGo bi4 rm xs 255

end Sys2Proof.Machine
end

