-- ==== Sys2Proof/Machine/Ops.lean ====
section
/-! DEFINITION. The named operations: access to the parts of the state, slot registers, events and upcalls, taking a
fault and returning from one, killing a task, gate unwinding, and the one shell every instruction runs in. -/

namespace Sys2Proof.Machine

/-- A computation of an instruction: it may stop, and keeps the state it reached. -/
abbrev M := EStateM Stop State

/-! ### The parts of the state -/

def State.coreAt (s : State) (c : Nat) : Core := tabGet Core.init s.cores c
def State.setCore (s : State) (c : Nat) (v : Core) : State := { s with cores := tabPut s.cores c v }
def Core.slotAt (c : Core) (k : Nat) : Slot := tabGet Slot.init c.slots k
def Core.setSlot (c : Core) (k : Nat) (v : Slot) : Core := { c with slots := tabPut c.slots k v }
def State.slotAt (s : State) (c k : Nat) : Slot := (s.coreAt c).slotAt k
def State.setSlot (s : State) (c k : Nat) (v : Slot) : State := s.setCore c ((s.coreAt c).setSlot k v)
/-- The slot whose instruction is executed. -/
def State.cur (s : State) : Slot := s.slotAt s.core s.slot
def State.setCur (s : State) (v : Slot) : State := s.setSlot s.core s.slot v

def State.leaseAt (s : State) (l : Nat) : Option Lease := tabFind s.leases l
def State.leaseD (s : State) (l : Nat) : Lease := (s.leaseAt l).getD Lease.house
def State.setLease (s : State) (l : Nat) (v : Lease) : State := { s with leases := tabPut s.leases l v }
/-- Partition 0 is the house's own and always exists (R54). -/
def State.partAt (s : State) (p : Nat) : Option Partn := if p = 0 then some ((tabFind s.parts 0).getD Partn.house) else tabFind s.parts p
def State.setPart (s : State) (p : Nat) (v : Partn) : State := { s with parts := tabPut s.parts p v }

def State.dieAt (s : State) (d : Nat) : Die := tabGet Die.init s.dies d
def State.setDie (s : State) (d : Nat) (v : Die) : State := { s with dies := tabPut s.dies d v }
def State.homeAt (s : State) (h : Nat) : Home := tabGet Home.init s.homes h
def State.setHome (s : State) (h : Nat) (v : Home) : State := { s with homes := tabPut s.homes h v }
def State.quadAt (s : State) (q : Nat) : Quad := tabGet Quad.init s.quads q
def State.setQuad (s : State) (q : Nat) (v : Quad) : State := { s with quads := tabPut s.quads q v }
def State.accountAt (s : State) (a : Nat) : Account := tabGet Account.init s.accounts a
def State.windowKey : HostFn → Nat
  | .pf l => l
  | .vf i => i + 2
def State.windowAt (s : State) (f : HostFn) : Window := tabGet Window.init s.windows (State.windowKey f)
def State.setWindow (s : State) (f : HostFn) (v : Window) : State := { s with windows := tabPut s.windows (State.windowKey f) v }

/-- A response of a die's old incarnation, or one that comes after its timeout, is dropped and counted (R312, R400). -/
def State.staleResponse (s : State) (d : Nat) : State := s.setDie d { s.dieAt d with staleResp := (s.dieAt d).staleResp + 1 }

/-- Quadrant, row and die of a core index (R6). -/
def quadOf (c : Nat) : Nat := c / 128
def rowOf (c : Nat) : Nat := c / 16
def dieOf (c : Nat) : Nat := c / 512

/-- What a lease has on a core that nothing has changed since the lease's creation (R31, R76, R363). -/
def Lease.freshCore (l : Lease) : LCore := LCore.fresh l.w3 l.ten0
def lcoreKey (l c : Nat) : Nat := l * 4096 + c
def State.lcoreAt (s : State) (l c : Nat) : LCore := tabGet (s.leaseD l).freshCore s.lcores (lcoreKey l c)
def State.setLCore (s : State) (l c : Nat) (v : LCore) : State := { s with lcores := tabPut s.lcores (lcoreKey l c) v }

/-- The lease that holds the quadrant of a core (R62). -/
def State.holderOf (s : State) (c : Nat) : Option Nat := (s.quadAt (quadOf c)).holder
/-- Whether a slice schedule of the quadrant names a lease (R62, R83). -/
def Quad.names (q : Quad) (l : Nat) : Bool := q.sched.any fun e => e.1 == l

/-! ### Registers of a slot (R30) -/

/-- x registers: x0 reads zero. -/
def Slot.getX (t : Slot) (r : BitVec 5) : Word := if r = 0#5 then 0#64 else tabGet 0#64 t.x r.toNat
/-- Writes to x0 are discarded. -/
def Slot.setX (t : Slot) (r : BitVec 5) (v : Word) : Slot := if r = 0#5 then t else { t with x := tabPut t.x r.toNat v }
def Slot.getV (t : Slot) (r : Nat) : VecReg := tabGet 0#512 t.v r
def Slot.setV (t : Slot) (r : Nat) (v : VecReg) : Slot := { t with v := tabPut t.v r v }
/-- p0 reads all ones and is never a destination. -/
def Slot.getP (t : Slot) (r : Nat) : BitVec 16 := if r = 0 then 0xFFFF#16 else tabGet 0xFFFF#16 t.p r
def Slot.setP (t : Slot) (r : Nat) (v : BitVec 16) : Slot := if r = 0 then t else { t with p := tabPut t.p r v }
def Slot.getQ (t : Slot) (r : Nat) : List Word := tabGet [] t.q r
def Slot.setQ (t : Slot) (r : Nat) (v : List Word) : Slot := { t with q := tabPut t.q r v }
def laneOf (v : VecReg) (i : Nat) : Lane := v.extractLsb' (32 * i) 32
/-- A vector register from its sixteen lanes, lane 0 lowest. -/
def ofLanes (f : Nat → Lane) : VecReg := BitVec.ofNat 512 ((List.range 16).foldl (fun n i => n + (f i).toNat * 2 ^ (32 * i)) 0)

/-! ### Fields of `ss` (R32) -/

def Slot.cls (t : Slot) : Nat := (t.ss.extractLsb' 26 2).toNat
def Slot.prio (t : Slot) : Nat := (t.ss.extractLsb' 24 2).toNat
def Slot.pfx (t : Slot) : Option (BitVec 12) := if t.ss.getLsbD 0 then some (t.ss.extractLsb' 1 12) else none
def Slot.loopOn (t : Slot) (l : Nat) : Bool := t.ss.getLsbD (13 + l)
/-- One bit of a status word set or cleared. -/
def setBit {n : Nat} (w : BitVec n) (i : Nat) (b : Bool) : BitVec n :=
  if b then w ||| (1#n <<< i) else w &&& ~~~(1#n <<< i)
def Slot.setLoop (t : Slot) (l : Nat) (b : Bool) : Slot := { t with ss := setBit t.ss (13 + l) b }
/-- `ss.PFX` and `ss.PFXW` (R111). With PFX cleared PFXW is 0 too: R23 and R111 clear PFX alone, and whether PFXW keeps the last format word
they leave open (DESIGN CHOICE; log entry 66). -/
def Slot.setPfx (t : Slot) (w : Option (BitVec 12)) : Slot :=
  let base := t.ss &&& 0xFFFE000#28
  match w with
  | none => { t with ss := base }
  | some f => { t with ss := base ||| (f.zeroExtend 28 <<< 1) ||| 1#28 }
def ssOf (cls prio : Nat) : BitVec 28 := BitVec.ofNat 28 (cls * 2 ^ 26 + prio * 2 ^ 24)
/-- `sid` (R32). -/
def sidOf (t : Slot) (k : Nat) : Nat := t.gen.toNat * 256 + k
/-- `lid` (R32). -/
def lidOf (t : Slot) : Nat := t.part * 65536 + t.tag * 256 + t.lease
def Slot.isLive (t : Slot) : Bool := decide (t.st ≠ .free)
def Slot.depth (t : Slot) : Nat := t.frames.length
/-- The gate depth to which the q registers of the slot belong: a callee without VEC leaves its caller's in place (R116, R366). -/
def Slot.queueDepth (t : Slot) : Nat := t.depth - (t.frames.takeWhile fun f => !f.vec).length
def Slot.epochUp (t : Slot) : Slot := { t with epoch := t.epoch + 1 }

def Slot.lcN (t : Slot) (l : Nat) : Word := if l = 0 then t.lc.1 else t.lc.2
def Slot.lsN (t : Slot) (l : Nat) : BitVec 48 := if l = 0 then t.ls.1 else t.ls.2
def Slot.leN (t : Slot) (l : Nat) : BitVec 48 := if l = 0 then t.le.1 else t.le.2
def Slot.setLc (t : Slot) (l : Nat) (v : Word) : Slot := { t with lc := if l = 0 then (v, t.lc.2) else (t.lc.1, v) }
def Slot.setLs (t : Slot) (l : Nat) (v : BitVec 48) : Slot := { t with ls := if l = 0 then (v, t.ls.2) else (t.ls.1, v) }
def Slot.setLe (t : Slot) (l : Nat) (v : BitVec 48) : Slot := { t with le := if l = 0 then (v, t.le.2) else (t.le.1, v) }
/-- The loop state discarded (R110). -/
def Slot.clearLoops (t : Slot) : Slot := { (t.setLoop 0 false).setLoop 1 false with lc := (0, 0), ls := (0, 0), le := (0, 0) }

/-! ### Control flow of a completed word (R109, R110) -/

/-- One level of the end check at a completed word: `none` when the level does not act, `some true` when it loops. -/
def endLevel (t : Slot) (l : Nat) (w : BitVec 48) : Slot × Bool :=
  if t.loopOn l && t.leN l == w then
    if 1 < (t.lcN l).toNat then ({ t.setLc l (t.lcN l - 1) with pc := t.lsN l }, true)
    else ((t.setLc l 0).setLoop l false, false)
  else (t, false)

/-- The end check at a completed word, level 1 first (R109). -/
def endCheck (t : Slot) (w : BitVec 48) : Slot :=
  let (t, again) := endLevel t 1 w
  if again then t else (endLevel t 0 w).1

/-- A level that a taken transfer to `p` leaves is no longer active (R110). -/
def leaveLevel (t : Slot) (l : Nat) (p : BitVec 48) : Slot :=
  if t.loopOn l && !(decide ((t.lsN l).toNat ≤ p.toNat) && decide (p.toNat < (t.leN l).toNat + 4)) then t.setLoop l false else t

/-- What completing does to a slot: the prefix is consumed (R111) and the program counter moves. -/
def Slot.complete (t : Slot) : Flow → Slot
  | .seq => endCheck { t.setPfx none with pc := t.pc + 4 } t.pc
  | .skip e => endCheck { t.setPfx none with pc := e + 4 } e
  | .jump p => leaveLevel (leaveLevel { t.setPfx none with pc := p } 1 p) 0 p
  | .stay => t

/-! ### Issue levels (R99, R100) -/

/-- The running place of a slot's level passes to the next slot after `k`, where `k` is the level's running slot; another that is parked,
blocked or killed has no place to give up (R100). -/
def Core.giveUp (c : Core) (k : Nat) : Core :=
  let t := c.slotAt k
  let level := t.cls * 4 + t.prio
  if tabFind c.run level = some (2 * k) then { c with run := tabPut c.run level (2 * k + 1) } else c
def State.giveUp (s : State) (c k : Nat) : State := s.setCore c ((s.coreAt c).giveUp k)

/-! ### Open counts (R89) and serial groups (R86) -/

def State.addOpen (s : State) (tag : Nat) (d : Int) : State :=
  match tabFind s.launches tag with
  | none => s
  | some l => { s with launches := tabPut s.launches tag ({ l with open_ := l.open_ + d } : Launch) }

/-- The live launch of a lease that bears a tag (R46, R89). -/
def State.liveLaunch (s : State) (lease tag : Nat) : Option Launch :=
  match tabFind s.launches tag with
  | some l => if l.lease = lease ∧ l.completed = false then some l else none
  | none => none

/-- Add 1 for a message to a handler type of the sender's own lease; false when it is counted in no launch. -/
def State.countOpen (s : State) (lease tag : Nat) : State × Bool :=
  match s.liveLaunch lease tag with
  | some _ => (s.addOpen tag 1, true)
  | none => (s, false)

/-- A serial group's task is over, or its entry message is dropped (R86; log entry 15). -/
def State.serialOver (s : State) (tag c : Nat) (wid : Word) : State :=
  match tabFind s.launches tag with
  | none => s
  | some l =>
    let groups := l.groups.map fun g =>
      if g.2.1 == c && g.2.2.1 && g.2.2.2.1 == wid.toNat then (g.1, (c, false, g.2.2.2)) else g
    { s with launches := tabPut s.launches tag { l with groups := groups } }

/-- The serial group whose task ended is free to send its next identifier (R86): the task that an entry message started, and no helper that
bears its work identifier. -/
def State.serialEnd (s : State) (t : Slot) (c : Nat) : State := if t.counted && t.entryTask then s.serialOver t.tag c t.wid else s

/-! ### Messages made by hardware -/

/-- The sender word of hardware on behalf of a core (R45). -/
def hwSender (node c : Nat) : Word := BitVec.ofNat 64 (2 ^ 63 + node * 2 ^ 13 + 2 ^ 12 + c)
/-- The sender word of a slot's task (R45). -/
def slotSender (node c k : Nat) (t : Slot) : Word :=
  BitVec.ofNat 64 (t.dom.toNat * 2 ^ 48 + t.gen.toNat * 2 ^ 40 + k * 2 ^ 32 + node * 2 ^ 13 + 2 ^ 12 + c)

/-- The bit of a sender word that says that its sender is on the reader's device (R45): 0 in a word that crosses the fabric. -/
def awaySender (w : Word) : Word := w &&& ~~~0x1000#64
def hereSender (w : Word) : Word := w ||| 0x1000#64

def Msg.hw (type lease core : Nat) (node : Nat) (args : List Word) (wid : Word) (tag : Nat) : Msg :=
  { type := type, args := args, sender := hwSender node core, wid := wid, tag := tag, srcLease := lease, lease := lease,
    core := core, counted := false, entry := none, gang := none, jdec := none, prio := 0, age := 0, aged := false }

def State.countLease (s : State) (l : Nat) (f : Lease → Lease) : State :=
  match s.leaseAt l with
  | some v => s.setLease l (f v)
  | none => s

/-- A stale notice is dropped and counted in the lease (R167). -/
def State.countStale (s : State) (lease : Nat) : State := s.countLease lease fun l => { l with stale := l.stale + 1 }

def State.sendMsix (s : State) (fn vec : Nat) : State := { s with msix := s.msix ++ [(fn, vec)] }

/-- A lease event that reports the drop of a message of the type that the lease's own event target takes: it is not sent there again
(log entry 58). -/
def dropOfType (type : Nat) (args : List Word) : Bool := args.take 2 == [2#64, BitVec.ofNat 64 type]

/-- What a lease has registered with EVROUTE receives the lease event as well, at once: an MSI-X vector, or a message of a type on a core
(R71, R417; log entry 58). -/
def State.notifyLease (s : State) (lease c : Nat) (args : List Word) : State :=
  match (s.leaseD lease).target with
  | none => s
  | some (false, fn, vec, _) => s.sendMsix fn vec
  | some (true, core, type, _) =>
    if dropOfType type args then s
    else
      let k := s.coreAt core
      s.setCore core { k with transit := k.transit ++
        [{ Msg.hw type lease core s.node args 0 0 with sender := hwSender s.node c, inc := (s.dieAt (dieOf c)).inc }] }

/-- A lease event at a core of the lease, for the task that bears a launch tag: its reserved entry, or kept, or counted lost; and the lease's
own target at once (R89, R95, R376, R417). Where it reports on no task the spec gives it no tag: it bears 0, so that its messages count in the
lease's live launch 0, if there is one (DESIGN CHOICE; log entry 66). -/
def State.raiseEvent (s : State) (lease c : Nat) (args : List Word) (tag : Nat := 0) : State :=
  if (s.leaseAt lease).isNone then s
  else
    let m := { Msg.hw 0xF5 lease c s.node args 0 tag with fresh := true }
    let s := s.notifyLease lease c args
    if s.holderOf c = some lease then
      let k := s.coreAt c
      match tabFind k.reserve 17 with
      | none => s.setCore c { k with reserve := tabPut k.reserve 17 m }
      | some _ => s.countLease lease fun l => { l with lost := l.lost + 1 }
    else match tabFind (s.leaseD lease).kept (quadOf c) with
      | none => s.countLease lease fun l => { l with kept := tabPut l.kept (quadOf c) m }
      | some _ => s.countLease lease fun l => { l with lost := l.lost + 1 }

/-- The first quadrant from `q` on whose schedule names the lease. -/
def State.firstQuad (s : State) (lease : Nat) : Nat → Nat → Option Nat
  | 0, _ => none
  | n + 1, q => if (s.quadAt q).names lease then some q else s.firstQuad lease n (q + 1)

/-- A lease event that no core caused, at the lease's event core (R417). -/
def State.leaseEvent (s : State) (lease : Nat) (args : List Word) (tag : Nat := 0) : State :=
  match s.firstQuad lease 32 0 with
  | some q => s.raiseEvent lease (q * 128) args tag
  | none => (s.notifyLease lease 0 args).countLease lease fun l => { l with lost := l.lost + 1 }

/-- An event for the house or a partition: its target, or the log (R70, R71). `part` 0 is the house. The core that the sender word of its
message names is the target core itself, with work identifier and launch tag 0: R45 does not say for which core the hardware sends it (DESIGN
CHOICE; log entry 66). -/
def State.ownerEvent (s : State) (e : LogEntry) : State :=
  let tgt := if e.part = 0 then s.houseTarget else
    match tabFind s.parts e.part with
    | some p => (match p.target with | some t => some t | none => s.houseTarget)
    | none => s.houseTarget
  match tgt with
  | none => { s with log := s.log ++ [e] }
  | some (false, fn, vec, _) => ({ s with log := s.log ++ [e] }).sendMsix fn vec
  | some (true, core, type, lease) =>
    let m := Msg.hw type lease core s.node [BitVec.ofNat 64 e.code, BitVec.ofNat 64 e.a, BitVec.ofNat 64 e.b,
      BitVec.ofNat 64 e.c, BitVec.ofNat 64 e.d, BitVec.ofNat 64 e.part] 0 0
    let k := s.coreAt core
    ({ s with log := s.log ++ [e] }).setCore core { k with transit := k.transit ++ [m] }

/-! ### Killing a task (R375) -/

/-- The members in a gang's barrier without one slot. An operation on which the members have agreed is the whole gang's, and is performed with
what each brought to it (R237). -/
def Gang.unenter (g : Gang) (c k : Nat) : Gang := { g with entered := g.entered.filter fun e => !(e.core == c && e.slot == k) }

/-- The member of a slot is no longer live, and no longer in its gang's barrier. -/
def State.leaveGang (s : State) (c k : Nat) : State :=
  { s with gangs := s.gangs.map fun g => (g.1, { g.2 with live := g.2.live.filter (fun m => m != (c, k)) }.unenter c k) }

/-- The task of a slot is over: the slot is FREE, its open count goes down, its frames and loops are gone. -/
def State.freeSlot (s : State) (c k : Nat) : State :=
  let t := s.slotAt c k
  let s := s.giveUp c k
  let s := s.serialEnd t c
  let s := if t.counted then s.addOpen t.tag (-1) else s
  let s := s.leaveGang c k
  s.setSlot c k { t.clearLoops with st := .free, frames := [], ahead := [], warned := false, gang := none, counted := false }

/-- Whether a command of the vector engine has begun: a load that has read a lane, and a VREDX, which begins as it is queued (R230, R232). -/
def VecCmd.begun (v : VecCmd) : Bool := !v.got.isEmpty || (match v.instr with | .vredx _ _ _ _ => true | _ => false)

/-- A kill: the task's vector commands that have not begun are discarded as well, its barrier entry, and the answer to
its MGMT. A command that has begun is performed (R216, R375). -/
def State.killTask (s : State) (c k : Nat) : State :=
  let t := s.slotAt c k
  let q := s.coreAt c
  let s := s.setCore c { q with vecq := q.vecq.filter fun v => v.begun || !(v.slot == k && v.gen == t.gen) }
  let s := { s with gaffer := s.gaffer.map fun (g : GafferCmd) => if g.who = some (c, k) then { g with who := none } else g }
  s.freeSlot c k

/-- A kill with its lease event: reason 1 watchdog, 2 KILL, 3 runtime fault, 4 house (R376). -/
def State.killReport (s : State) (c k reason cause : Nat) : State :=
  let t := s.slotAt c k
  (s.killTask c k).raiseEvent t.lease c [1, BitVec.ofNat 64 (sidOf t k), BitVec.ofNat 64 reason, BitVec.ofNat 64 cause] t.tag

/-! ### Taking a fault (R186, R369, R372) -/

/-- The slot is PARKED and gives up its place. -/
def State.park (s : State) (c k : Nat) (p : Park) : State :=
  let s := s.giveUp c k
  s.setSlot c k { s.slotAt c k with st := .parked p }

/-- Restore the caller's frame: what GRET and a fatal fault share (R367, R369). -/
def Slot.popFrame (t : Slot) (f : Frame) (rest : List Frame) : Slot :=
  let t := { t with pc := f.pc, x := f.x, dom := f.dom, ff := f.ff, ctype := f.ctype, bexp := f.bexp, lc := f.lc, ls := f.ls,
                    le := f.le, frames := rest }
  let t := (t.setLoop 0 (f.loops.getLsbD 0)).setLoop 1 (f.loops.getLsbD 1)
  if f.vec then { t with v := f.v, p := f.p, q := f.q } else t

/-- A fatal fault in a callee unwinds its innermost frame, with GATE_FAIL and the cause for the caller (R369). -/
def Slot.unwind (t : Slot) (cause : Nat) : Slot :=
  match t.frames with
  | [] => t
  | f :: rest =>
    let u := ((t.setPfx none).popFrame f rest).setX 10#5 0xFFFFFFFFFFFFFFFF#64
    let u := { (u.setX 11#5 (BitVec.ofNat 64 cause)) with st := .ready, ahead := [], unwound := u.unwound + 1 }
    endCheck u (f.pc - 4)

/-- The free value that stands where the spec gives an upcall argument no value (log entry 11). -/
def freeArg (s : State) (o : Option Word) : Word := o.getD (Config.freeFaultWord s.free)

/-- The level word of x14 (R186). -/
def levelWord (level stage : Nat) (write fetch : Bool) : Word :=
  BitVec.ofNat 64 (level + stage * 16 + (if write then 256 else 0) + (if fetch then 512 else 0))

/-- x14 where the walk found no level: stage 1, the access, and a free level (R186; log entry 11). -/
def FaultInfo.levelIn (f : FaultInfo) (s : State) : Word :=
  f.level.getD (levelWord ((Config.freeFaultWord (s.free + 1)).toNat % 16) 1 f.write f.fetch)

/-- A fault upcall of type 0xF1: `fca`, `fad`, `fsl`, the parked slot and the reserved entry of the slot (R186). Where an engine-fault upcall
still waits in that entry, which R95 calls free for a slot's own fault, this one takes its place (log entry 64). `fad` holds the word that x12
carries: R31 calls it an address and gives none for a cause that has none, nor for TRAP and BKPT, whose x12 is x10 (DESIGN CHOICE; log entry
69). -/
def State.upcall (s : State) (c k : Nat) (f : FaultInfo) (pc : Word) (x15 : Word) (p : Park) : State :=
  let t := s.slotAt c k
  let l := s.lcoreAt t.lease c
  let a := freeArg s f.addr
  let sid := sidOf t k
  let s' := s.setLCore t.lease c { l with fca := BitVec.ofNat 16 f.cause, fad := a, fsl := BitVec.ofNat 16 sid }
  let m := Msg.hw 0xF1 t.lease c s.node
    [BitVec.ofNat 64 sid, BitVec.ofNat 64 f.cause, a, pc, f.levelIn s, x15] t.wid t.tag
  let q := s'.coreAt c
  let s' := State.setCore { s' with free := s.free + 2 } c { q with reserve := tabPut q.reserve k { m with fresh := true } }
  s'.park c k p

/-- Taking a fault that reports a given PC: the ONE entry every faulting instruction uses. -/
def State.takeFaultAt (s : State) (c k : Nat) (f : FaultInfo) (pc x15 : Word) (p : Park) : State :=
  let t := s.slotAt c k
  let a := (freeArg s f.addr).toNat
  let sid := sidOf t k
  match t.frames, f.stage2 with
  | [], true => (s.ownerEvent ⟨0, f.cause, sid * 4096 + c, a, (f.levelIn s).toNat, t.lease⟩).park c k (.stage2 f.cause)
  | [], false => if t.cls = 2 then s.killReport c k 3 f.cause else s.upcall c k f pc x15 p
  | fr :: _, st2 =>
    if fr.own then
      let s := s.ownerEvent ⟨if st2 then 0 else t.part, f.cause, sid * 4096 + c, a, if st2 then (f.levelIn s).toNat else fr.index, t.lease⟩
      if f.gate && !st2 then s.park c k .fault else s.setSlot c k (t.unwind f.cause)
    else if st2 then (s.ownerEvent ⟨0, f.cause, sid * 4096 + c, a, (f.levelIn s).toNat, t.lease⟩).park c k (.stage2 f.cause)
    else if f.cause = 0x1B then
      (s.setSlot c k (t.unwind f.cause)).raiseEvent t.lease c [5, BitVec.ofNat 64 sid, BitVec.ofNat 64 fr.index, 0x1B] t.tag
    else if t.cls = 2 then s.killReport c k 3 f.cause
    else s.upcall c k f pc x15 p

/-- Whether a fault unwinds the frame of a callee that has vector commands under way: like GRET, the unwinding waits until they have
executed on the callee's registers (R367, R369; log entry 49). -/
def State.unwindWaits (s : State) (c k : Nat) (f : FaultInfo) : Bool :=
  let t := s.slotAt c k
  match t.frames with
  | [] => false
  | fr :: _ => fr.own && !(f.gate && !f.stage2) && (s.coreAt c).vecq.any fun v => v.slot == k && v.gen == t.gen

/-- The core issues nothing in a clk in which the instruction of its slot stalls (R98). -/
def State.stallClk (s : State) (c : Nat) : State := s.setCore c { s.coreAt c with stalled := true }

/-- Taking a fault of the instruction at the slot's PC. Where it has to wait, the slot stalls at that instruction. -/
def State.takeFault (s : State) (c k : Nat) (f : FaultInfo) (x15 : Word) (p : Park) : State :=
  if s.unwindWaits c k f then s.stallClk c else s.takeFaultAt c k f ((s.slotAt c k).pc.zeroExtend 64) x15 p

/-- The return from a fault: a PARKED slot is READY again at its PC, with its prefix and loop state (R187, R374). -/
def Slot.resumed (t : Slot) : Slot := { t with st := .ready }

/-- A blocked slot whose instruction at `pc` has completed is READY again; the word it held fetched for that instruction is used up with
it, and it is not issued again (R98, R294). -/
def Slot.goesOn (t : Slot) (pc : BitVec 48) : Slot := { t with st := .ready, ahead := if t.pc = pc + 4 then t.ahead.drop 1 else [] }

/-! ### The shell an instruction runs in -/

/-- Consumed poison: a house record, and the lease is reset by the gaffer's next move (R381). -/
def State.poisoned (s : State) (lease : Nat) : State :=
  let s := s.ownerEvent ⟨0, 0x28, lease, 0, 0, 0⟩
  { s with agenda := .event .leaseReset { a := lease } :: s.agenda }

/-- What a stop makes of the slot (R23, R98, R186, R381). -/
def State.stopped (s : State) (c k : Nat) : Stop → State
  | .fault f => s.takeFault c k f 0 .fault
  | .illop => if s.unwindWaits c k { cause := 1 } then s.stallClk c else (s.setSlot c k ((s.slotAt c k).setPfx none)).takeFault c k { cause := 1 } 0 .fault
  | .stall => s.stallClk c
  | .block w =>
    let s := s.giveUp c k
    s.setSlot c k { s.slotAt c k with st := .blocked w }
  | .poison => s.poisoned (s.slotAt c k).lease

/-- What completing makes of the slot. -/
def State.completed (s : State) (c k : Nat) (f : Flow) : State := s.setSlot c k ((s.slotAt c k).complete f)

/-- Run a body for the issuing slot to its completion or stop. -/
def finishM (c k : Nat) : EStateM.Result Stop State Flow → State
  | .ok f s => s.completed c k f
  | .error e s => s.stopped c k e

/-- An instruction that takes no format prefix: a pending prefix makes it illegal (R34). -/
def runSlot (body : M Flow) (s : State) : Host.Outcome State Fault Refusal :=
  if s.cur.pfx.isSome then .next (s.stopped s.core s.slot .illop)
  else .next (finishM s.core s.slot (body s))

/-- An instruction that takes the format prefixes its rule accepts (R34). -/
def runFmt (ok : BitVec 12 → Bool) (body : M Flow) (s : State) : Host.Outcome State Fault Refusal :=
  match s.cur.pfx with
  | some w => if ok w then .next (finishM s.core s.slot (body s)) else .next (s.stopped s.core s.slot .illop)
  | none => .next (finishM s.core s.slot (body s))

/-- A register-only instruction: what it makes of its slot, then the next word. -/
def slotOp (f : Slot → Slot) : M Flow := fun s => .ok .seq (s.setCur (f s.cur))

/-- An event or command of the package: where its condition does not hold it changes nothing (log entry 2). -/
def runEvent (f : State → State) (s : State) : Host.Outcome State Fault Refusal := .next (f s)

/-! ### Cause codes (R371) -/

def causeIllop : Nat := 0x01
def causePriv : Nat := 0x02
def causeAlign : Nat := 0x03
def causeDaddr : Nat := 0x04
def causeIaddr : Nat := 0x05
def causeAper : Nat := 0x06
def causeSpad : Nat := 0x07
def causeFekind : Nat := 0x08
def causeDesc : Nat := 0x09
def causeMopnd : Nat := 0x0A
def causeGang : Nat := 0x0B
def causeGspan : Nat := 0x0C
def causeWkind : Nat := 0x0D
def causeDkind : Nat := 0x0E
def causeDriftLoss : Nat := 0x0F
def causeXlat : Nat := 0x10
def causeTfmt : Nat := 0x11
def causeKind : Nat := 0x12
def causeCeil : Nat := 0x13
def causePerm : Nat := 0x14
def causeDrtf : Nat := 0x15
def causePeerq : Nat := 0x16
def causeGdepth : Nat := 0x18
def causeGentry : Nat := 0x19
def causeGvec : Nat := 0x1A
def causeGlimit : Nat := 0x1B
def causeTrap : Nat := 0x20
def causeBkpt : Nat := 0x21
def causePoison : Nat := 0x28

/-! ### Small steps of computations -/

def faultM {α : Type} (cause : Nat) (addr : Option Word := none) (level : Option Word := none) : M α :=
  throw (.fault { cause := cause, addr := addr, level := level })
/-- What an access asks of a translation. -/
structure Acc where
  write : Bool
  fetch : Bool

/-- A computation whose faults are those of an access. -/
def accessing {α : Type} (acc : Acc) (m : M α) : M α := fun s =>
  match m s with
  | .error (.fault f) s' => .error (.fault { f with write := acc.write, fetch := acc.fetch }) s'
  | r => r
def curM : M Slot := fun s => .ok s.cur s
def modCur (f : Slot → Slot) : M Unit := fun s => .ok () (s.setCur (f s.cur))
def getS : M State := fun s => .ok s s
def modS (f : State → State) : M Unit := fun s => .ok () (f s)
/-- The lease state of the issuing slot on its core. -/
def curL : M LCore := fun s => .ok (s.lcoreAt s.cur.lease s.core) s
def modL (f : LCore → LCore) : M Unit := fun s =>
  .ok () (s.setLCore s.cur.lease s.core (f (s.lcoreAt s.cur.lease s.core)))
def setXM (d : BitVec 5) (v : Word) : M Unit := modCur fun t => t.setX d v
/-- A computation whose stop is turned into `none`, its state changes kept. -/
def tryM {α : Type} (m : M α) : M (Option α) := fun s =>
  match m s with
  | .ok a s' => .ok (some a) s'
  | .error _ s' => .ok none s'
/-- A computation whose fault is kept as a value. -/
def catchM {α : Type} (m : M α) : M (Except Stop α) := fun s =>
  match m s with
  | .ok a s' => .ok (.ok a) s'
  | .error e s' => .ok (.error e) s'
/-- Run a computation for its state alone. -/
def execM {α : Type} (m : M α) (s : State) : State :=
  match m s with
  | .ok _ s' => s'
  | .error _ s' => s'

end Sys2Proof.Machine
end

