-- ==== Sys2Proof/Machine/Translate.lean ====
section
/-! DEFINITION. Physical windows and homes, writes at a home and what they wake, the two-stage walk, the die
translation cache, the rights table and the protection lookaside buffer (R137 to R142, R168 to R185, R317 to R320). -/

namespace Sys2Proof.Machine

/-! ### Windows and homes -/

def windowOf (pa : Nat) : Nat := pa / 2 ^ 48
def offsetOf (pa : Nat) : Nat := pa % 2 ^ 48

/-- The home die of a physical address (R137, R139). -/
def homeOf (pa : Nat) : Nat :=
  let w := windowOf pa
  if w = 0 then (bitsOf pa 14 12) ^^^ (bitsOf pa 17 15) ^^^ (bitsOf pa 20 18) ^^^ (bitsOf pa 23 21)
  else if w ≤ 8 then w - 1
  else if w ≤ 10 then 2 * bitsOf pa 13 12
  else if w = 11 then (if bitsOf pa 47 47 = 0 then 1 else 5)
  else 3

/-- Whether a physical address lies within its window (R138, R360, R398). -/
def State.inWindow (s : State) (pa : Nat) : Bool :=
  let w := windowOf pa
  let o := offsetOf pa
  if w = 0 then o < 8 * s.interleave * 2 ^ 30
  else if w ≤ 8 then o < (64 - s.interleave) * 2 ^ 30
  else if w = 9 then o < s.volatileSize
  else if w = 10 then o < s.persistSize && tabGet 0 s.lehrFlags (bitsOf pa 13 12) % 2 = 1
  else w = 11

/-- Whether a leaf's bytes all lie within their window, on ports that serve it (R138, R360): a persistent leaf of more than one page takes in
all four ports. -/
def State.leafInWindow (s : State) (pa span : Nat) : Bool :=
  s.inWindow pa && s.inWindow (pa + span - 1) &&
  (windowOf pa != 10 || decide (span < 4 * 4096) || (List.range Config.ports).all fun p => tabGet 0 s.lehrFlags p % 2 == 1)

/-- Whether a word has a full/empty state, by its window (R142). -/
def hasFe (pa : Nat) : Bool := windowOf pa ≤ 8

/-! ### Writes at a home -/

/-- The continuation a WAITA entry sends (R320). -/
def WaitEntry.message (w : WaitEntry) (node : Nat) : Msg :=
  { Msg.hw w.type w.lease w.core node [w.arg0, w.arg1] w.wid w.tag with counted := w.counted }

/-- Whom the answer of an LDF entry goes to. -/
def WaitEntry.asker (w : WaitEntry) : Asker :=
  { core := w.core, slot := w.sid.toNat % 8, gen := w.sid.extractLsb' 8 8, lease := w.lease, inc := w.inc, d := w.d, unwound := w.unwound }

/-- Poison consumed for each of some leases (R381). -/
def State.consumed (s : State) (leases : List Nat) : State := leases.foldl State.poisoned s

/-- The leases of wait-table entries that a home reads and finds poisoned (R381, R384). -/
def badWaits (ws : List WaitEntry) : List Nat := (ws.filter (·.poison)).map (·.lease)

/-- A write to a watched line wakes its WAITA entries in park order (R318, R320); one that is poisoned is consumed and wakes nothing. -/
def State.wakeLine (s : State) (pa : Nat) : State :=
  let h := homeOf pa
  let v := s.homeAt h
  let hit := fun (w : WaitEntry) => !w.isLdf && w.pa / 64 == pa / 64
  if v.waits.any hit then
    let woken := v.waits.filter hit
    (s.setHome h { v with waits := v.waits.filter (fun w => !hit w),
                          outbox := v.outbox ++ (woken.filter fun w => !w.poison).map (·.message s.node) }).consumed (badWaits woken)
  else s

/-- Wake every line that `n` bytes from `pa` touch. -/
def State.wakeRange (s : State) (pa n : Nat) : State :=
  (List.range ((pa % 64 + n + 63) / 64)).foldl (fun s i => s.wakeLine (pa / 64 * 64 + 64 * i)) s

/-- The home cache of a line's home holds it after an access to the line at home; a full cache gives up a free victim. Host memory
passes through no home cache (R11, R134; log entry 53). -/
def State.homeTouch (s : State) (pa : Nat) (dirty : Bool) : State :=
  if windowOf pa = 11 then s
  else
    let h := homeOf pa
    let v := s.homeAt h
    match tabFind v.cache (pa / 64) with
    | some old => s.setHome h { v with cache := listMapIf (fun e => e.1 == pa / 64) (fun e => (e.1, old || dirty)) v.cache }
    | none =>
      if Config.homeCacheLines ≤ v.cache.length then
        { s.setHome h { v with cache := listSet v.cache (Config.freeVictim s.free % Config.homeCacheLines) (pa / 64, dirty) } with free := s.free + 1 }
      else s.setHome h { v with cache := v.cache ++ [(pa / 64, dirty)] }

/-- Every line that `n` bytes from `pa` touch. -/
def State.touchRange (s : State) (pa n : Nat) (dirty : Bool) : State :=
  (List.range ((pa % 64 + n + 63) / 64)).foldl (fun s i => s.homeTouch (pa / 64 * 64 + 64 * i) dirty) s

/-- A write performed at a home store, beside its cache: the bytes, the watchers, and poison cleared by a write of a whole line
(R282, R318, R380). -/
def State.homeStore (s : State) (pa : Nat) (bytes : List Byte) : State :=
  let s := { s with mem := memPutBytes s.mem pa bytes }
  let s := { s with poison := s.poison.filter fun l => !(decide (pa ≤ 64 * l) && decide (64 * l + 64 ≤ pa + bytes.length)) }
  s.wakeRange pa bytes.length

/-- A write performed at a home store through its cache. -/
def State.homeWrite (s : State) (pa : Nat) (bytes : List Byte) : State := (s.touchRange pa bytes.length true).homeStore pa bytes

/-- A write at home of bytes of a translated page: those of a DEVICE page are uncached (R140). -/
def State.storeHome (s : State) (x : Xlat) (pa : Nat) (bytes : List Byte) : State :=
  if x.kind = 5 then s.homeStore pa bytes else s.homeWrite pa bytes
/-- A read at home of bytes of a translated page, as its cache sees it (R140). -/
def State.touchHome (s : State) (x : Xlat) (pa n : Nat) : State := if x.kind = 5 then s else s.touchRange pa n false

def State.homeRead (s : State) (pa n : Nat) : List Byte := memBytes s.mem pa n
def State.linePoisoned (s : State) (pa : Nat) : Bool := s.poison.contains (pa / 64)
/-- A line is poisoned (R380). -/
def State.poisonLine (s : State) (pa : Nat) : State := if s.linePoisoned pa then s else { s with poison := s.poison ++ [pa / 64] }
/-- Whether any line that `n` bytes touch is poisoned. -/
def State.rangePoisoned (s : State) (pa n : Nat) : Bool := s.linePoisoned pa || s.linePoisoned (pa + n - 1)

/-! ### Full/empty state -/

/-- 0 EMPTY, 1 FULL, 2 ABANDONED; scrubbed words are FULL (R142). -/
def State.feOf (s : State) (pa : Nat) : Nat := tabGet 1 s.fe (pa / 8)

/-! ### Table entries (R172, R173) -/

def teV (e : Nat) : Bool := e.testBit 0
def teL (e : Nat) : Bool := e.testBit 1
def teWc (e : Nat) : Bool := e.testBit 2
def teXc (e : Nat) : Bool := e.testBit 3
def teMk (e : Nat) : Nat := bitsOf e 6 4
def teA (e : Nat) : Bool := e.testBit 7
def teD (e : Nat) : Bool := e.testBit 8
def tePl (e : Nat) : Nat := bitsOf e 51 48
def teDrid (e : Nat) : Nat := bitsOf e 61 52
/-- The output address: window and frame. -/
def teOut (e : Nat) : Nat := bitsOf e 51 12 * 4096

/-- Whether a valid entry of either stage at a level is malformed (R172, R173): a DRID belongs to a leaf of kind DRIFT, which stage 2
then refuses by R174. -/
def teMalformed (e level : Nat) : Bool :=
  bitsOf e 63 62 != 0 || bitsOf e 11 9 != 0 ||
  (!teL e && (bitsOf e 8 2 != 0 || teDrid e != 0)) ||
  (teL e && teDrid e != 0 && teMk e != 2) ||
  (teL e && level == 0) || (!teL e && level == 3) ||
  (teL e && level == 1 && bitsOf e 29 12 != 0) || (teL e && level == 2 && bitsOf e 20 12 != 0) ||
  decide (12 ≤ tePl e)

/-- Bytes that a leaf at a level maps. -/
def levelSize (level : Nat) : Nat := 2 ^ (39 - 9 * level)
def levelIndex (a level : Nat) : Nat := (a >>> (39 - 9 * level)) % 512

def xlFault {α : Type} (cause : Nat) (dva level : Nat) (stage2 : Bool) (acc : Acc) : M α :=
  throw (.fault { cause := cause, addr := some (BitVec.ofNat 64 dva),
                  level := some (levelWord level (if stage2 then 2 else 1) acc.write acc.fetch), stage2 := stage2 })

/-- Read one table entry at its home in one 8-byte access (R173, R179); a poisoned line is consumed (R381). -/
def readEntry (pa : Nat) : M Nat := fun s =>
  if s.linePoisoned pa then .error .poison s else .ok (leNat (s.homeRead pa 8)) (s.homeTouch pa false)

/-- The physical address of a byte of a translated page. -/
def Xlat.paOf (x : Xlat) (dva : Nat) : Nat := x.pa + dva % x.span

/-- Read 8 bytes of a translated page at home in one access (R140, R183): of a DEVICE page, uncached. -/
def readWord (x : Xlat) (dva : Nat) : M Nat := fun s =>
  let pa := x.paOf dva
  if s.linePoisoned pa then .error .poison s else .ok (leNat (s.homeRead pa 8)) (s.touchHome x pa 8)

/-- Set A, and D for a write, by an atomic OR at the leaf's home (R176). -/
def markLeaf (pa e : Nat) (write : Bool) : M Unit := fun s =>
  let e' := e ||| 128 ||| (if write then 256 else 0)
  if e' = e then .ok () s else .ok () (s.homeWrite pa (leBytes 8 e'))

/-- What stage 2 gives for an address: PA, MK, Wc, Xc, the level and the bytes of the leaf, and the leaf's place and value where a walk
read one (R170 to R174). -/
structure Out2 where
  pa : Nat
  kind : Nat
  wc : Bool
  xc : Bool
  level : Nat
  span : Nat
  leaf : Option (Nat × Nat)

/-- The leaf is used by an access (R176). -/
def Out2.mark (x : Out2) (write : Bool) : M Unit :=
  match x.leaf with
  | some (pe, e) => markLeaf pe e write
  | none => return ()

/-- Whether a held pointer is the one that a walk is about to read: of its stage and owner, at its level and place. -/
def Pointer.serves (p : Pointer) (second : Bool) (owner level a place : Nat) : Bool :=
  p.second == second && p.owner == owner && p.level == level && p.upper == a / levelSize level && p.place == place

/-- The pointer that the walk cache of a unit holds for a walk (R178). -/
def State.heldPointer (s : State) (unit : Nat) (second : Bool) (owner level a place : Nat) : Option Nat :=
  ((s.homeAt unit).walks.find? fun p => p.serves second owner level a place).map (·.entry)

/-- A pointer just read enters the unit's walk cache; a full cache gives up a free victim (R178; log entry 6). -/
def State.keepPointer (s : State) (unit : Nat) (p : Pointer) : State :=
  let h := s.homeAt unit
  if Config.walkEntries ≤ h.walks.length then
    { s.setHome unit { h with walks := listSet h.walks (Config.freeVictim s.free % Config.walkEntries) p } with free := s.free + 1 }
  else s.setHome unit { h with walks := h.walks ++ [p] }

/-- Stage 2 from a table page, on the unit of a home die (R170 to R174, R178, R179). -/
def stage2Walk (unit part dva ra : Nat) (acc : Acc) : Nat → Nat → Nat → M Out2
  | 0, _, level => xlFault 0x11 dva level true acc
  | n + 1, tbl, level => do
    let pe := tbl + 8 * levelIndex ra level
    let s ← getS
    match s.heldPointer unit true part level ra pe with
    | some e => stage2Walk unit part dva ra acc n (teOut e) (level + 1)
    | none =>
      let e ← readEntry pe
      if !teV e then xlFault 0x10 dva level true acc
      else if teMalformed e level then xlFault 0x11 dva level true acc
      else if teL e then
        let pa := teOut e + ra % levelSize level
        let mk := teMk e
        let s ← getS
        if !(mk == 0 || mk == 4 || mk == 5) || tePl e != windowOf ra || !s.leafInWindow (teOut e) (levelSize level) then
          xlFault 0x12 dva level true acc
        else return ({ pa := pa, kind := mk, wc := teWc e, xc := teXc e, level := level, span := levelSize level,
                          leaf := some (pe, e) } : Out2)
      else do
        modS fun s => s.keepPointer unit { second := true, owner := part, level := level, upper := ra / levelSize level, place := pe, entry := e }
        stage2Walk unit part dva ra acc n (teOut e) (level + 1)

/-- The largest of a leaf's sizes around a physical address that lies within its window. -/
def State.bypassSpan (s : State) (pa : Nat) : Nat :=
  (([1, 2].map levelSize).find? fun z => s.leafInWindow (pa / z * z) z).getD (levelSize 3)

/-- Stage 2 of a lease's address; bypassed for lease 0 (R170), where an address beyond its window is a KIND fault of stage 2 with level 3: the
spec gives it no level (DESIGN CHOICE; log entry 66). -/
def stage2 (lease dva ra : Nat) (acc : Acc) : M Out2 := do
  let s ← getS
  if lease = 0 then
    (if s.inWindow ra then return ({ pa := ra, kind := 0, wc := true, xc := true, level := 3, span := s.bypassSpan ra,
                                       leaf := none } : Out2)
     else xlFault 0x12 dva 3 true acc)
  else match s.partAt (s.leaseD lease).part with
    | some p => stage2Walk (homeOf p.s2root) (s.leaseD lease).part dva ra acc 4 p.s2root 0
    | none => xlFault 0x10 dva 0 true acc

/-- Whether a leaf's ceilings refuse an access (R176). -/
def Acc.refused (acc : Acc) (wc xc : Bool) : Bool := (acc.write && !wc) || (acc.fetch && !xc)

/-- Stage 1 from a table page named by an RA, on the unit of a home die (R170 to R174, R178, R179). A leaf that refuses the access
ends the walk, stage 1 first (R177), before A and D are set (log entry 31). -/
def stage1Walk (unit lease dva : Nat) (acc : Acc) : Nat → Nat → Nat → M Xlat
  | 0, _, level => xlFault 0x11 dva level false acc
  | n + 1, tblRa, level => do
    let re := tblRa + 8 * levelIndex dva level
    let s ← getS
    match s.heldPointer unit false lease level dva re with
    | some e => stage1Walk unit lease dva acc n (teOut e) (level + 1)
    | none =>
      let t : Out2 ← stage2 lease dva re { write := false, fetch := false }
      t.mark false
      let e ← readEntry t.pa
      if !teV e then xlFault 0x10 dva level false acc
      else if teMalformed e level then xlFault 0x11 dva level false acc
      else if teL e then
        let mk := teMk e
        if 6 ≤ mk || (mk == 2 && 8 < tePl e) || (mk == 3 && tePl e != 10) then xlFault 0x12 dva level false acc
        else if acc.refused (teWc e) (teXc e) then xlFault 0x13 dva level false acc
        else do
          let ra := teOut e + dva % levelSize level
          let x : Out2 ← stage2 lease dva ra acc
          if (x.kind == 4 && mk == 3) || (x.kind == 5 && mk != 5) then xlFault 0x12 dva x.level true acc
          else if acc.refused x.wc x.xc then xlFault 0x13 dva x.level true acc
          else do
            x.mark acc.write
            markLeaf t.pa e acc.write
            let span := min (levelSize level) x.span
            return { lease := lease, span := span, page := dva / span, pa := x.pa / span * span, ra := ra / span * span,
                     kind := if mk == 0 && x.kind == 4 then 4 else mk, region := teDrid e, wc1 := teWc e, xc1 := teXc e, lv1 := level,
                     wc2 := x.wc, xc2 := x.xc, lv2 := x.level, dirty := acc.write || teD e }
      else do
        modS fun s => s.keepPointer unit { second := false, owner := lease, level := level, upper := dva / levelSize level, place := re, entry := e,
                                            via := t.span }
        stage1Walk unit lease dva acc n (teOut e) (level + 1)

/-- A walk runs on the unit of the home die that holds the stage-1 root page (R179; log entry 33). -/
def walkTables (lease dva : Nat) (acc : Acc) : M Xlat := do
  let s ← getS
  let root := (s.leaseD lease).s1root
  let t : Out2 ← stage2 lease dva (root + 8 * levelIndex dva 0) { write := false, fetch := false }
  stage1Walk (homeOf t.pa) lease dva acc 4 root 0

/-- Whether a translation is of the page of a lease that holds an address (R178). -/
def Xlat.covers (x : Xlat) (lease dva : Nat) : Bool := x.lease == lease && x.page == dva / x.span

/-- The ceilings of an access to a held line or translation (R176, R177): stage 1 refuses first. -/
def checkCeil (dva : Nat) (acc : Acc) (wc1 xc1 : Bool) (lv1 : Nat) (wc2 xc2 : Bool) (lv2 : Nat) : M Unit :=
  if acc.refused wc1 xc1 then xlFault 0x13 dva lv1 false acc
  else if acc.refused wc2 xc2 then xlFault 0x13 dva lv2 true acc
  else return ()

/-- A page walk, its result kept in the die's translation cache: a full cache gives up a free victim (R178; log entry 6). -/
def walk (die lease dva : Nat) (acc : Acc) : M Xlat := do
  let x ← walkTables lease dva acc
  modS fun s =>
    let d := s.dieAt die
    let rest := d.dtc.filter fun y => !y.covers lease dva
    if Config.dtcEntries ≤ rest.length then
      { s.setDie die { d with dtc := listSet rest (Config.freeVictim s.free % Config.dtcEntries) x } with free := s.free + 1 }
    else s.setDie die { d with dtc := rest ++ [x] }
  return x

/-- Translate a page of a lease for an access that leaves a die (R177, R178): a held translation serves unless the access writes and the leaf of
stage 1 was not dirty. A write that a held translation serves makes no walk, so that a stage-2 leaf whose D is 0 keeps it: R178 gives an entry no
dirty bit, and R176 speaks of the walk (DESIGN CHOICE; log entry 69). -/
def translate (die lease dva : Nat) (acc : Acc) : M Xlat := do
  let s ← getS
  match (s.dieAt die).dtc.find? fun x => x.covers lease dva with
  | some x => if acc.write && !x.dirty && x.wc1 && x.wc2 then walk die lease dva acc else do
      checkCeil dva acc x.wc1 x.xc1 x.lv1 x.wc2 x.xc2 x.lv2
      return x
  | none => walk die lease dva acc

/-! ### Rights (R182, R183) -/

def rightsFault {α : Type} (cause dva : Nat) (acc : Acc) : M α :=
  throw (.fault { cause := cause, addr := some (BitVec.ofNat 64 dva), level := some (levelWord 15 1 acc.write acc.fetch) })

/-- Read 8 bytes of the rights table through the lease's translation, at home (R183). -/
def readRights (die lease off : Nat) : M Nat := do
  let dva := Config.rightsTable + off
  let x ← translate die lease dva { write := false, fetch := false }
  readWord x dva

/-- Search a range list for a segment (R182, R183); 1 in bit 64 marks a malformed entry that contains it. -/
def searchRights (die lease seg : Nat) : Nat → Nat → M Nat
  | 0, _ => return 0
  | n + 1, off => do
    let e ← readRights die lease off
    if bitsOf e 25 0 ≤ seg && seg ≤ bitsOf e 51 26 then
      return (if bitsOf e 63 56 != 0 then 2 ^ 64 else e)
    else searchRights die lease seg n (off + 8)

/-- The rights of a domain on a segment, from the PLB or the table (R183). -/
def plbRights (c lease dom dva : Nat) (acc : Acc) : M PlbEntry := do
  let seg := dva / 2 ^ 21
  let s ← getS
  match (s.coreAt c).plb.find? fun p => p.lease == lease && p.dom == dom && p.seg == seg with
  | some p => return p
  | none =>
    let read : M Nat := do
      let d ← readRights (dieOf c) lease (8 * dom)
      let count := bitsOf d 47 32
      let off := bitsOf d 31 0
      if bitsOf d 63 48 != 0 then return 2 ^ 64
      else if count = 0 then return 0
      else if off % 8 != 0 || Config.rightsSize < off + 8 * count then return 2 ^ 64
      else searchRights (dieOf c) lease seg count off
    let r ← catchM read
    match r with
    | .error .poison => throw .poison
    | .error _ => rightsFault 0x15 dva acc
    | .ok e =>
      if 2 ^ 64 ≤ e then rightsFault 0x15 dva acc
      else do
        let p : PlbEntry := { lease := lease, dom := dom, seg := seg, r := e.testBit 52, w := e.testBit 53,
                              x := e.testBit 54, g := e.testBit 55 }
        modS fun s =>
          let k := s.coreAt c
          if Config.plbEntries ≤ k.plb.length then
            { s.setCore c { k with plb := listSet k.plb (Config.freeVictim s.free % Config.plbEntries) p } with free := s.free + 1 }
          else s.setCore c { k with plb := k.plb ++ [p] }
        return p

/-- The rights check of an access (R182, R183). -/
def checkRights (c lease dom dva : Nat) (acc : Acc) : M Unit := do
  if dva / 2 ^ 21 = Config.rightsTable / 2 ^ 21 && !acc.fetch && (dom = 0 || acc.write) then
    (if dom = 0 then return () else rightsFault 0x14 dva acc)
  else do
    let p ← plbRights c lease dom dva acc
    let ok := if acc.fetch then p.x else if acc.write then p.w else p.r
    if ok then return () else rightsFault 0x14 dva acc

end Sys2Proof.Machine
end

