-- ==== Sys2Proof/Machine/DriftOps.lean ====
section
/-! DEFINITION. Drift regions: grants, withheld additions, and the drains that bring them home (R335 to R345, R348). -/

namespace Sys2Proof.Machine

def Lease.region (l : Lease) (r : Nat) : Region := tabGet Region.init l.regions r
def State.regionAt (s : State) (lease r : Nat) : Region := (s.leaseD lease).region r
def State.setRegion (s : State) (lease r : Nat) (v : Region) : State :=
  s.countLease lease fun l => { l with regions := tabPut l.regions r v }

/-- A 32-bit counter that holds its last value (R336). -/
def sat32 (n : Nat) : Nat := if n < 2 ^ 32 - 1 then n + 1 else n

/-- The exact sum of the shares, in units of 2^−149. -/
def Region.shares (r : Region) : Int := r.share.foldl (fun n e => n + fpUnits e.2) 0
/-- U := RoundDown(L − sum of SHARE) (R341). -/
def Region.recomputeU (r : Region) : Region := { r with u := fpOfUnits 1 (fpUnits r.l - r.shares) }
def Region.shareOf (r : Region) (d : Nat) : Lane := tabGet 0#32 r.share d

/-- Perform a FADD.S reduction at the home atomic unit (R303, R314). -/
def State.faddHome (s : State) (pa : Nat) (b : Lane) : State :=
  let old : Lane := BitVec.ofNat 32 (leNat (s.homeRead pa 4))
  s.homeWrite pa (leBytes 4 (fpAddNe old b).toNat)

/-- The controller's answer to a request for a share (R341): the share, zero where it grants nothing. -/
def State.grantShare (s : State) (die lease region : Nat) : State × Lane :=
  let r := s.regionAt lease region
  let quarter := (fpMul 1 r.l 0x3E800000#32).1
  let g := if r.pend then 0#32 else if fpUnits quarter ≤ fpUnits r.u then quarter else r.u
  if 0 < fpUnits g then
    let r := ({ r with share := tabPut r.share die g }).recomputeU
    let s := s.setRegion lease region { r with grants := sat32 r.grants }
    let d := s.dieAt die
    (s.setDie die { d with trackers := d.trackers ++ [{ lease := lease, region := region, mag := 0, share := g }] }, g)
  else (s, 0#32)

def Die.tracker (d : Die) (lease region : Nat) : Option Tracker := d.trackers.find? fun t => t.lease == lease && t.region == region
def Die.setMag (d : Die) (lease region : Nat) (m : Lane) : Die :=
  { d with trackers := d.trackers.map fun t => if t.lease == lease && t.region == region then { t with mag := m } else t }
def Die.deltasOf (d : Die) (lease region : Nat) : List Delta := d.deltas.filter fun e => e.lease == lease && e.region == region

/-- Drain a die's region: every delta entry is performed at its home and freed, and MAG is 0 (R342). -/
def State.drainRegion (s : State) (die lease region : Nat) : State :=
  let d := s.dieAt die
  let s := s.setDie die (({ d with deltas := d.deltas.filter fun e => !(e.lease == lease && e.region == region) }).setMag lease region 0)
  (d.deltasOf lease region).foldl (fun s e => s.faddHome e.pa e.val) s

/-- A share goes back to the controller, and the tracker is gone (R342, R345). -/
def State.returnShare (s : State) (die lease region : Nat) : State :=
  let d := s.dieAt die
  let s := s.setDie die { d with trackers := d.trackers.filter fun t => !(t.lease == lease && t.region == region) }
  let r := s.regionAt lease region
  s.setRegion lease region ({ r with share := tabDel r.share die }).recomputeU

/-- A forced drain (R345). -/
def State.forceDrain (s : State) (die lease region : Nat) : State :=
  let s := (s.drainRegion die lease region).returnShare die lease region
  let r := s.regionAt lease region
  s.setRegion lease region { r with forced := sat32 r.forced }

/-- A qualifying RED leaves its store buffer (R339, R340); true when it was performed at its home. -/
def State.withhold (s : State) (die lease region pa : Nat) (b : Lane) : State × Bool :=
  if fpIsZero b then (s, false) else
  let m := fpUnits (b &&& 0x7FFFFFFF#32)
  let (s, ok) := match (s.dieAt die).tracker lease region with
    | some _ => (s, true)
    | none =>
      if Config.trackers ≤ (s.dieAt die).trackers.length then (s, false)
      else
        let (s', g) := s.grantShare die lease region
        (s', decide (0 < fpUnits g))
  if !ok then (s.faddHome pa b, true) else
  match (s.dieAt die).tracker lease region with
  | none => (s.faddHome pa b, true)
  | some t =>
    let share := fpUnits t.share
    let beyond := decide (share < fpUnits (fpOfUnits 3 (fpUnits t.mag + m)))
    if beyond && decide (share < m) then (s.faddHome pa b, true) else
    let s := if beyond then
        let s := s.drainRegion die lease region
        let r := s.regionAt lease region
        s.setRegion lease region { r with self := sat32 r.self }
      else s
    let d := s.dieAt die
    let hit := fun (e : Delta) => e.lease == lease && e.region == region && e.pa == pa
    if !d.deltas.any hit && decide (Config.deltaEntries ≤ d.deltas.length) then (s.faddHome pa b, true) else
    let deltas := if d.deltas.any hit then listMapIf hit (fun e => { e with val := fpAddNe e.val b }) d.deltas
      else d.deltas ++ [{ lease := lease, region := region, pa := pa, val := fpAddNe 0#32 b }]
    let mag := (d.tracker lease region).elim 0#32 (·.mag)
    (s.setDie die (({ d with deltas := deltas }).setMag lease region (fpOfUnits 3 (fpUnits mag + m))), false)

/-- Dies 0 to 7 that hold a share, the largest first, the lowest number on a tie (R344). -/
def Region.largest (r : Region) : Option Nat :=
  r.share.foldl (fun b e => match b with
    | none => some e.1
    | some d => if fpUnits (r.shareOf d) < fpUnits e.2 then some e.1 else some d) none

/-- The drains an LDE forces until the shares and LOSS are within its tolerance (R344): at most one a die. `t` is in
units of 2^−149, `none` for +∞. Answers the state and whether a drain was forced. -/
def State.forceWithin (s : State) (lease region : Nat) (t : Option Int) : Nat → Bool → State × Bool
  | 0, f => (s, f)
  | n + 1, f =>
    let r := s.regionAt lease region
    match t with
    | none => (s, f)
    | some t =>
      if r.shares + fpUnits r.loss ≤ t then (s, f)
      else match r.largest with
        | none => (s, f)
        | some d => (s.forceDrain d lease region).forceWithin lease region (some t) n true

end Sys2Proof.Machine
end

