-- ==== Sys2Proof/Machine/Operands.lean ====
section
/-! DEFINITION. Every operand form of memory: the checks of an address (R136, R143), the place it names, loads with
forwarding, store-buffer entries and their drains, remote copies, atomics at their places, releases and acquires
(R134 to R146, R281 to R307, R313 to R316). -/

namespace Sys2Proof.Machine

/-- Who makes an access: the core, lease and domain, the scratch window of a gate callee, and the slot that counts it and
whose stores it sees. -/
structure Party where
  core : Nat
  lease : Nat
  dom : Nat
  win : Option (Nat × Nat)
  slot : Option Nat

/-- The scratch window of the innermost frame (R366). -/
def Slot.window (t : Slot) : Option (Nat × Nat) :=
  match t.frames with
  | [] => none
  | f :: _ => some (f.sbase, f.ssize)

/-- The issuing slot as a party. -/
def partyM : M Party := fun s =>
  .ok { core := s.core, lease := s.cur.lease, dom := s.cur.dom.toNat, win := s.cur.window, slot := some s.slot } s

/-- A slot as a party. -/
def State.slotParty (s : State) (c k : Nat) : Party :=
  let t := s.slotAt c k
  { core := c, lease := t.lease, dom := t.dom.toNat, win := t.window, slot := some k }

/-- Hardware that acts for a lease: domain 0, no slot (R418). -/
def Party.hw (core lease : Nat) : Party := { core := core, lease := lease, dom := 0, win := none, slot := none }

/-! ### Address checks -/

def addrFault {α : Type} (cause : Nat) (ea : Word) : M α := faultM cause (some ea)

def inLocal (a : Nat) : Bool := decide (Config.localBase ≤ a) && decide (a < 2 ^ 47)

/-- The bytes from an offset of the local window, checked against what is backed, a callee's window and the protected offsets (R47, R136, R366). -/
def checkOffset (p : Party) (ea : Word) (off n : Nat) (write : Bool) : M Unit := do
  if Config.localBacked ≤ off then addrFault causeSpad ea
  match p.win with
  | some (base, size) => if off < base || base + size < off + n then addrFault causeSpad ea
  | none => pure ()
  if write && decide (Config.protectedOff < off + n) then addrFault causePriv ea

def Xlat.dirtied (x : Xlat) : Xlat := { x with dirty := true }
def Line.dirtied (l : Line) : Line := { l with x := l.x.dirtied }

/-- The translation of an access outside the local window: what a held line keeps, with an upgrade for a write to a line
that is not writable, else the die's translation (R135, R177). -/
def translateHeld (p : Party) (a : Nat) (acc : Acc) : M Xlat := do
  let die := dieOf p.core
  let s ← getS
  match (s.dieAt die).lines.find? fun l => l.x.lease == p.lease && l.line == a / 64 with
  | some l =>
    checkCeil a acc l.x.wc1 l.x.xc1 l.x.lv1 l.x.wc2 l.x.xc2 l.x.lv2
    if acc.write && !l.x.dirty then
      let _ ← translate die p.lease a acc
      modS fun s =>
        let d := s.dieAt die
        let lines := listMapIf (fun m => m.x.lease == p.lease && m.line == a / 64) Line.dirtied d.lines
        s.setDie die { d with lines := lines }
      return l.x.dirtied
    else return l.x
  | none => translate die p.lease a acc

/-- The checks of R143 in their order, and the place that passes them. -/
def checkPlace (p : Party) (ea : Word) (n : Nat) (write : Bool) : M Place := accessing { write := write, fetch := false } do
  let a := ea.toNat
  let acc : Acc := { write := write, fetch := false }
  if a % n != 0 then addrFault causeAlign ea
  if 2 ^ 48 ≤ a then addrFault causeDaddr ea
  if 2 ^ 47 ≤ a then addrFault causeAper ea
  if inLocal a then
    checkOffset p ea (a - Config.localBase) n write
    checkRights p.core p.lease p.dom a acc
    return .spad (a - Config.localBase)
  else
    checkRights p.core p.lease p.dom a acc
    let x ← translateHeld p a acc
    return .mem a x

/-! ### The scratchpad -/

/-- A byte of the scratchpad: zero when never written, the scratch map all ones (R48). -/
def LCore.spadByte (l : LCore) (off : Nat) : Byte :=
  tabGet (if Config.scratchMap ≤ off ∧ off < Config.scratchMap + 8 then 0xFF#8 else 0#8) l.spad off

def LCore.spadBytes (l : LCore) (off : Nat) : Nat → List Byte
  | 0 => []
  | n + 1 => l.spadByte off :: l.spadBytes (off + 1) n

/-- Write bytes of the scratchpad; bit 63 of the scratch map reads 1 (R48), and a write of a whole 64-byte line clears
poison (R380; log entry 14). -/
def LCore.putSpad (l : LCore) (off : Nat) : List Byte → LCore
  | [] => l
  | b :: bs =>
    let v := if off = Config.scratchMap + 7 then b ||| 0x80#8 else b
    ({ l with spad := tabPut l.spad off v }).putSpad (off + 1) bs

def LCore.writeSpad (l : LCore) (off : Nat) (bs : List Byte) : LCore :=
  let l := l.putSpad off bs
  { l with spadPoison := l.spadPoison.filter fun w =>
      !(decide (off ≤ w * 8 / 64 * 64) && decide (w * 8 / 64 * 64 + 64 ≤ off + bs.length)) }

/-- Whether a word that `n` bytes from an offset touch is poisoned (R381). -/
def LCore.spadPoisoned (l : LCore) (off n : Nat) : Bool :=
  l.spadPoison.any fun w => decide (off / 8 ≤ w) && decide (w ≤ (off + n - 1) / 8)

def LCore.readSpad (l : LCore) (off n : Nat) : Nat := leNat (l.spadBytes off n)

/-! ### Lines of a die (R283, R285, R299 to R301) -/

/-- Whether a core die sees a line as its die view: homed on its paired home, host memory excepted (R282, R305). -/
def ownView (die pa : Nat) : Bool := homeOf pa == die && windowOf pa != 11

/-- Kinds whose lines a core die may hold (R140). -/
def Xlat.cached (x : Xlat) : Bool := x.kind == 0 || x.kind == 3

def Line.is (l : Line) (lease ln : Nat) : Bool := l.x.lease == lease && l.line == ln
def Line.pa (l : Line) : Nat := l.x.paOf (l.line * 64)
/-- The RA of a line, which its hidden state records (R177). -/
def Line.ra (l : Line) : Nat := l.x.ra + l.line * 64 % l.x.span
def State.lineOf (s : State) (die lease ln : Nat) : Option Line := (s.dieAt die).lines.find? fun l => l.is lease ln
def State.mapLine (s : State) (die lease ln : Nat) (f : Line → Line) : State :=
  let d := s.dieAt die
  s.setDie die { d with lines := listMapIf (fun l => l.is lease ln) f d.lines }

/-- A request of a slot served by a home: `hlc` for the paired home die, `hrc` for the rest (R141). -/
def State.countHome (s : State) (c : Nat) (slot : Option Nat) (pa : Nat) : State :=
  match slot with
  | none => s
  | some k =>
    let t := s.slotAt c k
    if homeOf pa = dieOf c then s.setSlot c k { t with hlc := t.hlc + 1 } else s.setSlot c k { t with hrc := t.hrc + 1 }

/-- Replace bytes of a list from a position. -/
def putAt (l : List Byte) (o : Nat) : List Byte → List Byte
  | [] => l
  | b :: bs => putAt (listSet l o b) (o + 1) bs

/-- The dirty bits of the 4-byte words that `n` bytes from `o` touch (R300). -/
def dirtyMask (o n : Nat) : BitVec 16 := BitVec.ofNat 16 ((2 ^ ((o + n + 3) / 4 - o / 4) - 1) * 2 ^ (o / 4))

/-- WRITEBACK of a line: each dirty word whole, a line dirty everywhere in one write (R285, R300, R301). Poison goes with what is written
back (R380). -/
def State.writebackLine (s : State) (die lease ln : Nat) : State :=
  match s.lineOf die lease ln with
  | none => s
  | some l =>
    let s := s.mapLine die lease ln fun l => { l with dirty := 0 }
    if l.dirty = 0xFFFF#16 && !l.poison then s.homeWrite l.pa l.bytes
    else (List.range 16).foldl (fun s i =>
      if l.dirty.getLsbD i then s.homeWrite (l.pa + 4 * i) ((l.bytes.drop (4 * i)).take 4) else s)
      (if l.poison && l.dirty != 0#16 then s.poisonLine l.pa else s)

/-- EVICT of a line. -/
def State.evictLine (s : State) (die lease ln : Nat) : State :=
  let d := s.dieAt die
  s.setDie die { d with lines := d.lines.filter fun l => !l.is lease ln }

/-- WRITEBACK and EVICT of the die's remote copy of a line (R287). -/
def State.flushLine (s : State) (die lease ln : Nat) : State :=
  match s.lineOf die lease ln with
  | some l => if l.remote then (s.writebackLine die lease ln).evictLine die lease ln else s
  | none => s

/-- What an access at a home on behalf of a slot does first, in the same move: the remote copy of its die is written back and evicted
for the line (R287). A die that has been reset since holds nothing of it. -/
def State.homeFlush (s : State) (who : Asker) (dva : Nat) : State :=
  if who.inc = (s.dieAt (dieOf who.core)).inc then s.flushLine (dieOf who.core) who.lease (dva / 64) else s

/-- An LDF that waited reads its word, which is FULL or ABANDONED now: the move of R292, with what R287 does before it; poison is consumed
(R381). -/
def State.answerLdf (s : State) (w : WaitEntry) : State :=
  let s := s.homeFlush w.asker w.dva
  if w.poison || s.linePoisoned w.pa then s.poisoned w.lease
  else { s with notices := s.notices ++ [{ who := w.asker, val := BitVec.ofNat 64 (leNat (s.homeRead w.pa w.n)), ab := s.feOf w.pa = 2,
                                           acq := true, retry := false }] }

/-- The LDF entries of a word that has become FULL or ABANDONED answer with its data, in park order (R148, R324). -/
def State.answerLdfs (s : State) (pa : Nat) : State :=
  if s.feOf pa = 0 then s
  else
    let h := homeOf pa
    let v := s.homeAt h
    let hit := fun (w : WaitEntry) => w.isLdf && w.pa / 8 == pa / 8
    if v.waits.any hit then (v.waits.filter hit).foldl State.answerLdf (s.setHome h { v with waits := v.waits.filter fun w => !hit w }) else s

/-- Set a word's state, and answer its LDFs. -/
def State.setFe (s : State) (pa v : Nat) : State :=
  let s := { s with fe := if v = 1 then tabDel s.fe (pa / 8) else tabPut s.fe (pa / 8) v }
  s.answerLdfs pa

/-- The line that a full cache gives up of those that satisfy a test: a free choice (R301; log entry 53). -/
def victimOf (lines : List Line) (p : Line → Bool) (n : Nat) : Option Line :=
  (lines.filter p)[Config.freeVictim n % (lines.filter p).length]?

/-- Room in the die cache, or in the RDC, for one more line: where it is full a victim leaves the die, written back before where it is a
remote copy (R10, R134, R301). -/
def State.makeRoom (s : State) (die : Nat) (remote : Bool) : State :=
  let lines := (s.dieAt die).lines
  if (lines.filter fun l => l.remote == remote).length < (if remote then Config.rdcLines else Config.dieCacheLines) then s
  else match victimOf lines (fun l => l.remote == remote) s.free with
    | some v => ({ s with free := s.free + 1 } : State).writebackLine die v.x.lease v.line |>.evictLine die v.x.lease v.line
    | none => s

/-- FILL where the die holds no copy of the line (R285); counted once for the slot it serves, of the core `c`. -/
def State.fillLine (s : State) (c : Nat) (slot : Option Nat) (dva : Nat) (x : Xlat) : State :=
  let die := dieOf c
  match s.lineOf die x.lease (dva / 64) with
  | some _ => s
  | none =>
    let pa := x.paOf dva / 64 * 64
    let remote := !ownView die pa
    let s := (s.makeRoom die remote).homeTouch pa false
    let d := s.dieAt die
    let l : Line := { x := x, line := dva / 64, remote := remote, bytes := if remote then s.homeRead pa 64 else [], dirty := 0,
                      poison := remote && s.linePoisoned pa }
    (s.setDie die { d with lines := d.lines ++ [l] }).countHome c slot pa

/-- A line that the die holds enters the row cache of a core's row; a full row cache gives up a victim, which stays in the die cache or
the RDC (R9, R134; log entry 53). -/
def State.rowHold (s : State) (c lease ln : Nat) : State :=
  let die := dieOf c
  let r := rowOf c % 32
  match s.lineOf die lease ln with
  | none => s
  | some l =>
    if l.rows.contains r then s
    else
      let lines := (s.dieAt die).lines
      let held := fun (m : Line) => m.rows.contains r
      let s := if (lines.filter held).length < Config.rowCacheLines then s
        else match victimOf lines held s.free with
          | some v => ({ s with free := s.free + 1 } : State).mapLine die v.x.lease v.line fun m => { m with rows := m.rows.filter (· != r) }
          | none => s
      s.mapLine die lease ln fun m => { m with rows := r :: m.rows }

/-- A line is held for an access of a core: in its die, and in its row's cache (R134). -/
def State.holdLine (s : State) (c : Nat) (slot : Option Nat) (dva : Nat) (x : Xlat) : State :=
  (s.fillLine c slot dva x).rowHold c x.lease (dva / 64)

/-- A release at pkg scope: every dirty word of the die's remote copy (R288). -/
def State.writebackAll (s : State) (die : Nat) : State :=
  (s.dieAt die).lines.foldl (fun s l => s.writebackLine die l.x.lease l.line) s

/-- An acquire at pkg scope: WRITEBACK and EVICT of every line of the remote copy (R288). -/
def State.evictAll (s : State) (die : Nat) : State :=
  let s := s.writebackAll die
  let d := s.dieAt die
  s.setDie die { d with lines := d.lines.filter fun l => !l.remote }

/-! ### Reading a location -/

/-- The bytes of a checked memory access from its location under R283; poison is consumed (R381). -/
def readLoc (c : Nat) (slot : Option Nat) (dva n : Nat) (x : Xlat) : M (List Byte) := fun s =>
  let pa := x.paOf dva
  let die := dieOf c
  if x.cached then
    let s := s.holdLine c slot dva x
    if ownView die pa then
      if s.rangePoisoned pa n then .error .poison s else .ok (s.homeRead pa n) s
    else match s.lineOf die x.lease (dva / 64) with
      | some l => if l.poison then .error .poison s else .ok ((l.bytes.drop (dva % 64)).take n) s
      | none => .ok (s.homeRead pa n) s
  else
    let s := (s.countHome c slot pa).touchHome x pa n
    if s.rangePoisoned pa n then .error .poison s else .ok (s.homeRead pa n) s

/-! ### Writing a location -/

/-- The lehr of a persistent address (R137, R352). -/
def portOf (pa : Nat) : Nat := bitsOf pa 13 12

/-- Bytes in the durable store. -/
def durablePut (t : Tab Byte) (pa : Nat) : List Byte → Tab Byte
  | [] => t
  | b :: bs => durablePut (tabPut t pa b) (pa + 1) bs

def State.lehr (s : State) (port : Nat) : List Record := tabGet [] s.lehrs port
def State.setLehr (s : State) (port : Nat) (l : List Record) : State := { s with lehrs := tabPut s.lehrs port l }

/-- RETIRE of the oldest accepted record of a lehr (R357). -/
def State.retire (s : State) (port : Nat) : State :=
  let q := s.lehr port
  match listIndex (fun (r : Record) => r.accepted) q with
  | none => s
  | some i =>
    match q[i]? with
    | none => s
    | some r => { s.setLehr port (listDrop q i) with
                    durable := durablePut s.durable r.pa r.bytes,
                    durPoison := if r.poison then r.pa / 64 :: s.durPoison else if 64 ≤ r.bytes.length then s.durPoison.filter (· != r.pa / 64) else s.durPoison }

/-- A write-through of a port whose lehr is full, and whose home holds a record back already, stalls until the expander completes the
oldest accepted record (R352; log entry 63). -/
def State.lehrStall (s : State) (port : Nat) : State :=
  let q := s.lehr port
  if decide (Config.lehrUnits ≤ (q.filter (·.accepted)).length) && q.any (fun r => !r.accepted) then s.retire port else s

/-- The WRITE move of a persistent store: an in-flight record (R357). -/
def State.record (s : State) (c k : Nat) (gen : BitVec 8) (epoch pa : Nat) (bytes : List Byte) : State :=
  let s := s.lehrStall (portOf pa)
  let r : Record := { core := c, slot := k, gen := gen, epoch := epoch, pa := pa, bytes := bytes, accepted := false }
  s.setLehr (portOf pa) (s.lehr (portOf pa) ++ [r])

/-- The slot a store-buffer entry counts for: the one that still holds its task, unless an engine made the store. -/
def State.entrySlot (s : State) (c : Nat) (e : SbEntry) : Option Nat :=
  let t := s.slotAt c e.slot
  if t.gen = e.gen ∧ t.isLive ∧ e.eng = false then some e.slot else none

/-- Bytes written into the remote copy of a line, with their dirty bits where it is to be written back; a write of the whole line clears
its poison (R380). -/
def Line.write (l : Line) (o : Nat) (bytes : List Byte) (dirty : Bool) : Line :=
  { l with bytes := putAt l.bytes o bytes, dirty := if dirty then l.dirty ||| dirtyMask o bytes.length else l.dirty,
           poison := l.poison && !(o == 0 && decide (64 ≤ bytes.length)) }

/-- Write bytes of a store at their location under R283. -/
def State.writeLoc (s : State) (c : Nat) (e : SbEntry) (bytes : List Byte) : State :=
  let die := dieOf c
  let x := e.x
  let pa := x.paOf e.dva
  let slot := s.entrySlot c e
  if x.kind = 0 then
    let s := s.holdLine c slot e.dva x
    if ownView die pa then s.homeWrite pa bytes
    else s.mapLine die x.lease (e.dva / 64) fun l => l.write (e.dva % 64) bytes true
  else if x.kind = 3 then
    let s := s.countHome c slot pa
    let s := if ownView die pa then s else s.mapLine die x.lease (e.dva / 64) fun l => l.write (e.dva % 64) bytes false
    (s.homeWrite pa bytes).record c e.slot e.gen e.epoch pa bytes
  else (s.countHome c slot pa).storeHome x pa bytes

/-! ### Atomic operations (R314) -/

/-- The new value of an atomic operation of `n` bytes, and whether it writes: a CAS that fails does not. -/
def atomicOp (op n : Nat) (old b e : Nat) : Nat × Bool :=
  let m := 2 ^ (8 * n)
  let sg := fun (v : Nat) => if 2 * v < m then (v : Int) else (v : Int) - m
  match op with
  | 0 => ((old + b) % m, true)
  | 1 => (b, true)
  | 2 => if old = e then (b, true) else (old, false)
  | 3 => (old &&& b, true)
  | 4 => (old ||| b, true)
  | 5 => (old ^^^ b, true)
  | 6 => (if sg b < sg old then b else old, true)
  | 7 => (if sg old < sg b then b else old, true)
  | 8 => (if b < old then b else old, true)
  | 9 => (if old < b then b else old, true)
  | _ => ((fpAddNe (BitVec.ofNat 32 old) (BitVec.ofNat 32 b)).toNat, true)

/-- The AMO operation that a RED operation is (R315): ADD, FADD.S, MAX, MIN. -/
def redOp (op : Nat) : Nat :=
  match op with
  | 0 => 0
  | 1 => 10
  | 2 => 7
  | _ => 6

/-- Whether an atomic of a scope is performed in the die, at its die view or remote copy (R303). -/
def Xlat.dieAtomic (x : Xlat) (scope : Nat) : Bool := x.cached && decide (scope ≤ 1)

/-- The youngest record of a lehr is poisoned, where it is of an address. -/
def State.poisonRecord (s : State) (pa : Nat) : State :=
  let q := s.lehr (portOf pa)
  match q[q.length - 1]? with
  | some r => if r.pa = pa then s.setLehr (portOf pa) (listSet q (q.length - 1) { r with poison := true }) else s
  | none => s

/-- What a RED on a PERSIST page made of poisoned bytes carries poison to the line at home and its record (R380). -/
def State.carryPoison (s : State) (kind pa : Nat) (bad : Bool) : State :=
  if bad && kind == 3 then (s.poisonLine pa).poisonRecord pa else s

/-- An atomic operation at its place under R303, in one step; answers the old value. One at a home flushes the die's copy
of the line first, a RED's with it, since a RED performs the operation of an AMO (R287, R314, R316; DEDUCED, log 32). Poison
is consumed when the old value is returned (R381), and else carried (R380). -/
def atomicAt (c : Nat) (en : SbEntry) (op n scope b e : Nat) (returns : Bool) : M Nat := fun s =>
  let x := en.x
  let pa := x.paOf en.dva
  let die := dieOf c
  let slot := s.entrySlot c en
  if x.dieAtomic scope then
    let s := s.holdLine c slot en.dva x
    let line := s.lineOf die x.lease (en.dva / 64)
    let own := ownView die pa
    let bad := if own then s.rangePoisoned pa n else (line.map (·.poison)).getD false
    let oldB := if own then s.homeRead pa n else ((line.map (·.bytes)).getD []).drop (en.dva % 64) |>.take n
    let old := leNat oldB
    let (new, wr) := atomicOp op n old b e
    if bad && returns then .error .poison s
    else .ok old (if wr then (s.writeLoc c en (leBytes n new)).carryPoison x.kind pa bad else s)
  else
    let s := s.countHome c slot pa
    let s := (s.flushLine die x.lease (en.dva / 64)).touchRange pa n false
    let bad := s.rangePoisoned pa n
    if bad && returns then .error .poison s
    else
      let old := leNat (s.homeRead pa n)
      let (new, wr) := atomicOp op n old b e
      let s := if wr then s.homeWrite pa (leBytes n new) else s
      .ok old (if wr && x.kind == 3 then (s.record c en.slot en.gen en.epoch pa (leBytes n new)).carryPoison x.kind pa bad else s)

/-- The faults of an atomic beyond those of its address (R303, R306): a DEVICE page; at sys scope on host memory, an
operation that no AtomicOp performs. -/
def checkAtomic (ea : Word) (pl : Place) (op scope : Nat) : M Unit := accessing { write := true, fetch := false } do
  let s ← getS
  match pl with
  | .spad _ => return ()
  | .mem dva x =>
    if x.kind = 5 then addrFault causeKind ea
    else if windowOf (x.paOf dva) = 11 && scope = 3 && (2 < op || !s.atomicOps) then addrFault causeKind ea
    else return ()

/-! ### Store buffers (R281, R284) -/

/-- Whether a RED qualifies for withholding (R339). -/
def State.qualifies (s : State) (e : SbEntry) (op n scope : Nat) (v : Word) : Bool :=
  e.x.kind == 2 && op == 1 && n == 4 && decide (2 ≤ scope) && (s.regionAt e.lease e.x.region).l != 0#32 &&
    fpExp (v.setWidth 32) != 255

/-- The DRAIN of one entry. -/
def State.performEntry (s : State) (c : Nat) (e : SbEntry) : State :=
  match e.op with
  | .store bytes => s.writeLoc c e bytes
  | .red op n scope v =>
    if s.qualifies e op n scope v then
      let pa := e.x.paOf e.dva
      let (s', home) := s.withhold (dieOf c) e.lease e.x.region pa (v.setWidth 32)
      if home then s'.countHome c (s.entrySlot c e) pa else s'
    else execM (atomicAt c e (redOp op) n scope (v.toNat % 2 ^ (8 * n)) 0 false) s

/-- The line that an entry was performed at is poisoned where the entry was (R380, R384): on a NORMAL page the die's remote copy of it, where
it holds one, else the line at home; on a PERSIST page, which is written through, the copy, the line at home and the record. -/
def State.poisonAt (s : State) (c : Nat) (e : SbEntry) : State :=
  let pa := e.x.paOf e.dva
  let die := dieOf c
  let copy := !ownView die pa && (s.lineOf die e.x.lease (e.dva / 64)).isSome
  let s := if e.x.cached && copy then s.mapLine die e.x.lease (e.dva / 64) fun l => { l with poison := true } else s
  if e.x.kind == 0 && copy then s
  else if e.x.kind == 3 then (s.poisonLine pa).poisonRecord pa
  else s.poisonLine pa

/-- DRAIN: the head entry leaves the buffer and is performed. -/
def State.drainHead (s : State) (c : Nat) : State :=
  let q := s.coreAt c
  match q.sb with
  | [] => s
  | e :: rest =>
    let s := (s.setCore c { q with sb := rest }).performEntry c e
    if e.poison then s.poisonAt c e else s

/-- DRAIN moves while an entry satisfies a test. -/
def State.drainWhile (s : State) (c : Nat) (p : SbEntry → Bool) : Nat → State
  | 0 => s
  | n + 1 => if (s.coreAt c).sb.any p then (s.drainHead c).drainWhile c p n else s

/-- DRAIN moves until no entry of a slot remains. -/
def State.drainSlot (s : State) (c k : Nat) : State := s.drainWhile c (fun e => e.slot == k) (s.coreAt c).sb.length
/-- DRAIN moves until the buffer is empty. -/
def State.drainCore (s : State) (c : Nat) : State := s.drainWhile c (fun _ => true) (s.coreAt c).sb.length
def drainM : M Unit := modS fun s => s.drainSlot s.core s.slot

/-- STORE: an entry at the tail, after a DRAIN where the buffer is full (R284). -/
def State.appendEntry (s : State) (c : Nat) (e : SbEntry) : State :=
  let s := if Config.storeBuffer ≤ (s.coreAt c).sb.length then s.drainHead c else s
  let q := s.coreAt c
  s.setCore c { q with sb := q.sb ++ [e] }

/-- The store-buffer entry of a slot for a checked address; `eng` is the epoch of a command of the vector engine. -/
def State.entryOf (s : State) (c k dva : Nat) (x : Xlat) (op : SbOp) (eng : Option Nat := none) : SbEntry :=
  let t := s.slotAt c k
  { slot := k, gen := t.gen, lease := t.lease, tag := t.tag, dva := dva, x := x, epoch := eng.getD t.epoch, eng := eng.isSome, op := op }

/-- Kinds whose stores are performed before the slot goes on (R290). -/
def Xlat.waits (x : Xlat) : Bool := x.kind == 1 || x.kind == 5

/-- A checked store or posted reduction of a slot enters the buffer; on an SC or DEVICE page it is performed at once. -/
def State.postEntry (s : State) (c : Nat) (e : SbEntry) : State :=
  let s := s.appendEntry c e
  if e.x.waits then s.drainSlot c e.slot else s

/-! ### Loads and stores of a slot -/

/-- Bytes an entry writes. -/
def SbEntry.size (e : SbEntry) : Nat :=
  match e.op with
  | .store bs => bs.length
  | .red _ n _ _ => n

def SbEntry.isRed (e : SbEntry) : Bool :=
  match e.op with
  | .red _ _ _ _ => true
  | .store _ => false

def SbEntry.covers (e : SbEntry) (k lease a : Nat) : Bool :=
  e.slot == k && e.lease == lease && decide (e.dva ≤ a) && decide (a < e.dva + e.size)

/-- The byte a slot has in its store buffer for an address: the youngest entry's (R284). -/
def forwardByte (sb : List SbEntry) (k lease a : Nat) : Option Byte :=
  sb.foldl (fun r e => if e.covers k lease a then
    (match e.op with
     | .store bs => bs[a - e.dva]?
     | .red _ _ _ _ => r) else r) none

/-- Whether the youngest entry a slot has for an address holds an error (R381, R384). -/
def forwardBad (sb : List SbEntry) (k lease a : Nat) : Bool :=
  sb.foldl (fun r e => if e.covers k lease a && !e.isRed then e.poison else r) false

/-- LOAD: each byte from the slot's youngest entry that covers it, else from its location; an overlapping RED drains
first (R284, R316), and on an SC or DEVICE page what the slot stored to such pages (R290). -/
def loadM (c : Nat) (k : Nat) (pl : Place) (n : Nat) (eng : Bool := false) : M (List Byte) := do
  match pl with
  | .spad off =>
    let s ← getS
    let l := s.lcoreAt (s.slotAt c k).lease c
    if l.spadPoisoned off n then throw .poison else return l.spadBytes off n
  | .mem dva x =>
    if x.waits then modS fun s => s.drainWhile c (fun e => e.slot == k && e.x.waits) (s.coreAt c).sb.length
    modS fun s => s.drainWhile c (fun e => e.isRed && (List.range n).any fun i => e.covers k x.lease (dva + i)) (s.coreAt c).sb.length
    let s ← getS
    let fw := (List.range n).map fun i => forwardByte (s.coreAt c).sb k x.lease (dva + i)
    if (List.range n).any fun i => forwardBad (s.coreAt c).sb k x.lease (dva + i) then throw .poison
    if fw.all (·.isSome) then return fw.map fun b => b.getD 0#8
    else
      let bs ← readLoc c (if eng then none else some k) dva n x
      return (List.range n).map fun i => ((fw.getD i none).getD (bs.getD i 0#8))

/-- STORE or SPAD of a slot: a scratchpad write at once, else an entry (R136, R284). -/
def storeM (c k : Nat) (pl : Place) (bytes : List Byte) (eng : Option Nat := none) : M Unit := modS fun s =>
  match pl with
  | .spad off =>
    let t := s.slotAt c k
    s.setLCore t.lease c ((s.lcoreAt t.lease c).writeSpad off bytes)
  | .mem dva x => s.postEntry c (s.entryOf c k dva x (.store bytes) eng)

/-- A reduction of a slot: on the scratchpad at once, else an entry (R316). `op` is numbered as RED numbers it. -/
def redM (c k : Nat) (pl : Place) (op n scope : Nat) (v : Word) (eng : Option Nat := none) : M Unit := modS fun s =>
  match pl with
  | .spad off =>
    let t := s.slotAt c k
    let l := s.lcoreAt t.lease c
    s.setLCore t.lease c (l.writeSpad off (leBytes n (atomicOp (redOp op) n (l.readSpad off n) (v.toNat % 2 ^ (8 * n)) 0).1))
  | .mem dva x => s.postEntry c (s.entryOf c k dva x (.red op n scope v) eng)

/-! ### Releases and acquires (R288) -/

/-- Whether a release at sys scope waits for a request: a SEND, a SENDC or a GADD of its slot, and no JDEC or completion message (R310). -/
def FabReq.released (r : FabReq) : Bool := r.kind == 1 || (r.kind == 0 && decide (r.type < 256) && !r.sender.getLsbD 63)

/-- Whether a write or message of a slot that left through the fabric is not yet acknowledged (R288, R310). -/
def State.fabricPending (s : State) (c k : Nat) : Bool :=
  let t := s.slotAt c k
  s.fabric.any fun r => r.core == c && r.slot == k && r.gen == t.gen && r.released

/-- Whether a record of a slot is not yet accepted by its lehr (R356). -/
def State.recordsPending (s : State) (c k : Nat) : Bool :=
  let t := s.slotAt c k
  s.lehrs.any fun q => q.2.any fun r => r.core == c && r.slot == k && r.gen == t.gen && !r.accepted

/-- A release; the slot stalls where it waits for others. -/
def releaseM (scope : Nat) : M Unit := do
  let s ← getS
  if scope = 4 && s.recordsPending s.core s.slot then throw .stall
  if 2 ≤ scope then modS fun s => s.writebackAll (dieOf s.core)
  if 3 ≤ scope && s.fabricPending s.core s.slot then throw .stall

def acquireM (scope : Nat) : M Unit := do
  if 2 ≤ scope then modS fun s => s.evictAll (dieOf s.core)

end Sys2Proof.Machine
end

