-- ==== Sys2Proof/Machine/HomeOps.lean ====
section
/-! DEFINITION. What a home die does with the requests that reach it, one at a time in arrival order: LDF, STF, SETE
(R147 to R151), and the gather engine (R256 to R279); and the wait table's eviction (R319). -/

namespace Sys2Proof.Machine

/-! ### The wait table -/

/-- A new entry; a full table first removes and wakes its oldest (R319). -/
def State.recordWait (s : State) (h : Nat) (w : WaitEntry) : State :=
  let v := s.homeAt h
  match v.waits with
  | o :: rest =>
    if Config.waitEntries ≤ v.waits.length then
      if o.poison then (s.setHome h { v with waits := rest ++ [w] }).consumed [o.lease]
      else if o.isLdf then
        { s.setHome h { v with waits := rest ++ [w] } with
            notices := s.notices ++ [{ who := o.asker, val := 0, ab := false, acq := false, retry := true }] }
      else s.setHome h { v with waits := rest ++ [w], outbox := v.outbox ++ [o.message s.node] }
    else s.setHome h { v with waits := v.waits ++ [w] }
  | [] => s.setHome h { v with waits := [w] }

def State.notify (s : State) (who : Asker) (val : Word) (ab acq : Bool) : State :=
  { s with notices := s.notices ++ [{ who := who, val := val, ab := ab, acq := acq, retry := false }] }

/-! ### LDF, STF, SETE at home -/

/-- LDF at home: a FULL or ABANDONED word answers, an EMPTY one records an entry with the task's launch tag and work identifier (R148,
R317); poison resets the lease (R381). -/
def State.homeLdf (s : State) (who : Asker) (pa dva n tag : Nat) (wid : Word) : State :=
  let s := (s.homeFlush who dva).touchRange pa n false
  if s.feOf pa = 0 then
    s.recordWait (homeOf pa)
      { isLdf := true, pa := pa, lease := who.lease, tag := tag, type := 0, sid := who.gen ++ (BitVec.ofNat 8 who.slot), core := who.core,
        arg0 := 0, arg1 := 0, wid := wid, counted := false, d := who.d, n := n, dva := dva, inc := who.inc, unwound := who.unwound }
  else if s.linePoisoned pa then s.poisoned who.lease
  else s.notify who (BitVec.ofNat 64 (leNat (s.homeRead pa n))) (s.feOf pa = 2) true

/-- STF at home: the data and FULL in one step (R149). -/
def State.homeStf (s : State) (pa n : Nat) (v : Word) : State :=
  (s.homeWrite pa (leBytes n v.toNat)).setFe pa 1

/-- SETE at home, for one word: EMPTY, its data unchanged, and a write to its line for WAITA (R150, R292). -/
def State.homeSete (s : State) (pa : Nat) : State := (s.setFe pa 0).wakeLine pa

/-! ### The gather engine -/

def gRows (w0 : Nat) : Nat := bitsOf w0 5 0 + 1
def gCols (w0 : Nat) : Nat := bitsOf w0 11 6 + 1
def gK (w0 : Nat) : Nat := bitsOf w0 35 12
def gFmt (w0 : Nat) : Nat := bitsOf w0 37 36
def gState (w0 : Nat) : Nat := bitsOf w0 39 38
def gFrags (w0 : Nat) : Nat := bitsOf w0 43 40
/-- Words 2 to 7 as one number, and interval j of it (R258). -/
def State.gIntervals (s : State) (pa : Nat) : Nat := leNat (s.homeRead (pa + 16) 48)
def gInterval (iv j : Nat) : Nat × Nat := (bitsOf iv (48 * j + 23) (48 * j), bitsOf iv (48 * j + 47) (48 * j + 24))
def gRecord (iv frags : Nat) : List (Nat × Nat) := (List.range frags).map (gInterval iv)

/-- Ascending, disjoint, never adjacent, not empty, within [0, K) (R258). -/
def recordOk (k : Nat) : List (Nat × Nat) → Bool
  | [] => true
  | [(a, b)] => decide (a < b) && decide (b ≤ k)
  | (a, b) :: (c, d) :: t => decide (a < b) && decide (b < c) && recordOk k ((c, d) :: t)

/-- The engine's reading of a header: never initialised in the cases of R259. -/
def State.gHeaderOk (s : State) (pa : Nat) : Bool :=
  let w0 := leNat (s.homeRead pa 8)
  let w1 := leNat (s.homeRead (pa + 8) 8)
  let iv := s.gIntervals pa
  gState w0 != 3 && gK w0 != 0 && decide (gFmt w0 < 2) && decide (gFrags w0 ≤ 8) && bitsOf w0 63 44 == 0 &&
  bitsOf w1 63 32 == 0 && recordOk (gK w0) (gRecord iv (gFrags w0)) &&
  iv / 2 ^ (48 * gFrags w0) == 0

/-- Insert an interval that overlaps nothing, joining ends that meet (R242, R269). -/
def insertFrag (a b : Nat) : List (Nat × Nat) → List (Nat × Nat)
  | [] => [(a, b)]
  | (c, d) :: t =>
    if b < c then (a, b) :: (c, d) :: t
    else if b = c then (a, d) :: t
    else if d = a then insertFrag c b t
    else (c, d) :: insertFrag a b t

def overlaps (a b : Nat) (f : Nat × Nat) : Bool := decide (a < f.2) && decide (f.1 < b)

/-- The value of words 2 to 7 for a record. -/
def recordWord : List (Nat × Nat) → Nat
  | [] => 0
  | (a, b) :: t => a + b * 2 ^ 24 + recordWord t * 2 ^ 48

def sat16 (n : Nat) : Nat := if n < 65535 then n + 1 else n

/-- The data words of a gather (R260). -/
def gDataWords (w0 : Nat) : Nat := (gRows w0 * gCols w0 + 1) / 2

/-- Set the state of every data word: a write to each data line in which a state changes, and with `always` to every one (R142, R275). -/
def State.gSetWords (s : State) (pa v : Nat) (always : Bool) : Nat → State
  | 0 => s
  | n + 1 =>
    let s := s.gSetWords pa v always n
    let a := pa + 64 + 8 * n
    if s.feOf a = v && !always then s else (s.setFe a v).wakeLine a

/-- A write of the engine, which is one for WAITA only where it changes the bytes (R275); one of a whole line clears its poison. -/
def State.gWrite (s : State) (pa : Nat) (bytes : List Byte) : State :=
  if s.homeRead pa bytes.length = bytes && !s.rangePoisoned pa bytes.length then s else s.homeWrite pa bytes

/-- Zeros over `n` bytes, line by line. -/
def State.gClear (s : State) (pa n : Nat) : State :=
  (List.range ((n + 63) / 64)).foldl (fun s i => s.gWrite (pa + 64 * i) (List.replicate (min 64 (n - 64 * i)) 0#8)) s

/-- Add the elements of a contribution (R269, R270). -/
def State.gAdd (s : State) (pa w0 : Nat) (data : List Lane) : State :=
  (List.range (gRows w0 * gCols w0)).foldl (fun s i =>
    let a := pa + 64 + 4 * i
    let old : Lane := BitVec.ofNat 32 (leNat (s.homeRead a 4))
    let x := data.getD i 0#32
    s.gWrite a (leBytes 4 (if gFmt w0 = 0 then fpAddNe old x else old + x).toNat)) s

def State.gDead (s : State) (pa : Nat) : Bool := (tabGet (0, false) s.gathers pa).2

/-- The elements of a captured tile that a gather takes: element (r, c) is tile element [r][C0 + c] (R267); of a vector,
lane by lane (R268). A stored header may give ROWS above 31, which R259 lets pass: a tile has 32 rows, and the spec gives the elements of those
beyond no value, so each is a free value (DESIGN CHOICE; log entry 68). -/
def gTake (gadd : Bool) (w0 c0 free : Nat) (data : List Lane) : List Lane :=
  if gadd then (List.range (gRows w0 * gCols w0)).map fun i =>
    if i / gCols w0 < 32 then data.getD (i / gCols w0 * 64 + c0 + i % gCols w0) 0#32 else Config.freeLane (free + i)
  else data

/-- The state after a contribution has taken its elements: free values that it took are no other's. -/
def State.tookFree (s : State) (gadd : Bool) (w0 : Nat) : State := if gadd && decide (32 < gRows w0) then { s with free := s.free + 4096 } else s

/-- A contribution decided by the engine (R269). -/
def State.gContribute (s : State) (pa : Nat) (gadd : Bool) (a b c0 : Nat) (data : List Lane) : State × Nat :=
  let w0 := leNat (s.homeRead pa 8)
  let w1 := leNat (s.homeRead (pa + 8) 8)
  let refuse := fun (st : Nat) =>
    (if bitsOf w1 31 16 = 65535 then s else s.homeWrite (pa + 8) (leBytes 8 (bitsOf w1 15 0 + sat16 (bitsOf w1 31 16) * 65536)), st)
  if s.gDead pa then (s, 6)
  else if !s.gHeaderOk pa then (s, 4)
  else if gState w0 != 0 then refuse 4
  else
    let old := gRecord (s.gIntervals pa) (gFrags w0)
    if old.any (overlaps a b) then refuse 2
    else if b ≤ a || gK w0 < b then refuse 7
    else if (gadd && (gFmt w0 != 0 || decide (64 < c0 + gCols w0))) || (!gadd && decide (16 < gRows w0 * gCols w0)) then refuse 5
    else
      let new := insertFrag a b old
      if 8 < new.length then refuse 3
      else
        let s := (s.gAdd pa w0 (gTake gadd w0 c0 s.free data)).tookFree gadd w0
        let full := decide (new = [(0, gK w0)])
        let w0' := w0 % 2 ^ 38 + (if full then 1 else 0) * 2 ^ 38 + new.length * 2 ^ 40
        let s := s.homeWrite pa (leBytes 8 w0' ++ leBytes 8 (w1 - bitsOf w1 15 0 + sat16 (bitsOf w1 15 0)) ++ leBytes 48 (recordWord new))
        if full then (s.gSetWords pa 1 false (gDataWords w0), 1) else (s, 0)

/-- GINIT at the engine (R266). The lease whose GINIT last armed a gather owns it; one that ordinary stores have made has no owner, and never answers
LEASE: R279 does not say which lease owns a gather (DESIGN CHOICE; log entry 69). -/
def State.gInit (s : State) (lease pa shape : Nat) : State :=
  let n := gRows shape * gCols shape
  let s := s.homeWrite pa (leBytes 8 (shape % 2 ^ 38) ++ List.replicate 56 0#8)
  let s := s.gClear (pa + 64) (4 * n)
  let s := s.gSetWords pa 0 false (gDataWords shape)
  { s with gathers := tabPut s.gathers pa (lease, false) }

/-- GABAND at the engine (R271). -/
def State.gAbandon (s : State) (pa : Nat) : State × Nat :=
  let w0 := leNat (s.homeRead pa 8)
  if s.gDead pa then (s, 6)
  else if !s.gHeaderOk pa || gState w0 != 0 then (s, 4)
  else ((s.homeWrite pa (leBytes 8 (w0 + 2 * 2 ^ 38))).gSetWords pa 2 true (gDataWords w0), 0)

/-- GREC (R272). -/
def State.gRec (s : State) (pa j : Nat) : Word :=
  let w0 := leNat (s.homeRead pa 8)
  if j < 8 then
    let (a, b) := if j < gFrags w0 then gInterval (s.gIntervals pa) j else (0, 0)
    BitVec.ofNat 64 (gFrags w0 * 2 ^ 48 + b * 2 ^ 24 + a)
  else if j = 8 then BitVec.ofNat 64 (leNat (s.homeRead (pa + 8) 8))
  else 0xFFFFFFFFFFFFFFFF#64

/-- A gather operation at its engine, and its answer. -/
def State.gPerform (s : State) (lease pa : Nat) : GatherOp → State × Word
  | .contribute gadd a b c0 data => let (s, st) := s.gContribute pa gadd a b c0 data; (s, BitVec.ofNat 64 st)
  | .init shape => (s.gInit lease pa shape, 0)
  | .abandon => let (s, st) := s.gAbandon pa; (s, BitVec.ofNat 64 st)
  | .stat => (s, BitVec.ofNat 64 (leNat (s.homeRead pa 8)))
  | .record j => (s, s.gRec pa j)
  | .gone => (s, 6)

/-- Whether a data line of a gather is poisoned, which a contribution that adds its elements reads (R269, R381). -/
def State.gDataPoisoned (s : State) (pa : Nat) : Bool :=
  (List.range ((8 * gDataWords (leNat (s.homeRead pa 8)) + 63) / 64)).any fun i => s.linePoisoned (pa + 64 + 64 * i)

/-- Whether the engine reads the header for an operation: not where GINIT writes it, or where the lease was reset (R269, R271). -/
def State.gReadsHeader (s : State) (pa : Nat) : GatherOp → Bool
  | .init _ => false
  | .gone => false
  | .contribute _ _ _ _ _ => !s.gDead pa
  | .abandon => !s.gDead pa
  | _ => true

/-- A gather operation at its engine, with no answer where it consumes poison, which resets the lease (R381): a contribution that is
refused reads no element. -/
def State.gRun (s : State) (lease pa : Nat) (op : GatherOp) : State × Option Word :=
  if s.gReadsHeader pa op && s.linePoisoned pa then (s.poisoned lease, none)
  else
    let r := s.gPerform lease pa op
    match op with
    | .contribute _ _ _ _ _ => if decide (r.2.toNat ≤ 1) && s.gDataPoisoned pa then (s.poisoned lease, none) else (r.1, some r.2)
    | _ => (r.1, some r.2)

/-- Something leaves over the fabric that is not itself acknowledged, in its place in the order of its channel (R308, R309). -/
def State.sendOut (s : State) (f : FabOut) : State :=
  let key := 4 * f.node + f.vc.code
  let n := tabGet 0 s.fabSent key
  { s with fabOut := s.fabOut ++ [{ f with seq := n }], fabSent := tabPut s.fabSent key ((n + 1) % 65536) }

/-- Who a contribution of GADD is answered to. -/
def FabReq.asker (r : FabReq) : Asker :=
  { core := r.core, slot := r.slot, gen := r.gen, lease := r.lease, inc := r.inc, d := r.d, unwound := r.unwound }

/-- A contribution to this device's own node is answered without leaving the package (R401). -/
def State.answerOwn (s : State) (id status : Nat) : State :=
  match s.fabric.find? fun r => r.id == id && r.there with
  | some r => ({ s with fabric := s.fabric.filter fun x => x.id != id } : State).notify r.asker (BitVec.ofNat 64 status) false false
  | none => s

/-- A response to a request that came over the fabric leaves for the device it came from, with the number and the incarnation that came
with the request (R278, R308, R310, R311). -/
def State.respond (s : State) (o : Origin) (status : Nat) (refused : Bool := false) : State :=
  if o.node = s.node then s.answerOwn o.id status
  else s.sendOut { vc := .response, node := o.node, id := o.id, inc := o.inc, status := status, refused := refused }

def HomeReq.who : HomeReq → Option Asker
  | .ldf w _ _ _ _ _ => some w
  | .stf w _ _ _ _ => some w
  | .sete w _ _ _ => some w
  | .gather w _ _ => some w
  | .remoteGather _ _ _ _ => none
  | .bad r => r.who

/-- The request itself, beside an error in its entry. -/
def HomeReq.body : HomeReq → HomeReq
  | .bad r => r.body
  | r => r

/-- The lease for which a request is made. -/
def HomeReq.lease : HomeReq → Nat
  | .remoteGather _ l _ _ => l
  | .bad r => r.lease
  | r => (r.who.map (·.lease)).getD 0

/-- Whether a request is of the slot that made another, or of one of `n` words. -/
def HomeReq.behind (who : Asker) (pa n : Nat) (r : HomeReq) : Bool :=
  let hits := fun (a len : Nat) => decide (a < pa + 8 * n) && decide (pa < a + len)
  (match r.who with | some w => w.core == who.core && w.slot == who.slot | none => false) ||
  (match r.body with
   | .ldf _ a _ len _ _ => hits a len
   | .stf _ a _ len _ => hits a len
   | .sete _ a _ m => hits a (8 * m)
   | .gather _ a _ => hits a (64 + 16384)
   | .remoteGather _ _ a _ => hits a (64 + 16384)
   | .bad _ => false)

/-- A request put before the first of a list that satisfies a test, else at its end. -/
def insertReq (p : HomeReq → Bool) (x : HomeReq) : List HomeReq → List HomeReq
  | [] => [x]
  | r :: rest => if p r then x :: r :: rest else r :: insertReq p x rest

/-- The words that a SETE has still to set are a request of their own. Requests that came later fall between them but for those of the same
slot and those of the same words, which stay behind (R150, R151, R292; log entry 67). -/
def State.laterSete (s : State) (who : Asker) (pa dva n : Nat) : State :=
  if n = 0 then s
  else
    let h := homeOf pa
    let v := s.homeAt h
    s.setHome h { v with reqs := insertReq (HomeReq.behind who pa n) (.sete who pa dva n) v.reqs }

/-- A request performed at its home: one word of a SETE (R292). An error in its entry is consumed (R381, R384). -/
def State.performReq (s : State) : HomeReq → State
  | .ldf who pa dva n tag wid => s.homeLdf who pa dva n tag wid
  | .stf who pa dva n v => (s.homeFlush who dva).homeStf pa n v
  | .sete who pa dva n => if n = 0 then s else ((s.homeFlush who dva).homeSete pa).laterSete who (pa + 8) (dva + 8) (n - 1)
  | .gather who pa op =>
    match s.gRun who.lease pa op with
    | (s', some v) => s'.notify who v false (decide (op = .stat))
    | (s', none) => s'
  | .remoteGather o lease pa op =>
    match s.gRun lease pa op with
    | (s', some v) => s'.respond o v.toNat
    | (s', none) => s'
  | .bad r => s.poisoned r.lease

/-- Whether a request carries an older incarnation of its die than its home has recorded (R312). -/
def State.staleReq (s : State) (r : HomeReq) : Bool :=
  match r.who with
  | some w => w.inc != (s.dieAt (dieOf w.core)).inc
  | none => false

/-- The oldest request of a home is performed (R151, R256); one of an old incarnation is discarded and counted (R312). -/
def State.performHead (s : State) (h : Nat) : State :=
  let v := s.homeAt h
  match v.reqs with
  | [] => s
  | r :: rest =>
    if s.staleReq r then s.setHome h { v with reqs := rest, staleReq := v.staleReq + 1 }
    else (s.setHome h { v with reqs := rest }).performReq r

def State.enqueueReq (s : State) (h : Nat) (r : HomeReq) : State :=
  let v := s.homeAt h
  s.setHome h { v with reqs := v.reqs ++ [r] }

/-- The moves that a request takes: one for each word of a SETE. -/
def HomeReq.moves (r : HomeReq) : Nat :=
  match r with
  | .sete _ _ _ n => max 1 n
  | _ => 1
/-- The moves that a home's requests take. -/
def State.homeFuel (s : State) (h : Nat) : Nat := (s.homeAt h).reqs.foldl (fun n r => n + r.moves) 0

/-- Perform a home's requests until none that satisfies a test remains. -/
def State.flushHome (s : State) (p : HomeReq → Bool) (h : Nat) : Nat → State
  | 0 => s
  | n + 1 => if (s.homeAt h).reqs.any p then (s.performHead h).flushHome p h n else s

/-- Whether a request is of a slot. -/
def HomeReq.ofSlot (c k : Nat) (r : HomeReq) : Bool :=
  match r.who with
  | some w => w.core == c && w.slot == k
  | none => false

/-- A slot's posted STF and SETE are performed before its next access to memory (R146, R150, R284). -/
def State.orderHomes (s : State) (c k : Nat) : State :=
  (List.range 8).foldl (fun s h => s.flushHome (HomeReq.ofSlot c k) h (s.homeFuel h)) s

end Sys2Proof.Machine
end

