-- ==== Sys2Proof/Machine/Engine.lean ====
section
/-! DEFINITION. The vector engine's execution of its commands (R214 to R232, R254), the tiles, records, planes and
passes of the matrix slices (R233 to R245), and the outlier list (R203, R204). -/

namespace Sys2Proof.Machine

/-! ### Tiles and planes -/

/-- The key of element [row][col] of a tile. -/
def tileKey (t row col : Nat) : Nat := t * 2048 + row * 64 + col
/-- A bank's element; every element is +0 at lease creation (R241). -/
def LCore.elem (l : LCore) (vis : Bool) (t row col : Nat) : Lane := tabGet 0#32 (if vis then l.vis else l.work) (tileKey t row col)
/-- The key of a word of the accumulators among the poisoned ones. -/
def accKey (vis : Bool) (t row col : Nat) : Nat := (if vis then 16384 else 0) + tileKey t row col
/-- A word of an accumulator written whole, which clears its poison (R380). -/
def LCore.setElem (l : LCore) (vis : Bool) (t row col : Nat) (v : Lane) : LCore :=
  let l := { l with accPoison := l.accPoison.filter (· != accKey vis t row col) }
  if vis then { l with vis := tabPut l.vis (tileKey t row col) v } else { l with work := tabPut l.work (tileKey t row col) v }
def LCore.recOf (l : LCore) (vis : Bool) (t : Nat) : List (Nat × Nat) := tabGet [] l.recs (t + if vis then 8 else 0)
def LCore.setRec (l : LCore) (vis : Bool) (t : Nat) (r : List (Nat × Nat)) : LCore :=
  { l with recs := tabPut l.recs (t + if vis then 8 else 0) r }
/-- A sticky or BUSY bit of `mst` (R32). -/
def LCore.setMst (l : LCore) (i : Nat) (b : Bool) : LCore := { l with mst := setBit l.mst i b }
def LCore.active (l : LCore) : Plane := if l.activeB then l.planeB else l.planeA

/-- The members' cores of a gang, lowest package row first (R236). -/
def Gang.cores (g : Gang) : List Nat := g.rows.flatMap fun r => (List.range 16).map fun i => 16 * r + i
/-- The lead keeper: core 0 of the lowest-numbered row (R236). -/
def Gang.lead (g : Gang) : Nat := 16 * g.rows.foldl (fun m r => if r < m then r else m) (g.rows.headD 0)

/-- A two's-complement nibble or byte. -/
def signedOf (bits v : Nat) : Int := if 2 * v < 2 ^ bits then (v : Int) else (v : Int) - 2 ^ bits

/-- Elements and exponent of an activation row of 64 bytes (R198). -/
def activationRow (bi4 : Bool) (bs : List Byte) : List Int × Nat :=
  let byte := fun (i : Nat) => (bs.getD i 0#8).toNat
  if bi4 then ((List.range 32).map fun k => signedOf 4 (byte (k / 2) / 16 ^ (k % 2) % 16), byte 16)
  else ((List.range 32).map fun k => signedOf 8 (byte k), byte 32)

/-- The exact block sum (R205). -/
def blockSum (a : List Int) (w : Nat → Int) : Int :=
  (List.range 32).foldl (fun n k => n + a.getD k 0 * w k) 0

/-- A plane's element of column n at k, its block's downshift and NaN mark (R233). -/
def Plane.w (p : Plane) (n k : Nat) : Int := tabGet 0 p.elems (n * 64 + k)
def Plane.shift (p : Plane) (n b : Nat) : Nat := tabGet 0 p.shifts (n * 2 + b)
def Plane.nan (p : Plane) (n b : Nat) : Bool := tabGet false p.nans (n * 2 + b)

/-- The scale broadcast of an activation exponent (R210). -/
def scaleOf (ea t : Nat) : Int := (ea : Int) - 127 + ((t : Int) - 127)

/-- One element of a tile updated by the blocks of one operand row (R211 to R213): the element, and whether a NaN block
was met. -/
def passElem (acc : Lane) (p : Plane) (n : Nat) (blocks : List (List Int × Nat)) (lead : Nat) : Lane × Bool :=
  let nan := ((List.range blocks.length).any fun b => (blocks.getD b ([], 0)).2 == 255 || p.nan n b)
  if nan then (canonNaN, true)
  else
    let terms := (List.range blocks.length).map fun b =>
      let (a, ea) := blocks.getD b ([], 0)
      (blockSum a (fun k => p.w n (32 * b + k)), scaleOf ea lead - (p.shift n b : Int))
    if terms.all fun t => t.1 == 0 then (acc, false) else (accAdd acc terms, false)

/-- The activation rows of operand row r of a pass, read from the lead keeper's scratchpad (R234). -/
def passBlocks (l : LCore) (p : Pass) (r : Nat) : List (List Int × Nat) :=
  if p.bi4 then [activationRow true (l.spadBytes (p.addr + 128 * r) 64), activationRow true (l.spadBytes (p.addr + 128 * r + 64) 64)]
  else [activationRow false (l.spadBytes (p.addr + 64 * r) 64)]

/-- A pass on one member (R249), with the broadcasts it leaves in `skb.S` (R240). -/
def passOn (p : Pass) (blocks : List (List (List Int × Nat))) (t : Nat) (planeB : Bool) (l : LCore) : LCore :=
  let plane := if planeB then l.planeB else l.planeA
  let l := { l with changed := true }
  let l := (List.range p.m).foldl (fun l r => (List.range 64).foldl (fun (l : LCore) n =>
    let (v, nan) := passElem (l.elem false p.tile r n) plane n (blocks.getD r []) t
    let l := l.setElem false p.tile r n v
    if nan then l.setMst 3 true else l) l) l
  let last := blocks.foldl (fun o row => row.foldl (fun o b => if b.2 = 255 then o else some (scaleOf b.2 t)) o) none
  match last with
  | some s => { l with skb := (l.skb &&& 0xFF0000#24) ||| BitVec.zeroExtend 24 (BitVec.ofInt 16 s) }
  | none => l

/-- Whether a pass on a tile of a core is in flight (R243). -/
def State.passOnTile (s : State) (lease c t : Nat) : Bool :=
  s.gangs.any fun g => g.2.lease == lease && g.2.rows.contains (rowOf c) && g.2.passes.any fun p => p.tile == t

/-- Whether a pass on a tile of a mask that was accepted before the one numbered `before` is in flight on a core (R250). -/
def State.passBefore (s : State) (lease c : Nat) (mask : BitVec 8) (before : Nat) : Bool :=
  s.gangs.any fun g => g.2.lease == lease && g.2.rows.contains (rowOf c) &&
    g.2.passes.any fun p => mask.getLsbD p.tile && decide (p.no < before)

/-- The head pass of a gang completes on every member (R235, R249). Poison in its queue entry, in an operand row, a plane or an accumulator
word is consumed, and the pass is then not performed (R381, R384). Poison in the bytes of a row that hold nothing (R198) is consumed too:
R381 speaks of the row (DESIGN CHOICE; log entry 66). Every operand row is read whole at the instant the pass completes: of one that is changed
before MWAIT, R249 lets each element be the old or the new one (DESIGN CHOICE; log entry 68). -/
def State.runPass (s : State) (gk : Nat) : State :=
  match tabFind s.gangs gk with
  | none => s
  | some g =>
    match g.passes with
    | [] => s
    | p :: rest =>
      let lead := s.lcoreAt g.lease g.lead
      let blocks := (List.range p.m).map (passBlocks lead p)
      let t := (if p.planeB.contains g.lead then lead.planeB else lead.planeA).t
      let bad := lead.spadPoison.any fun w => decide (p.addr ≤ 8 * w + 7) && decide (8 * w < p.addr + p.m * (if p.bi4 then 128 else 64))
      let hit := fun (c : Nat) =>
        let l := s.lcoreAt g.lease c
        l.planePoison.contains (p.planeB.contains c) || l.accPoison.any fun k => decide (tileKey p.tile 0 0 ≤ k) && decide (k < tileKey p.tile p.m 0)
      let bad := p.poison || bad || g.cores.any hit
      let s : State := { s with gangs := tabPut s.gangs gk { g with passes := rest } }
      if bad then s.poisoned g.lease
      else g.cores.foldl (fun s c =>
        let l := passOn p blocks t (p.planeB.contains c) (s.lcoreAt g.lease c)
        s.setLCore g.lease c (l.setMst (8 + p.tile) (s.passOnTile g.lease c p.tile))) s

/-- A gang that shares a core with another, whose oldest pass was accepted before the other's: a core performs its passes in the order in which
they were accepted (R239, R245). -/
def State.passAhead (s : State) (gk : Nat) : Option Nat :=
  match tabFind s.gangs gk with
  | none => none
  | some g => match g.passes with
    | [] => none
    | p :: _ => (s.gangs.find? fun h => h.1 != gk && h.2.rows.any g.rows.contains && (h.2.passes.head?).any fun q => decide (q.no < p.no)).map (·.1)

/-- The gang whose pass is the first of those that a gang's oldest pass waits for. -/
def State.passRoot (s : State) (gk : Nat) : Nat → Nat
  | 0 => gk
  | n + 1 => match s.passAhead gk with
    | some h => s.passRoot h n
    | none => gk

/-- The oldest pass of a gang completes, after those that come before it on its cores. -/
def State.passInTurn (s : State) (gk : Nat) : Nat → State
  | 0 => s
  | n + 1 =>
    let r := s.passRoot gk (n + 1)
    if r = gk then s.runPass gk else (s.runPass r).passInTurn gk n

/-- Complete the passes on a tile of a core (R245). -/
def State.finishTile (s : State) (lease c t : Nat) : Nat → State
  | 0 => s
  | n + 1 =>
    match s.gangs.find? fun g => g.2.lease == lease && g.2.rows.contains (rowOf c) && g.2.passes.any fun p => p.tile == t with
    | some g => (s.passInTurn g.1 (n + 1)).finishTile lease c t n
    | none => s
/-- Fuel for the passes of every gang. -/
def State.passFuel (s : State) : Nat := s.gangs.foldl (fun n g => n + g.2.passes.length) 0

/-! ### Lanes -/

/-- A destination whose active lanes take `f`, with the flags of the active lanes. -/
def vecMap (t : Slot) (pg : BitVec 16) (d : Nat) (f : Nat → Lane × FpFlags) : Slot :=
  let old := t.getV d
  let rs := (List.range 16).map fun i => if pg.getLsbD i then f i else (laneOf old i, 0#5)
  let t := t.setV d (ofLanes fun i => (rs.getD i (0, 0)).1)
  { t with ff := ffRaise t.ff (rs.foldl (fun g r => g ||| r.2) 0#5) }

/-- A predicate from a test of the active lanes, with the flags of the active lanes (R221). -/
def predMap (t : Slot) (pg : BitVec 16) (d : Nat) (f : Nat → Bool) (fl : Nat → FpFlags) : Slot :=
  let m := (List.range 16).foldl (fun (m : BitVec 16) i => if pg.getLsbD i && f i then setBit m i true else m) 0#16
  let g := (List.range 16).foldl (fun (g : FpFlags) i => if pg.getLsbD i then g ||| fl i else g) 0#5
  { t.setP d m with ff := ffRaise t.ff g }

/-- Set bits of a predicate below lane i. -/
def popBelow (p : BitVec 16) : Nat → Nat
  | 0 => 0
  | n + 1 => popBelow p n + if p.getLsbD n then 1 else 0

/-- One level of the reduction tree. -/
def pairUp (op : Lane → Lane → Lane × FpFlags) : List (Option Lane) → List (Option Lane) × FpFlags
  | some a :: some b :: t =>
    let (r, f) := op a b
    let (u, g) := pairUp op t
    (some r :: u, f ||| g)
  | none :: x :: t => let (u, g) := pairUp op t; (x :: u, g)
  | x :: none :: t => let (u, g) := pairUp op t; (x :: u, g)
  | [x] => ([x], 0)
  | [] => ([], 0)

/-- The pairwise tree of R224 over sixteen lanes. -/
def reduceTree (op : Lane → Lane → Lane × FpFlags) (ident : Lane) (xs : List (Option Lane)) : Lane × FpFlags :=
  let (a, f) := pairUp op xs
  let (b, g) := pairUp op a
  let (c, h) := pairUp op b
  let (d, k) := pairUp op c
  (((d.headD none).getD ident), f ||| g ||| h ||| k)

/-- The result of a reduction in lane 0, 0 elsewhere. -/
def vecReduce (t : Slot) (pg : BitVec 16) (d a : Nat) (op : Lane → Lane → Lane × FpFlags) (ident : Lane) : Slot :=
  let v := t.getV a
  let (r, f) := reduceTree op ident ((List.range 16).map fun i => if pg.getLsbD i then some (laneOf v i) else none)
  let t := t.setV d (ofLanes fun i => if i = 0 then r else 0#32)
  { t with ff := ffRaise t.ff f }

/-! ### Quantising -/

/-- The format of a prefix, BI4 or else BI8; its exponent source (R33, R34). -/
def pfxBi4 (p : Option (BitVec 12)) : Bool := (p.map fun w => w.extractLsb' 0 4 == 3#4).getD false
def pfxEsrc (p : Option (BitVec 12)) : Nat := (p.map fun w => (w.extractLsb' 7 2).toNat).getD 0
/-- The rounding of a prefix, RNE without one; 4 is `ff.RM` (R33). -/
def pfxRm (p : Option (BitVec 12)) (ff : BitVec 8) : Nat :=
  match p with
  | none => 0
  | some w => if w.extractLsb' 4 3 = 4#3 then ffRm ff else (w.extractLsb' 4 3).toNat

/-- The 32 values of an even pair, inactive lanes +0 (R226). -/
def pairValues (t : Slot) (pg : BitVec 16) (a : Nat) : List Lane :=
  (List.range 32).map fun k => if pg.getLsbD (k % 16) then laneOf (t.getV (a + k / 16)) (k % 16) else 0#32

/-- Append one outlier to a list at an offset (R204); entries must end at or below `top`. -/
def appendOutlier (l : LCore) (off top k : Nat) (v : Lane) : LCore :=
  let count := l.readSpad (off + 4) 4
  let cap := l.readSpad off 4
  let base := l.readSpad (off + 12) 4
  let dropped := l.readSpad (off + 8) 4
  let v := if fpIsNaN v then canonNaN else v
  if count < cap ∧ off + 16 + 8 * count + 8 ≤ top then
    (l.writeSpad (off + 16 + 8 * count) (leBytes 8 ((base + k) % 65536 + v.toNat * 2 ^ 32))).writeSpad (off + 4) (leBytes 4 (count + 1))
  else (l.writeSpad (off + 8) (leBytes 4 (if dropped = 2 ^ 32 - 1 then dropped else dropped + 1))).setMst 4 true

/-- The bytes of a quantised row (R226). -/
def rowBytes (bi4 : Bool) (q : List Int) (ex : Nat) : List Byte :=
  let b := fun (i : Nat) => BitVec.ofInt 8 (q.getD i 0)
  if bi4 then (List.range 16).map (fun j => (b (2 * j) &&& 0x0F#8) ||| (b (2 * j + 1) <<< 4)) ++ BitVec.ofNat 8 ex :: List.replicate 47 0#8
  else (List.range 32).map b ++ BitVec.ofNat 8 ex :: List.replicate 31 0#8

def vecOfBytes (bs : List Byte) : VecReg := BitVec.ofNat 512 (leNat bs)
def bytesOfVec (v : VecReg) : List Byte := leBytes 64 v.toNat

/-- What VQNT makes of its 32 values: the exponent, and each quantised value, `none` where it is an outlier (R200 to R203, R226). -/
def quantRow (v : VecCmd) (xs : List Lane) : Nat × List (Option Int) :=
  let bi4 := pfxBi4 v.pfx
  let ex := match pfxEsrc v.pfx with
    | 0 => autoExp bi4 v.rm xs
    | 1 => (v.a.extractLsb' 56 8).toNat
    | _ => v.bexp.toNat
  let (lo, hi) := biRange bi4
  let one := fun (x : Lane) => match quantOne v.rm ex x with
    | some y => if lo ≤ y ∧ y ≤ hi then some y else none
    | none => none
  (ex, if ex = 255 then List.replicate 32 (some 0) else xs.map one)

/-- The DVA of VQNT's outlier list; 0 where it has none (R226). -/
def listOf (v : VecCmd) : Nat := (v.a.extractLsb' 0 48).toNat

/-- Whether VQNT reads a poisoned control word of its list: it reads them for an outlier (R204, R381). -/
def listBad (v : VecCmd) (l : LCore) (xs : List Lane) : Bool :=
  listOf v != 0 && (quantRow v xs).2.contains none && l.spadPoisoned (listOf v - Config.localBase) 16

/-- Execution of VQNT (R226). `top` bounds the list's entries. -/
def quantise (v : VecCmd) (t : Slot) (l : LCore) (pg : BitVec 16) (d a top : Nat) : Slot × LCore :=
  let xs := pairValues t pg a
  let (ex, qs) := quantRow v xs
  let l := (List.range 32).foldl (fun (l : LCore) k =>
    match qs.getD k none with
    | some _ => l
    | none => if listOf v = 0 then l.setMst 4 true else appendOutlier l (listOf v - Config.localBase) top k (xs.getD k 0#32)) l
  (t.setV d (vecOfBytes (rowBytes (pfxBi4 v.pfx) (qs.map fun q => q.getD 0) ex)), l)

/-- Execution of VDQNT (R228). -/
def dequantise (v : VecCmd) (t : Slot) (pg : BitVec 16) (d a : Nat) : Slot :=
  let bi4 := pfxBi4 v.pfx
  let (q, own) := activationRow bi4 (bytesOfVec (t.getV a))
  let ex := match pfxEsrc v.pfx with
    | 0 => own
    | 1 => (v.a.extractLsb' 56 8).toNat
    | _ => v.bexp.toNat
  let one := fun (k : Nat) => if ex = 255 then (canonNaN, 0#5)
    else let x := q.getD k 0; if x = 0 then (0#32, 0#5) else roundFp v.rm (x < 0) x.natAbs ((ex : Int) - 127)
  vecMap (vecMap t pg d one) pg (d + 1) fun i => one (16 + i)

/-! ### Format words and VREDX -/

/-- The fields of a format word (R33). -/
def fmtFormat (w : BitVec 12) : Nat := (w.extractLsb' 0 4).toNat
def fmtRnd (w : BitVec 12) : Nat := (w.extractLsb' 4 3).toNat
def fmtEsrc (w : BitVec 12) : Nat := (w.extractLsb' 7 2).toNat
def fmtScope (w : BitVec 12) : Nat := (w.extractLsb' 9 2).toNat

/-- The scope of VREDX (R231): pkg by default. -/
def redxScope (w : Option (BitVec 12)) : Nat :=
  match w with
  | none => 2
  | some f => match fmtScope f with
    | 1 => 0
    | 2 => 1
    | _ => 2
/-- The reduction of VREDX (R231), numbered as R315 numbers it: FADD.S, or ADD for INT32. -/
def redxOp (w : Option (BitVec 12)) : Nat := match w with
  | none => 1
  | some f => if fmtFormat f = 4 then 0 else 1

/-- VREDX waits at a lane in memory while the store buffer of its core is full, with what it has issued (R232). -/
def redxRoom (c : Nat) (pl : Place) : M Unit := do
  let s ← getS
  match pl with
  | .mem _ _ => if Config.storeBuffer ≤ (s.coreAt c).sb.length then throw .stall
  | .spad _ => pure ()

/-- The lanes of a slot's VREDX from a base address, each posted and its bit of pg cleared (R232). -/
def redxLanes (c k : Nat) (base : Word) (p : BitVec 3) (d b : BitVec 5) (op scope epoch : Nat) : Nat → M Unit
  | 0 => return ()
  | n + 1 => do
    let i := 15 - n
    let s ← getS
    let t := s.slotAt c k
    if (t.getP p.toNat).getLsbD i then
      let ea := base + (laneOf (t.getV b.toNat) i).zeroExtend 64
      let pl ← checkPlace (s.slotParty c k) ea 4 true
      checkAtomic ea pl (redOp op) scope
      redxRoom c pl
      redM c k pl op 4 scope ((laneOf (t.getV d.toNat) i).zeroExtend 64) (some epoch)
      modS fun s => s.setSlot c k ((s.slotAt c k).setP p.toNat (setBit ((s.slotAt c k).getP p.toNat) i false))
    redxLanes c k base p d b op scope epoch n

/-! ### Commands -/

/-- A selector's quarter, row and bank (R254). -/
def selQ (w : Word) : Nat := (w.extractLsb' 6 2).toNat
def selRow (w : Word) : Nat := (w.extractLsb' 1 5).toNat
def selVis (w : Word) : Bool := w.getLsbD 0

/-- A commutative choice of two integer lanes. -/
def pick (c : Bool) (x y : Lane) : Lane × FpFlags := (if c then x else y, 0)

/-- A command that touches no memory: what it makes of its slot and the lease's core state. -/
def vecPure (v : VecCmd) (t : Slot) (l : LCore) (free : Nat) (busy : Nat → Bool) (top : Nat) : Slot × LCore :=
  let pr := fun (p : BitVec 3) => t.getP p.toNat
  let ln := fun (r : BitVec 5) (i : Nat) => laneOf (t.getV r.toNat) i
  let two := fun (p : BitVec 3) (d a b : BitVec 5) (f : Lane → Lane → Lane × FpFlags) =>
    (vecMap t (pr p) d.toNat fun i => f (ln a i) (ln b i), l)
  let one := fun (p : BitVec 3) (d a : BitVec 5) (f : Lane → Lane × FpFlags) =>
    (vecMap t (pr p) d.toNat fun i => f (ln a i), l)
  let cmp := fun (p d : BitVec 3) (a b : BitVec 5) (f : Lane → Lane → Bool) (fl : Lane → Lane → FpFlags) =>
    (predMap t (pr p) d.toNat (fun i => f (ln a i) (ln b i)) (fun i => fl (ln a i) (ln b i)), l)
  let noFl := fun (_ _ : Lane) => 0#5
  match v.instr with
  | .vaddF p d a b => two p d a b (fpAdd v.rm)
  | .vsubF p d a b => two p d a b (fpSub v.rm)
  | .vmulF p d a b => two p d a b (fpMul v.rm)
  | .vfmaF p d a b => (vecMap t (pr p) d.toNat fun i => fpFma v.rm (ln a i) (ln b i) (ln d i), l)
  | .vminF p d a b => two p d a b fun x y => (fpMin x y, 0)
  | .vmaxF p d a b => two p d a b fun x y => (fpMax x y, 0)
  | .vabsF p d a => one p d a fun x => (x &&& 0x7FFFFFFF#32, 0)
  | .vnegF p d a => one p d a fun x => (x ^^^ 0x80000000#32, 0)
  | .vdivF p d a b => two p d a b (fpDiv v.rm)
  | .vsqrtF p d a => one p d a (fpSqrt v.rm)
  | .vexp2F p d a => one p d a (fpExp2 v.rm)
  | .vrcpF p d a => one p d a (fpRcp v.rm)
  | .vfmasF p d a _ => (vecMap t (pr p) d.toNat fun i => fpFma v.rm (ln a i) (v.b.setWidth 32) (ln d i), l)
  | .vaddI p d a b => two p d a b fun x y => (x + y, 0)
  | .vsubI p d a b => two p d a b fun x y => (x - y, 0)
  | .vmulI p d a b => two p d a b fun x y => (x * y, 0)
  | .vminI p d a b => two p d a b fun x y => pick (x.slt y) x y
  | .vmaxI p d a b => two p d a b fun x y => pick (y.slt x) x y
  | .vminuI p d a b => two p d a b fun x y => pick (x.ult y) x y
  | .vmaxuI p d a b => two p d a b fun x y => pick (y.ult x) x y
  | .vand p d a b => two p d a b fun x y => (x &&& y, 0)
  | .vor p d a b => two p d a b fun x y => (x ||| y, 0)
  | .vxor p d a b => two p d a b fun x y => (x ^^^ y, 0)
  | .vshl p d a b => two p d a b fun x y => (x <<< (y.toNat % 32), 0)
  | .vsrl p d a b => two p d a b fun x y => (x >>> (y.toNat % 32), 0)
  | .vsra p d a b => two p d a b fun x y => (x.sshiftRight (y.toNat % 32), 0)
  | .vcmpFEQ p d a b => cmp p d a b fpEq noFl
  | .vcmpFLT p d a b => cmp p d a b fpLt fpCmpFlags
  | .vcmpFLE p d a b => cmp p d a b fpLe fpCmpFlags
  | .vcmpIEQ p d a b => cmp p d a b (fun x y => x == y) noFl
  | .vcmpILT p d a b => cmp p d a b (fun x y => x.slt y) noFl
  | .vcmpILTU p d a b => cmp p d a b (fun x y => x.ult y) noFl
  | .vsel p d a b => (t.setV d.toNat (ofLanes fun i => if (pr p).getLsbD i then ln a i else ln b i), l)
  | .pand d a b => (t.setP d.toNat (pr a &&& pr b), l)
  | .por d a b => (t.setP d.toNat (pr a ||| pr b), l)
  | .pxor d a b => (t.setP d.toNat (pr a ^^^ pr b), l)
  | .pnot d a => (t.setP d.toNat (~~~(pr a)), l)
  | .pset d _ => (t.setP d.toNat (v.a.setWidth 16), l)
  | .pget d a => (t.setX d ((pr a).zeroExtend 64), l)
  | .ppop p d a => (t.setX d (BitVec.ofNat 64 (popBelow (pr a &&& pr p) 16)), l)
  | .vbcast p d _ => (vecMap t (pr p) d.toNat fun _ => (v.a.setWidth 32, 0), l)
  | .vbcastq p d _ => (vecMap t (pr p) d.toNat fun _ => (v.a.setWidth 32, 0), l)
  | .vmvxv d _ j => (t.setV d.toNat (ofLanes fun i => if i = j.toNat then v.a.setWidth 32 else ln d i), l)
  | .vmvvx d a j => (t.setX d ((ln a j.toNat).zeroExtend 64), l)
  | .vperm p d a b => (vecMap t (pr p) d.toNat fun i => (ln a ((ln b i).toNat % 16), 0), l)
  | .vslide p d a _ => (vecMap t (pr p) d.toNat fun i =>
      let j := (i : Int) + v.b.toInt
      (if 0 ≤ j ∧ j ≤ 15 then ln a j.toNat else 0#32, 0), l)
  | .viota p d => (t.setV d.toNat (ofLanes fun i => BitVec.ofNat 32 (popBelow (pr p) i)), l)
  | .vrsumF p d a => (vecReduce t (pr p) d.toNat a.toNat (fpAdd 0) 0#32, l)
  | .vrmaxF p d a => (vecReduce t (pr p) d.toNat a.toNat (fun x y => (fpMax x y, 0)) 0xFF800000#32, l)
  | .vrsumI p d a => (vecReduce t (pr p) d.toNat a.toNat (fun x y => (x + y, 0)) 0#32, l)
  | .vcvtFI p d a => one p d a fun x => let (n, f) := fpToInt (-(2 ^ 31)) (2 ^ 31 - 1) v.rm x; (BitVec.ofInt 32 n, f)
  | .vcvtIF p d a => one p d a fun x => fpOfInt v.rm x.toInt
  | .vcvtFH p d a h => (vecMap t (pr p) d.toNat fun i =>
      let (w, f) := fpToH16 v.rm (ln a i)
      (if h = 0#1 then (ln d i).extractLsb' 16 16 ++ w else w ++ (ln d i).extractLsb' 0 16, f), l)
  | .vcvtHF p d a h => (vecMap t (pr p) d.toNat fun i => (fpOfH16 ((ln a i).extractLsb' (16 * h.toNat) 16), 0), l)
  | .vqnt p d a _ => quantise v t l (pr p) d.toNat a.toNat top
  | .vdqnt p d a _ => (dequantise v t (pr p) d.toNat a.toNat, l)
  | .vbexp p d a => (vecMap t (pr p) d.toNat fun _ =>
      (BitVec.ofNat 32 (autoExp (pfxBi4 v.pfx) 0 (pairValues t (pr p) a.toNat)), 0), l)
  | .mrd d tl _ => (t.setV d.toNat (ofLanes fun i =>
      if !selVis v.a && busy tl.toNat then Config.freeLane (free + i)
      else l.elem (selVis v.a) tl.toNat (selRow v.a) (16 * selQ v.a + i)), l)
  | .mwr tl a _ => (t, (List.range 16).foldl (fun (l : LCore) i =>
      l.setElem (selVis v.a) tl.toNat (selRow v.a) (16 * selQ v.a + i) (ln a i)) l)
  | .maddv tl a _ => (t, (List.range 16).foldl (fun (l : LCore) i =>
      let e := l.elem (selVis v.a) tl.toNat (selRow v.a) (16 * selQ v.a + i)
      l.setElem (selVis v.a) tl.toNat (selRow v.a) (16 * selQ v.a + i) (fpAddNe e (ln a i))) l)
  | _ => (t, l)

/-- The tile whose passes a command waits for (R245). -/
def VecCmd.tile (v : VecCmd) : Option Nat :=
  match v.instr with
  | .mwr t _ _ => some t.toNat
  | .maddv t _ _ => some t.toNat
  | _ => none

/-- Whether a command may read a BUSY tile (R244). -/
def VecCmd.takesFree (v : VecCmd) : Bool :=
  match v.instr with
  | .mrd _ _ _ => true
  | _ => false

/-- Whether a command reads a poisoned word of an accumulator, or of its outlier list (R381, R384). -/
def VecCmd.readsBad (v : VecCmd) (t : Slot) (l : LCore) : Bool :=
  match v.instr with
  | .vqnt p _ a _ => listBad v l (pairValues t (t.getP p.toNat) a.toNat)
  | .mrd _ tl _ | .maddv tl _ _ => (List.range 16).any fun i => l.accPoison.contains (accKey (selVis v.a) tl.toNat (selRow v.a) (16 * selQ v.a + i))
  | _ => false

/-- The vector register a load fills, or that a store takes. -/
def VecCmd.loads (v : VecCmd) : Option Nat :=
  match v.instr with
  | .vld _ d _ => some d.toNat
  | .vlds _ d _ _ => some d.toNat
  | .vldx _ d _ _ => some d.toNat
  | _ => none
def VecCmd.stores (v : VecCmd) : Option Nat :=
  match v.instr with
  | .vst _ d _ => some d.toNat
  | .vsts _ d _ _ => some d.toNat
  | .vstx _ d _ _ => some d.toNat
  | _ => none
def VecCmd.isMem (v : VecCmd) : Bool := v.loads.isSome || v.stores.isSome

/-- The operands of a VREDX: pg, its data and its index register. -/
def VecCmd.redx (v : VecCmd) : Option (BitVec 3 × BitVec 5 × BitVec 5) :=
  match v.instr with
  | .vredx p d _ b => some (p, d, b)
  | _ => none

/-- The next lane of a load, in ascending order: one move, after which the command has that lane as well (R230, R282, R284). -/
def vecLane (c : Nat) (v : VecCmd) : M VecCmd :=
  match v.places.drop v.got.length with
  | [] => return v
  | (i, pl) :: _ => do
    let bs ← loadM c v.slot pl 4 true
    return { v with got := v.got ++ [(i, BitVec.ofNat 32 (leNat bs))] }

/-- Whether a command has more lanes to load than the next one. -/
def VecCmd.more (v : VecCmd) : Bool := v.loads.isSome && decide (v.got.length + 1 < v.places.length)

/-- The store lanes of a command, in ascending order: they enter the store buffer with no store of another slot between them, and each
drains by a move of its own; on an SC or DEVICE page each is performed before the next (R230, R284, R290). -/
def vecStore (c k epoch : Nat) (v : VecReg) : List (Nat × Place) → M Unit
  | [] => return ()
  | (i, pl) :: rest => do
    storeM c k pl (leBytes 4 (laneOf v i).toNat) (some epoch)
    vecStore c k epoch v rest

/-- Execute one command (R214), a load from its last lane on. The slot still holds the task: END waits for its commands (R216). In a gate callee
an entry of VQNT's outlier list that would not lie wholly inside the callee's window counts as beyond CAPACITY, as one that passes 0x3F800
does: R226 names that offset alone (DESIGN CHOICE; log entry 68). -/
def vecExec (c : Nat) (v : VecCmd) : M Unit := do
  match v.loads, v.stores with
  | some d, _ =>
    let v ← vecLane c v
    modS fun s =>
      let t := s.slotAt c v.slot
      let get := fun (i : Nat) => (v.got.find? fun e => e.1 == i).map (·.2)
      s.setSlot c v.slot (t.setV d (ofLanes fun i => (get i).getD (laneOf (t.getV d) i)))
  | none, some d =>
    let s ← getS
    vecStore c v.slot v.epoch ((s.slotAt c v.slot).getV d) v.places
  | none, none =>
    modS fun s => match v.tile with
      | some tl => s.finishTile (s.slotAt c v.slot).lease c tl s.passFuel
      | none => s
    let s ← getS
    let t := s.slotAt c v.slot
    if v.readsBad t (s.lcoreAt t.lease c) then throw .poison
    modS fun s =>
      let top := match t.window with
        | some (b, n) => b + n
        | none => Config.scratchMap
      let (t', l') := vecPure v t (s.lcoreAt t.lease c) s.free (fun tl => s.passOnTile t.lease c tl) top
      let l' := if v.tile.isSome then { l' with changed := true } else l'
      let s := (s.setLCore t.lease c l').setSlot c v.slot t'
      if v.takesFree then { s with free := s.free + 16 } else s

/-- What the engine makes of a move that stopped: consumed poison resets the lease (R381). -/
def State.vecStopped (s : State) (lease : Nat) : Stop → State
  | .poison => s.poisoned lease
  | _ => s

/-- A VREDX at the head goes on with the lanes that its pg still has: it leaves the queue with the last of them, or with the fault of a
lane, at which its slot is held, where its task is live; at a full store buffer it keeps its place (R232, R375). -/
def State.redxStep (s : State) (c : Nat) (v : VecCmd) (rest : List VecCmd) (p : BitVec 3) (d b : BitVec 5) : State :=
  let out := fun (s : State) => s.setCore c { s.coreAt c with vecq := rest }
  match redxLanes c v.slot v.a p d b (redxOp v.pfx) (redxScope v.pfx) v.epoch 16 s with
  | .ok _ s' => out s'
  | .error .stall s' => s'
  | .error e s' => if (s'.slotAt c v.slot).isLive then (out s').stopped c v.slot e else (out s').vecStopped (s'.slotAt c v.slot).lease e

/-- The engine's next move: its head command executes, or a load that has more lanes to go loads one (R214, R230). Of a task that was killed it
performs what had begun, on the registers that the task left (R375; log entry 49). -/
def State.vecStep (s : State) (c : Nat) : State :=
  let q := s.coreAt c
  match q.vecq with
  | [] => s
  | v :: rest =>
    let t := s.slotAt c v.slot
    let done := s.setCore c { q with vecq := rest }
    if t.gen ≠ v.gen ∨ (!t.isLive && !v.begun) then done
    else if v.poison then done.poisoned t.lease
    else match v.redx with
    | some (p, d, b) => s.redxStep c v rest p d b
    | none =>
    if v.more then
      match vecLane c v s with
      | .ok v' s' => s'.setCore c { s'.coreAt c with vecq := v' :: rest }
      | .error e s' => (s'.setCore c { s'.coreAt c with vecq := rest }).vecStopped t.lease e
    else match vecExec c v done with
      | .ok _ s' => s'
      | .error e s' => s'.vecStopped t.lease e

/-- Where a VREDX waits at the head for room, the head of the store buffer drains (R232, R286). -/
def State.redxWay (s : State) (c : Nat) : State :=
  let q := s.coreAt c
  if (q.vecq.head?.bind VecCmd.redx).isSome && decide (Config.storeBuffer ≤ q.sb.length) then s.drainHead c else s

/-- The engine makes moves while a command satisfies a test. -/
def State.runVec (s : State) (c : Nat) (p : VecCmd → Bool) : Nat → State
  | 0 => s
  | n + 1 => if (s.coreAt c).vecq.any p then ((s.redxWay c).vecStep c).runVec c p n else s

/-- The moves that a queue of commands takes. -/
def vecFuel (q : List VecCmd) : Nat := q.foldl (fun n v => n + (if v.redx.isSome then 17 else 1) + v.places.length) 0

/-- Every command of a slot has executed. -/
def State.finishVec (s : State) (c k : Nat) : State := s.runVec c (fun v => v.slot == k) (vecFuel (s.coreAt c).vecq)
/-- Every vector memory command of a slot has executed (R298). -/
def State.finishVecMem (s : State) (c k : Nat) : State :=
  s.runVec c (fun v => v.slot == k && v.isMem) (vecFuel (s.coreAt c).vecq)
def State.finishVecAll (s : State) (c : Nat) : State := s.runVec c (fun _ => true) (vecFuel (s.coreAt c).vecq)

/-- What a slot's next access to memory follows: its vector accesses and its posted STF and SETE (R146, R230, R150). -/
def settleM : M Unit := modS fun s => (s.finishVecMem s.core s.slot).orderHomes s.core s.slot

/-- Every vector command of the issuing slot has executed. -/
def vecDoneM : M Unit := modS fun s => s.finishVec s.core s.slot

end Sys2Proof.Machine
end

