-- ==== Sys2Proof/Machine/Rings.lean ====
section
/-! DEFINITION. What a core does with messages: the accesses of hardware (R418), the vector table (R38 to R41), the inbound
queues and arrival (R39, R43, R95), the ready ring, the cullet ring and the spill latch (R330 to R334). -/

namespace Sys2Proof.Machine

/-! ### Accesses of hardware for a lease (R418) -/

/-- Read bytes through a lease's translation with the rights of domain 0, as an access of a core. -/
def hwRead (c lease dva n : Nat) : M (List Byte) := do
  let pl ← checkPlace (Party.hw c lease) (BitVec.ofNat 64 dva) n false
  match pl with
  | .spad off =>
    let s ← getS
    let l := s.lcoreAt lease c
    if l.spadPoisoned off n then throw .poison else return l.spadBytes off n
  | .mem a x => readLoc c none a n x

/-- Write bytes at a checked place as an access of a core's hardware. -/
def State.hwStore (s : State) (c lease : Nat) (pl : Place) (bytes : List Byte) : State :=
  match pl with
  | .spad off => s.setLCore lease c ((s.lcoreAt lease c).writeSpad off bytes)
  | .mem a x =>
    let die := dieOf c
    if x.kind = 0 ∧ !ownView die (x.paOf a) then
      (s.holdLine c none a x).mapLine die lease (a / 64) fun l => l.write (a % 64) bytes true
    else s.storeHome x (x.paOf a) bytes

def hwWrite (c lease dva : Nat) (bytes : List Byte) : M Unit := do
  let pl ← checkPlace (Party.hw c lease) (BitVec.ofNat 64 dva) bytes.length true
  modS fun s => s.hwStore c lease pl bytes

/-- Run an access of hardware: `none` where it fails; consumed poison resets the lease (R381). -/
def State.runHw {α : Type} (s : State) (lease : Nat) (m : M α) : State × Option α :=
  match m s with
  | .ok a s' => (s', some a)
  | .error .poison s' => (s'.poisoned lease, none)
  | .error _ s' => (s', none)

/-! ### The vector table -/

/-- The fields of a vector-table entry (R38). -/
structure VtEntry where
  handler : Nat
  cls : Nat
  en : Bool
  cc : Bool
  prio : Nat
  dom : Nat
  zeros : Bool
deriving DecidableEq, Repr

def vtOfBytes (bs : List Byte) : VtEntry :=
  let w := leNat (bs.take 8)
  let b8 := (bs.getD 8 0#8).toNat
  { handler := bitsOf w 47 2 * 4, cls := bitsOf w 1 0, en := b8.testBit 3, cc := b8.testBit 2, prio := b8 % 4,
    dom := (bs.getD 9 0#8).toNat, zeros := bitsOf w 63 48 == 0 && b8 / 16 == 0 && (bs.drop 10).all (· == 0#8) }

/-- Types that hardware alone sends (R41). -/
def hwType (t : Nat) : Bool := t == 0xF1 || t == 0xF2 || t == 0xF3 || t == 0xF5

/-- Whether an entry serves a message of a type (R40, R41). -/
def VtEntry.usable (e : VtEntry) (type : Nat) : Bool :=
  e.zeros && (type == 0xFE || (e.handler != 0 && (hwType type || e.cls != 3)))

/-- An entry as the core reads it, from what it has cached since the last write of `vtb`; `none` where the read fails
(R39, R40). -/
def State.vtEntry (s : State) (c lease type : Nat) : State × Option VtEntry :=
  let l := s.lcoreAt lease c
  match tabFind l.vcache type with
  | some bs => (s, some (vtOfBytes bs))
  | none =>
    match s.runHw lease (hwRead c lease (l.vtb.toNat + 16 * type) 16) with
    | (s', some bs) =>
      let l' := s'.lcoreAt lease c
      (s'.setLCore lease c { l' with vcache := tabPut l'.vcache type bs }, some (vtOfBytes bs))
    | (s', none) => (s', none)

/-- The usable entry of a type. -/
def State.vtUsable (s : State) (c lease type : Nat) : State × Option VtEntry :=
  match s.vtEntry c lease type with
  | (s', some e) => (s', if e.usable type then some e else none)
  | (s', none) => (s', none)

/-- Enable bit of a type; the four hardware types read 1 (R31, R41). -/
def LCore.enabled (l : LCore) (type : Nat) : Bool :=
  hwType type || (tabGet 0#64 l.ten (type / 64)).getLsbD (type % 64)
def LCore.setEnabled (l : LCore) (type : Nat) (b : Bool) : LCore :=
  { l with ten := tabPut l.ten (type / 64) (setBit (tabGet 0#64 l.ten (type / 64)) (type % 64) b) }

/-- Load the enables from the entries' EN bits, for the types 0 to n - 1 (R39). The enable bit of a type whose entry cannot be read is
cleared: the spec does not say (log entry 64). -/
def State.loadEnables (s : State) (c lease : Nat) : Nat → State
  | 0 => s
  | n + 1 =>
    let s := s.loadEnables c lease n
    match s.vtEntry c lease n with
    | (s', some e) => s'.setLCore lease c ((s'.lcoreAt lease c).setEnabled n e.en)
    | (s', none) => s'.setLCore lease c ((s'.lcoreAt lease c).setEnabled n false)

/-- A write of `vtb` (R39): cached entries go; a changed value loads the enables. -/
def State.writeVtb (s : State) (c lease : Nat) (v : Word) : State :=
  let v := v &&& 0xFFFFFFFFF000#64
  let l := s.lcoreAt lease c
  let s := s.setLCore lease c { l with vtb := v, vcache := [] }
  if v = l.vtb then s else s.loadEnables c lease 256

/-! ### Dropped messages -/

/-- A member's entry message of a gang is dropped: it can never reach the barrier. -/
def State.gangDrop (s : State) (m : Msg) : State :=
  match m.gang with
  | none => s
  | some g =>
    match tabFind s.gangs g with
    | none => s
    | some v => { s with gangs := tabPut s.gangs g { v with live := v.live.filter fun x => x.1 != m.core } }

/-- A message is discarded: counted in its lease and subtracted from its launch (R89). -/
def State.discardMsg (s : State) (m : Msg) : State :=
  let s := s.countLease m.lease fun l => { l with dropped := l.dropped + 1 }
  let s := if m.counted then s.addOpen m.tag (-1) else s
  let s := if m.entry.isSome then s.serialOver m.tag m.core m.wid else s
  s.gangDrop m

/-- A message is dropped: discarded and reported (R40). -/
def State.dropMsg (s : State) (m : Msg) : State :=
  let s := s.discardMsg m
  if m.type = 0xF5 then s.countLease m.lease fun l => { l with lost := l.lost + 1 }
  else s.raiseEvent m.lease m.core [2, BitVec.ofNat 64 m.type, m.sender, BitVec.ofNat 64 m.tag] m.tag

/-! ### Ring control (R331) -/

def LCore.ctl (l : LCore) (off : Nat) : Nat := l.readSpad off 8
def LCore.setCtl (l : LCore) (off v : Nat) : LCore := l.putSpad off (leBytes 8 v)
def LCore.rhead (l : LCore) : Nat := bitsOf (l.ctl 0x3F808) 13 8
def LCore.rcount (l : LCore) : Nat := bitsOf (l.ctl 0x3F808) 6 0
def LCore.setReady (l : LCore) (head count : Nat) : LCore := l.setCtl 0x3F808 (head % 64 * 256 + count)
def LCore.cfault (l : LCore) : Nat := bitsOf (l.ctl 0x3F810) 49 48
def LCore.ccount (l : LCore) : Nat := bitsOf (l.ctl 0x3F810) 47 24
def LCore.chead (l : LCore) : Nat := bitsOf (l.ctl 0x3F810) 23 0
def LCore.setCullet (l : LCore) (fault count head : Nat) : LCore :=
  l.setCtl 0x3F810 (head % 2 ^ 24 + count % 2 ^ 24 * 2 ^ 24 + fault * 2 ^ 48)
/-- JFAULT and JOVER hold their last value (R331). -/
def LCore.countJoin (l : LCore) (fault : Bool) : LCore :=
  let v := l.ctl 0x3F818
  let jf := bitsOf v 63 32
  let jo := bitsOf v 31 0
  if fault then l.setCtl 0x3F818 (sat32 jf * 2 ^ 32 + jo) else l.setCtl 0x3F818 (jf * 2 ^ 32 + sat32 jo)

/-- Whether a ring control word holds poison, which the core consumes where it reads it (R381, R384). -/
def LCore.ringBad (l : LCore) : Bool := l.spadPoisoned 0x3F808 24

/-! ### Records (R330) -/

/-- A codelet's record: type, tag, argument and join offset. -/
def codeletRec (type tag joff : Nat) (arg : Nat) : List Byte :=
  leBytes 8 (type + tag * 256 + joff * 2 ^ 32) ++ leBytes 8 arg

/-- A message's record. -/
def msgRec (m : Msg) : List Byte :=
  let n := (1 + m.args.length + 1) / 2
  let body := (m.wid :: m.args).flatMap fun w => leBytes 8 w.toNat
  leBytes 8 (m.type + m.tag * 256 + n * 2 ^ 16 + m.args.length * 2 ^ 20 + 2 ^ 23) ++ leBytes 8 m.sender.toNat ++
    (body ++ List.replicate 8 0#8).take (16 * n)

def recType (r : List Byte) : Nat := (r.getD 0 0#8).toNat
def recTag (r : List Byte) : Nat := (r.getD 1 0#8).toNat
def recIsMsg (r : List Byte) : Bool := (r.getD 2 0#8).getLsbD 7
def recJoff (r : List Byte) : Nat := bitsOf (leNat (r.take 8)) 49 32
/-- Entries of a record, its head read: one more than NEXT. -/
def recEntries (head : List Byte) : Nat := 1 + (head.getD 2 0#8).toNat % 8

/-- The launch of a lease that a header of this class, priority and phase describes (R46, R49). -/
def hdrEntry (h : List Byte) : Nat × Nat × Nat :=
  let b := (h.getD 3 0#8).toNat
  (b / 4 % 4, b % 4, (h.getD 46 0#8).toNat % 16)

/-- What is kept of a message whose record enters a ring (R44, R89, R155). -/
def Msg.fact (m : Msg) : RecFact := { srcLease := m.srcLease, counted := m.counted, sender := m.sender }

/-- Records with what is kept of each: message records have a fact each, in order; a codelet has none. -/
def pairFacts : List (List Byte) → List RecFact → List (List Byte × Option RecFact)
  | [], _ => []
  | r :: rest, fs => if recIsMsg r then (r, fs.head?) :: pairFacts rest fs.tail else (r, none) :: pairFacts rest fs

/-- The message that a record holds for a core of a lease: a codelet, or a message as it was sent, with what the core kept of it. An
entry message is known by its sender, the hardware of the receiving core itself, and by the type of its live launch (R45, R330). -/
def State.msgOfRec (s : State) (c lease : Nat) (r : List Byte) (f : Option RecFact := none) : Msg :=
  let word := BitVec.ofNat 64 (leNat ((r.drop 8).take 8))
  let tag := recTag r
  let live := s.liveLaunch lease tag
  let base := Msg.hw (recType r) lease c s.node [] 0 tag
  if recIsMsg r then
    let argc := (r.getD 2 0#8).toNat / 16 % 8
    let dw := fun (i : Nat) => BitVec.ofNat 64 (leNat ((r.drop (16 + 8 * i)).take 8))
    let entry := match live with
      | some h => if word = hwSender s.node c ∧ argc = 0 ∧ ((f.map (·.srcLease)).getD lease) = lease ∧ (h.hdr.getD 2 0#8).toNat = recType r then some (hdrEntry h.hdr) else none
      | none => none
    let gang := if entry.isSome then
        (s.gangs.find? fun g => g.2.lease == lease && g.2.tag == tag && g.2.rows.contains (rowOf c) && g.2.live.any fun m => m.1 == c).map (·.1)
      else none
    { base with args := (List.range argc).map fun i => dw (1 + i), sender := word, wid := dw 0,
                counted := (f.map (·.counted)).getD live.isSome, srcLease := (f.map (·.srcLease)).getD lease, entry := entry, gang := gang }
  else
    { base with args := [word, BitVec.ofNat 64 (Config.localBase + recJoff r)], counted := live.isSome }

/-! ### The ready ring -/

def readyEntry (i : Nat) : Nat := 0x3FC00 + 16 * (i % 64)

/-- Write entries at the ready ring's tail. -/
def LCore.pushReady (l : LCore) (r : List Byte) : LCore :=
  let n := r.length / 16
  let l' := (List.range n).foldl (fun (l : LCore) i => l.putSpad (readyEntry (l.rhead + l.rcount + i)) ((r.drop (16 * i)).take 16)) l
  l'.setReady l.rhead (l.rcount + n)
def LCore.readyRoom (l : LCore) (r : List Byte) : Bool := decide (l.rcount + r.length / 16 ≤ 64)
/-- The head record of the ready ring. -/
def LCore.readyHead (l : LCore) : Option (List Byte) :=
  if l.rcount = 0 then none
  else
    let h := l.spadBytes (readyEntry l.rhead) 16
    some ((List.range (recEntries h)).flatMap fun i => l.spadBytes (readyEntry (l.rhead + i)) 16)
def LCore.popReady (l : LCore) (r : List Byte) : LCore :=
  let l := { l.setReady (l.rhead + r.length / 16) (l.rcount - r.length / 16) with headEntry := none }
  if recIsMsg r then { l with readyFacts := l.readyFacts.tail } else l
/-- Whether the entries of the head record, or the control words, hold poison (R381). -/
def LCore.headBad (l : LCore) : Bool :=
  l.ringBad || (List.range (recEntries (l.spadBytes (readyEntry l.rhead) 16))).any fun i => l.spadPoisoned (readyEntry (l.rhead + i)) 16
/-- What is kept of the head record of the ready ring. -/
def LCore.headFact (l : LCore) (r : List Byte) : Option RecFact := if recIsMsg r then l.readyFacts.head? else none

/-- Records in the ready ring (R85). -/
def LCore.readyRecords (l : LCore) : Nat → Nat → Nat
  | 0, _ => 0
  | n + 1, i => if l.rcount ≤ i then 0 else 1 + l.readyRecords n (i + recEntries (l.spadBytes (readyEntry (l.rhead + i)) 16))

/-- Whether an entry of the vector table takes a message: an entry message's class is its header's (R39). -/
def VtEntry.takes (e : VtEntry) (m : Msg) : Bool :=
  match m.entry with
  | some (cls, _, _) => cls == e.cls
  | none => true

/-- A record that becomes the head of the ready ring has its vector-table entry read then, once; one whose entry is unusable, or an entry
message whose entry has another class than its header, is dropped at once, and the next becomes the head (R39, R96). A poisoned record is
consumed (R381). -/
def State.headRead (s : State) (c lease : Nat) : Nat → State
  | 0 => s
  | n + 1 =>
    let l := s.lcoreAt lease c
    match (if l.headEntry.isSome then none else l.readyHead) with
    | none => s
    | some r =>
      if l.headBad then s.poisoned lease
      else match s.vtUsable c lease (recType r) with
      | (s', e) =>
        let l' := s'.lcoreAt lease c
        let m := s'.msgOfRec c lease r (l'.headFact r)
        if e.any fun e => e.takes m then s'.setLCore lease c { l' with headEntry := tabFind l'.vcache (recType r) }
        else ((s'.setLCore lease c (l'.popReady r)).dropMsg m).headRead c lease n

/-- The head of a core's ready ring is read where it has not been. -/
def State.headReads (s : State) (c lease : Nat) : State := s.headRead c lease (s.lcoreAt lease c).rcount

/-! ### The cullet ring and the spill latch -/

/-- The DVA of an entry of the cullet ring (R332). -/
def LCore.culletDva (l : LCore) (i : Nat) : Nat := l.cull.toNat + 16 * (i % l.cullsz)

/-- Write a record's entries from an index; the index of the entry that fails, if one does. -/
def State.writeRec (s : State) (c lease : Nat) (idx : Nat) (r : List Byte) : Nat → State × Option Nat
  | 0 => (s, none)
  | n + 1 =>
    match s.writeRec c lease idx r n with
    | (s', some f) => (s', some f)
    | (s', none) =>
      let l := s'.lcoreAt lease c
      match s'.runHw lease (hwWrite c lease (l.culletDva (idx + n)) ((r.drop (16 * n)).take 16)) with
      | (s'', some _) => (s'', none)
      | (s'', none) => (s'', some (idx + n))

/-- A spill upcall in its reserve entry, where the lease holds the core, with the tag of what it reports on (R89, R333). One that finds an earlier
0xF3 upcall there still, as a refill fault or a retry that fails again may, takes its place: R95 calls the entry free (DESIGN CHOICE; log entry
69). -/
def State.ringUpcall (s : State) (c lease : Nat) (fault dva type : Nat) (tag : Nat := 0) : State :=
  if s.holderOf c == some lease then
    let m := Msg.hw 0xF3 lease c s.node [BitVec.ofNat 64 fault, BitVec.ofNat 64 dva, BitVec.ofNat 64 type] 0 tag
    let k := s.coreAt c
    s.setCore c { k with reserve := tabPut k.reserve 16 { m with fresh := true } }
  else s

/-- Set or clear STUCK in a codelet record's join word (R333, R334). -/
def LCore.setStuck (l : LCore) (r : List Byte) (b : Bool) : LCore :=
  if recIsMsg r then l
  else
    let off := recJoff r
    let w := BitVec.ofNat 64 (l.readSpad off 8)
    l.putSpad off (leBytes 8 (setBit w 41 b).toNat)

/-- Whether the join word of a codelet's record, in which STUCK is set or cleared, holds poison (R381). -/
def LCore.stuckBad (l : LCore) (r : List Byte) : Bool := !recIsMsg r && l.spadPoisoned (recJoff r) 8

/-- Try to append a record to the cullet ring's tail: 0 done, else CFAULT and the failing entry's DVA (R333). -/
def State.trySpill (s : State) (c lease : Nat) (r : List Byte) : State × Nat × Nat :=
  let l := s.lcoreAt lease c
  let n := r.length / 16
  let tail := l.chead + l.ccount
  if l.cullsz = 0 ∨ l.cullsz < l.ccount + n then (s, 1, if l.cullsz = 0 then l.cull.toNat else l.culletDva tail)
  else match s.writeRec c lease tail r n with
    | (s', some f) => (s', 2, (s'.lcoreAt lease c).culletDva f)
    | (s', none) =>
      let l := s'.lcoreAt lease c
      (s'.setLCore lease c (l.setCullet l.cfault (l.ccount + n) l.chead), 0, 0)

/-- Spill a record; on failure it stands in the spill latch (R333). -/
def State.spill (s : State) (c lease : Nat) (r : List Byte) : State :=
  match s.trySpill c lease r with
  | (s', 0, _) => s'
  | (s', f, dva) =>
    let l := s'.lcoreAt lease c
    if l.stuckBad r then s'.poisoned lease else
    let l := (l.setCullet f l.ccount l.chead).setStuck r true
    let l := { l with latched := some r, latch := BitVec.ofNat 16 (recType r * 256 + 1), latchDva := dva }
    (s'.setLCore lease c l).ringUpcall c lease f dva (recType r) (recTag r)

/-- A message is appended to a cullet ring, with what its record does not say (R43, R377). A poisoned message, which the core reads to write its
record, is consumed, and discarded (R381). -/
def State.spillMsg (s : State) (c lease : Nat) (m : Msg) : State :=
  if m.poison then (s.discardMsg m).poisoned lease
  else if (s.lcoreAt lease c).ringBad then s.poisoned lease else
  let s := s.spill c lease (msgRec m)
  let l := s.lcoreAt lease c
  s.setLCore lease c { l with culletFacts := l.culletFacts ++ [m.fact] }

/-- A push of a record (R332): it waits while the latch is held. -/
def State.pushRec (s : State) (c lease : Nat) (r : List Byte) : State :=
  let l := s.lcoreAt lease c
  if l.ringBad then s.poisoned lease
  else if l.latched.isSome then s.setLCore lease c { l with pushes := l.pushes ++ [r] }
  else if l.readyRoom r && l.ccount == 0 then (s.setLCore lease c (l.pushReady r)).headReads c lease
  else s.spill c lease r

/-- The waiting pushes go on, in order, until one is held again. -/
def State.resumePushes (s : State) (c lease : Nat) : Nat → State
  | 0 => s
  | n + 1 =>
    let l := s.lcoreAt lease c
    match l.pushes with
    | [] => s
    | r :: rest =>
      if l.latched.isSome then s
      else ((s.setLCore lease c { l with pushes := rest }).pushRec c lease r).resumePushes c lease n

/-- Writing 1 to `latch.HELD`: the held record is retried, refills go on (R334). Poison in the ring's control words, or in the join word of a
held codelet, is consumed, and nothing is retried (R381). -/
def State.releaseLatch (s : State) (c lease : Nat) : State :=
  let l := s.lcoreAt lease c
  let s := s.setLCore lease c { l with refillStop := false }
  match l.latched with
  | none => s
  | some r =>
    if l.ringBad || l.stuckBad r then s.poisoned lease
    else match s.trySpill c lease r with
    | (s', 0, _) =>
      let l := s'.lcoreAt lease c
      let l := (l.setCullet 0 l.ccount l.chead).setStuck r false
      (s'.setLCore lease c { l with latched := none, latch := 0 }).resumePushes c lease l.pushes.length
    | (s', f, dva) =>
      let l := s'.lcoreAt lease c
      (s'.setLCore lease c { l.setCullet f l.ccount l.chead with latchDva := dva }).ringUpcall c lease f dva (recType r) (recTag r)

/-! ### Arrival (R39, R43, R95) -/

/-- The inbound queue of a class, and its entries (R95). -/
def Core.queue (k : Core) (cls : Nat) : List Msg := tabGet [] k.inbound cls
def Core.setQueue (k : Core) (cls : Nat) (q : List Msg) : Core := { k with inbound := tabPut k.inbound cls q }
def queueSize (cls : Nat) : Nat := if cls = 0 then Config.workQueue else Config.sideQueue

/-- Entries of a queue that messages on their way have reserved; class 3 is the carried-code queue. -/
def Core.reserved (k : Core) (cls : Nat) : Nat := (k.transit.filter fun m => m.room == some cls).length
/-- Whether a queue has room for a message, beside what others have reserved (R95, R154). -/
def Core.fits (k : Core) (cls : Nat) (m : Msg) : Bool :=
  let held := if cls = 3 then k.carried.length else (k.queue cls).length
  let size := if cls = 3 then Config.carriedQueue else queueSize cls
  if m.room = some cls then decide (held < size) else decide (held + k.reserved cls < size)
/-- A message enters a queue of its core. -/
def Core.enter (k : Core) (cls : Nat) (m : Msg) : Core :=
  let m := { m with room := none, origin := none, stamp := k.arrivals }
  let k := { k with arrivals := k.arrivals + 1 }
  if cls = 3 then { k with carried := k.carried ++ [m] } else k.setQueue cls (k.queue cls ++ [m])

/-- A message enters a queue, or finds no room there. -/
def State.tryEnter (s : State) (cls : Nat) (m : Msg) (prio : Nat) : State × Bool :=
  let k := s.coreAt m.core
  if k.fits cls m then (s.setCore m.core (k.enter cls { m with prio := prio }), true) else (s, false)

/-- Whether a message's lease does not hold its core, or is about to lose it: it goes to the cullet ring (R43, R377). -/
def State.elsewhere (s : State) (m : Msg) : Bool :=
  s.holderOf m.core != some m.lease || (s.quadAt (quadOf m.core)).preempt

/-- A message reaches its core; false where it has no room. A quadrant held by another lease, or being switched, sends it to
its lease's cullet ring (R43, R377), a JDEC aside, which waits (log entry 16). -/
def State.arrive (s : State) (m : Msg) : State × Bool :=
  let c := m.core
  if s.elsewhere m then
    if m.jdec.isSome then (s, false)
    else if (s.lcoreAt m.lease c).latched.isSome then (s, false)
    else (s.spillMsg c m.lease m, true)
  else if m.jdec.isSome then s.tryEnter 3 m 0
  else match s.vtUsable c m.lease m.type with
    | (s', none) => (s'.dropMsg m, true)
    | (s', some e) =>
      if m.type = 0xFE then
        if !e.cc then (s'.dropMsg m, true) else s'.tryEnter 3 m 0
      else match m.entry with
        | some (cls, prio, _) => if e.takes m then s'.tryEnter cls m prio else (s'.dropMsg m, true)
        | none => s'.tryEnter e.cls m e.prio

/-- Where a message that a slot sends has room (R154): the class whose entry it reserves, none where it needs none, `none` where
there is no room. -/
def State.roomFor (s : State) (m : Msg) : State × Option (Option Nat) :=
  let c := m.core
  let room := fun (s : State) (cls : Nat) => (s, if (s.coreAt c).fits cls m then some (some cls) else none)
  if s.elsewhere m then (s, if m.jdec.isSome || (s.lcoreAt m.lease c).latched.isSome then none else some none)
  else if m.jdec.isSome then room s 3
  else match s.vtUsable c m.lease m.type with
    | (s', none) => (s', some none)
    | (s', some e) => if m.type = 0xFE then (if e.cc then room s' 3 else (s', some none)) else room s' e.cls

/-- A message is on its way to its core. -/
def State.post (s : State) (m : Msg) : State :=
  let k := s.coreAt m.core
  s.setCore m.core { k with transit := k.transit ++ [m] }

/-! ### Refills of the ready ring (R332) -/

/-- A record of the cullet ring, read for the lease entry by entry; where a read fails, the index of the entry that failed. -/
def State.readRec (s : State) (c lease i : Nat) : State × Except Nat (List Byte) :=
  let l := s.lcoreAt lease c
  match s.runHw lease (hwRead c lease (l.culletDva i) 16) with
  | (s', none) => (s', .error i)
  | (s', some h) =>
    (List.range (recEntries h - 1)).foldl (fun (st : State × Except Nat (List Byte)) k =>
      match st.2 with
      | .error _ => st
      | .ok b => (match st.1.runHw lease (hwRead c lease (l.culletDva (i + 1 + k)) 16) with
        | (s2, some e) => (s2, .ok (b ++ e))
        | (s2, none) => (s2, .error (i + 1 + k)))) (s', .ok h)

/-- The record at the cullet ring's head, of `n` entries, leaves the ring. -/
def LCore.popCullet (l : LCore) (n : Nat) : LCore := l.setCullet l.cfault (l.ccount - n) ((l.chead + n) % l.cullsz)

/-- A refill read faults (R334): CFAULT is 3, refills stop, and the upcall names the entry that failed, with the type of the record that
the spill latch holds, 0 where it holds none (log entry 59). -/
def State.refillFails (s : State) (c lease i : Nat) : State :=
  let l := s.lcoreAt lease c
  (s.setLCore lease c { l.setCullet 3 l.ccount l.chead with refillStop := true }).ringUpcall c lease 3 (l.culletDva i)
    ((l.latched.map recType).getD 0) ((l.latched.map recTag).getD 0)

/-- A carried-code message at the cullet ring's head arrives: it starts no slot, so it goes to the carried-code queue where there is room,
or is dropped, as CC decides (R39, R41, R157; log entry 60). -/
def State.refillCarried (s : State) (c lease : Nat) (r : List Byte) : State :=
  let l := s.lcoreAt lease c
  let m := s.msgOfRec c lease r l.culletFacts.head?
  let taken := s.setLCore lease c { l.popCullet (r.length / 16) with culletFacts := l.culletFacts.tail }
  if s.elsewhere m then s
  else match taken.arrive m with
    | (s', true) => s'
    | (_, false) => s

/-- The cullet ring's head record moves to the ready ring where it has room (R332); a read that faults stops refills. R39 speaks of a message that is
taken from the cullet ring into an inbound queue, R332 of whole records that move to the ready ring, where R96 lets no enable gate them: every
record but one of type 0xFE goes to the ready ring (DESIGN CHOICE; log entry 69). -/
def State.refill (s : State) (c : Nat) : State :=
  match s.holderOf c with
  | none => s
  | some lease =>
    let l := s.lcoreAt lease c
    if l.ringBad then s.poisoned lease
    else if l.ccount = 0 || l.refillStop || l.cullsz == 0 then s
    else match s.readRec c lease l.chead with
      | (s', .error i) => s'.refillFails c lease i
      | (s', .ok r) =>
        let l := s'.lcoreAt lease c
        let n := r.length / 16
        if l.ccount < n then s
        else if recIsMsg r && recType r == 0xFE then s'.refillCarried c lease r
        else if l.readyRoom r then
          let l' := (l.pushReady r).popCullet n
          (s'.setLCore lease c (if recIsMsg r then
            { l' with culletFacts := l'.culletFacts.tail, readyFacts := l'.readyFacts ++ l'.culletFacts.head?.toList } else l')).headReads c lease
        else s

end Sys2Proof.Machine
end

