-- ==== Sys2Proof/Machine/Csr.lean ====
section
/-! DEFINITION. The CSRs (R31, R32) and the six CSR forms (R117, R118). -/

namespace Sys2Proof.Machine

/-- CSRs that only the runtime class may read (R31). -/
def csrReadRuntime (n : Nat) : Bool := n == 0x060 || n == 0x061 || n == 0x062
/-- CSRs that only the runtime class may write (R31). -/
def csrWriteRuntime (n : Nat) : Bool := decide (0x030 ≤ n) && decide (n ≤ 0x03B)

/-- A per-slot CSR of a slot (R31). -/
def Slot.csr (t : Slot) (k n : Nat) : Option Word :=
  match n with
  | 0x000 => some t.wid
  | 0x001 => some (BitVec.ofNat 64 (lidOf t))
  | 0x002 => some (BitVec.ofNat 64 (sidOf t k))
  | 0x004 => some (t.ss.zeroExtend 64)
  | 0x005 => some (t.ff.zeroExtend 64)
  | 0x006 => some (t.phase.zeroExtend 64)
  | 0x007 => some (t.dom.zeroExtend 64)
  | 0x008 => some (BitVec.ofNat 64 t.depth)
  | 0x009 => some (t.ctype.zeroExtend 64)
  | 0x00A => some (t.bexp.zeroExtend 64)
  | 0x010 => some (t.lcN 0)
  | 0x011 => some ((t.lsN 0).zeroExtend 64)
  | 0x012 => some ((t.leN 0).zeroExtend 64)
  | 0x013 => some (t.lcN 1)
  | 0x014 => some ((t.lsN 1).zeroExtend 64)
  | 0x015 => some ((t.leN 1).zeroExtend 64)
  | 0x042 => some (t.wdc.zeroExtend 64)
  | 0x050 => some t.hlc
  | 0x051 => some t.hrc
  | _ => none

/-- The four hardware types read enabled (R41): types 0xF1, 0xF2, 0xF3 and 0xF5 of `ten3`. -/
def tenFixed : Word := 0x002E000000000000#64

/-- Whether `gtb` is locked: the lease's mask lacks S1 (R363). -/
def State.gtbIsLocked (s : State) (lease : Nat) : Bool := !(s.leaseD lease).mask.getLsbD 2
/-- `gtb` of a lease on a core: the locked value while it is locked (R363). -/
def State.gtbOf (s : State) (lease c : Nat) : Word :=
  if s.gtbIsLocked lease then BitVec.ofNat 64 Config.gtbLocked else (s.lcoreAt lease c).gtb

/-- A core or lease CSR, for a lease on a core (R31). -/
def State.leaseCsr (s : State) (lease c n : Nat) : Word :=
  let l := s.lcoreAt lease c
  match n with
  | 0x003 => BitVec.ofNat 64 (s.node * 2 ^ 32 + c)
  | 0x020 => l.mst.zeroExtend 64
  | 0x021 => l.skb.zeroExtend 64
  | 0x030 => l.vtb
  | 0x031 => tabGet 0#64 l.ten 0
  | 0x032 => tabGet 0#64 l.ten 1
  | 0x033 => tabGet 0#64 l.ten 2
  | 0x034 => tabGet 0#64 l.ten 3 ||| tenFixed
  | 0x038 => s.gtbOf lease c
  | 0x039 => l.cull
  | 0x03A => BitVec.ofNat 64 l.cullsz
  | 0x03B => l.latch.zeroExtend 64
  | 0x040 => (s.coreAt c).cyc
  | 0x041 => (s.leaseD lease).wdl.zeroExtend 64
  | 0x060 => l.fca.zeroExtend 64
  | 0x061 => l.fad
  | 0x062 => l.fsl.zeroExtend 64
  | _ => 0#64

/-- The value of a CSR for the slot of a core. -/
def State.csrValue (s : State) (c k n : Nat) : Word :=
  let t := s.slotAt c k
  match t.csr k n with
  | some v => v
  | none => s.leaseCsr t.lease c n

/-- Write a per-slot CSR that every class may write (R31, R32). -/
def Slot.setCsr (t : Slot) (n : Nat) (v : Word) : Slot :=
  let pc := (v.setWidth 48) &&& 0xFFFFFFFFFFFC#48
  match n with
  | 0x005 => { t with ff := ffWrite v }
  | 0x006 => { t with phase := v.setWidth 4 }
  | 0x009 => { t with ctype := v.setWidth 8 }
  | 0x00A => { t with bexp := v.setWidth 8 }
  | 0x010 => t.setLc 0 (v &&& 0xFFFFFFFF#64)
  | 0x011 => t.setLs 0 pc
  | 0x012 => t.setLe 0 pc
  | 0x013 => t.setLc 1 (v &&& 0xFFFFFFFF#64)
  | 0x014 => t.setLs 1 pc
  | 0x015 => t.setLe 1 pc
  | _ => t

/-- A write of `gtb` (R31, R363). -/
def State.writeGtb (s : State) (c lease : Nat) (v : Word) : State :=
  s.setLCore lease c { s.lcoreAt lease c with gtb := v &&& 0xFFFFFFFFF800#64 }
/-- A write of `cull` sets CHEAD to 0 (R334). -/
def State.writeCull (s : State) (c lease : Nat) (v : Word) : State :=
  let l := s.lcoreAt lease c
  s.setLCore lease c { l.setCullet l.cfault l.ccount 0 with cull := v &&& 0xFFFFFFFFF000#64 }
/-- A write of `cullsz` keeps CHEAD and CCOUNT (R334). -/
def State.writeCullsz (s : State) (c lease : Nat) (v : Word) : State :=
  s.setLCore lease c { s.lcoreAt lease c with cullsz := (v &&& 0xFFFF00#64).toNat }

/-- Write a lease CSR as the runtime class (R31). -/
def State.setLeaseCsr (s : State) (c lease n : Nat) (v : Word) : State :=
  let l := s.lcoreAt lease c
  match n with
  | 0x030 => s.writeVtb c lease v
  | 0x031 => s.setLCore lease c { l with ten := tabPut l.ten 0 v }
  | 0x032 => s.setLCore lease c { l with ten := tabPut l.ten 1 v }
  | 0x033 => s.setLCore lease c { l with ten := tabPut l.ten 2 v }
  | 0x034 => s.setLCore lease c { l with ten := tabPut l.ten 3 (v ||| tenFixed) }
  | 0x038 => s.writeGtb c lease v
  | 0x039 => s.writeCull c lease v
  | 0x03A => s.writeCullsz c lease v
  | 0x03B => if v.getLsbD 0 then s.releaseLatch c lease else s
  | _ => s

/-- The passes of a gang that are accepted complete. -/
def State.finishGang (s : State) (g : Option Nat) : State :=
  match g with
  | none => s
  | some gk => (List.range (((tabFind s.gangs gk).map (·.passes.length)).getD 0)).foldl (fun s _ => s.passInTurn gk s.passFuel) s

/-- The value that a CSR read answers from the one at issue and the one after the slot's vector commands and passes have reported: `skb`
and the BUSY bits of `mst` are those of the clk of issue (R118). -/
def csrSeen (n : Nat) (issue reported : Word) : Word :=
  if n = 0x020 then (issue &&& 0xFF00#64) ||| (reported &&& 0xFF#64) else if n = 0x021 then issue else reported

/-- One indivisible read and write of a CSR (R117): `f` gives the value written, where the form writes. It waits for the slot's vector
commands and, where it reads `mst`, for the passes of its gang to report (R118). A read of `hlc` or `hrc` does not wait for the slot's stores and
REDs that stand in the store buffer, and reads the counts without them: the rule names vector and matrix commands alone (DESIGN CHOICE; log
entry 68). -/
def csrForm (d : BitVec 5) (csr : BitVec 12) (f : Option (Word → Word)) : M Flow := do
  let n := csr.toNat
  let s0 ← getS
  vecDoneM
  if n = 0x020 then modS fun s => s.finishGang s.cur.gang
  let s ← getS
  let t := s.cur
  if csrReadRuntime n && t.cls != 2 then faultM causePriv
  if f.isSome && csrWriteRuntime n && (t.cls != 2 || (n == 0x038 && s.gtbIsLocked t.lease)) then faultM causePriv
  let old := csrSeen n (s0.csrValue s0.core s0.slot n) (s.csrValue s.core s.slot n)
  match f with
  | none => pure ()
  | some g =>
    modCur fun t => t.setCsr n (g old)
    if csrWriteRuntime n then modS fun s => s.setLeaseCsr s.core s.cur.lease n (g old)
  setXM d old
  return .seq

/-- CSRRW (R117). -/
def execCsrrw (d a : BitVec 5) (csr : BitVec 12) (s : State) : Host.Outcome State Fault Refusal :=
  let src := s.cur.getX a
  runSlot (csrForm d csr (some fun _ => src)) s
/-- CSRRS (R117). -/
def execCsrrs (d a : BitVec 5) (csr : BitVec 12) (s : State) : Host.Outcome State Fault Refusal :=
  let src := s.cur.getX a
  runSlot (csrForm d csr (if a = 0#5 then none else some fun old => old ||| src)) s
/-- CSRRC (R117). -/
def execCsrrc (d a : BitVec 5) (csr : BitVec 12) (s : State) : Host.Outcome State Fault Refusal :=
  let src := s.cur.getX a
  runSlot (csrForm d csr (if a = 0#5 then none else some fun old => old &&& ~~~src)) s
/-- CSRRWI (R117). -/
def execCsrrwi (d u : BitVec 5) (csr : BitVec 12) (s : State) : Host.Outcome State Fault Refusal :=
  runSlot (csrForm d csr (some fun _ => u.zeroExtend 64)) s
/-- CSRRSI (R117). -/
def execCsrrsi (d u : BitVec 5) (csr : BitVec 12) (s : State) : Host.Outcome State Fault Refusal :=
  runSlot (csrForm d csr (if u = 0#5 then none else some fun old => old ||| u.zeroExtend 64)) s
/-- CSRRCI (R117). -/
def execCsrrci (d u : BitVec 5) (csr : BitVec 12) (s : State) : Host.Outcome State Fault Refusal :=
  runSlot (csrForm d csr (if u = 0#5 then none else some fun old => old &&& ~~~(u.zeroExtend 64))) s

end Sys2Proof.Machine
end

