-- ==== Sys2Proof/Machine/Control.lean ====
section
/-! DEFINITION. Jumps, branches, hardware loops, the format prefix, YIELD, END and the queue registers (R105 to R116). -/

namespace Sys2Proof.Machine

/-- The check of a transfer's target (R106, R107). -/
def checkTarget (align : Bool) (t : Word) : M Unit := do
  if align && t.extractLsb' 0 2 != 0#2 then faultM causeAlign (some t)
  if t.extractLsb' 47 17 != 0#17 then faultM causeIaddr (some t)

/-- A taken jump that links (R106). -/
def jumpTo (d : BitVec 5) (align : Bool) (t : Word) : M Flow := do
  checkTarget align t
  let s ← curM
  setXM d (s.pc.zeroExtend 64 + 4)
  return .jump (t.setWidth 48)

/-- JAL (R106). -/
def execJal (d : BitVec 5) (off : BitVec 21) (s : State) : Host.Outcome State Fault Refusal :=
  runSlot (jumpTo d false (s.cur.pc.zeroExtend 64 + off.signExtend 64)) s

/-- JALR (R106): every word fetched ahead is discarded (R294), and the instruction takes three issue clk (R104), each of them BUSY of its
slot (R91; log entry 64). -/
def execJalr (d a : BitVec 5) (imm : BitVec 12) (s : State) : Host.Outcome State Fault Refusal :=
  runSlot (do
    let t ← curM
    let f ← jumpTo d true (t.getX a + imm.signExtend 64)
    modCur fun t => { t with ahead := [] }
    modS fun s => s.setCore s.core { s.coreAt s.core with busy := 3, jalrClk := 3, jalrSlot := s.slot }
    return f) s

/-- A conditional branch (R107). -/
def branch (a b : BitVec 5) (off : BitVec 13) (taken : Word → Word → Bool) : M Flow := do
  let t ← curM
  if taken (t.getX a) (t.getX b) then
    let p := t.pc.zeroExtend 64 + off.signExtend 64
    checkTarget false p
    return .jump (p.setWidth 48)
  else return .seq

/-- BEQ (R107). -/
def execBeq (a b : BitVec 5) (off : BitVec 13) (s : State) : Host.Outcome State Fault Refusal :=
  runSlot (branch a b off fun x y => x == y) s
/-- BNE (R107). -/
def execBne (a b : BitVec 5) (off : BitVec 13) (s : State) : Host.Outcome State Fault Refusal :=
  runSlot (branch a b off fun x y => x != y) s
/-- BLT (R107). -/
def execBlt (a b : BitVec 5) (off : BitVec 13) (s : State) : Host.Outcome State Fault Refusal :=
  runSlot (branch a b off fun x y => x.slt y) s
/-- BGE (R107). -/
def execBge (a b : BitVec 5) (off : BitVec 13) (s : State) : Host.Outcome State Fault Refusal :=
  runSlot (branch a b off fun x y => !x.slt y) s
/-- BLTU (R107). -/
def execBltu (a b : BitVec 5) (off : BitVec 13) (s : State) : Host.Outcome State Fault Refusal :=
  runSlot (branch a b off fun x y => x.ult y) s
/-- BGEU (R107). -/
def execBgeu (a b : BitVec 5) (off : BitVec 13) (s : State) : Host.Outcome State Fault Refusal :=
  runSlot (branch a b off fun x y => !x.ult y) s

/-- LOOP (R109). -/
def execLoop (l : BitVec 1) (a : BitVec 5) (n : BitVec 12) (s : State) : Host.Outcome State Fault Refusal :=
  runSlot (do
    let t ← curM
    let lv := l.toNat
    let e := t.pc + 4 * n.zeroExtend 48
    if t.loopOn lv then throw .illop
    if lv = 0 && t.loopOn 1 then throw .illop
    if lv = 1 && t.loopOn 0 && decide ((t.leN 0).toNat < e.toNat) then throw .illop
    let count := t.getX a &&& 0xFFFFFFFF#64
    if count = 0#64 then return .skip e
    else
      modCur fun t => (((t.setLc lv count).setLs lv (t.pc + 4)).setLe lv e).setLoop lv true
      return .seq) s

/-- FMT (R110, R111). -/
def execFmt (w : BitVec 12) (s : State) : Host.Outcome State Fault Refusal :=
  runSlot (do
    let t ← curM
    if (t.loopOn 0 && t.leN 0 == t.pc) || (t.loopOn 1 && t.leN 1 == t.pc) then throw .illop
    modCur fun t => { t.setPfx (some w) with pc := t.pc + 4 }
    return .stay) s

/-- YIELD (R113). It takes no format, and neither consumes a pending prefix nor is illegal behind one (R112; log entry 65). The clk in which it
issues counts after its `wdc` := 0 (DESIGN CHOICE; log entry 69). -/
def execYield (s : State) : Host.Outcome State Fault Refusal :=
  let pending := s.cur.pfx
  runFmt (fun _ => true) (do
    modCur fun t => (({ t with wdc := 0, warned := false } : Slot).complete .seq).setPfx pending
    modS fun s => s.giveUp s.core s.slot
    return .stay) s

/-- The end of a task that retires (R114, R386): its vector commands execute first. -/
def endM : M Flow := do
  vecDoneM
  modS fun s => s.freeSlot s.core s.slot
  return .stay

/-- END (R114). -/
def execEndTask (s : State) : Host.Outcome State Fault Refusal :=
  runSlot (do
    let t ← curM
    if t.frames.length != 0 then throw .illop
    endM) s

/-- Forms that a gate callee with VEC = 0 may not use (R366). -/
def needVec : M Unit := do
  let t ← curM
  match t.frames with
  | f :: _ => if f.vec then return () else faultM causeGvec
  | [] => return ()

/-- QPUSH, again when a blocked one completes (R116). -/
def qpushM (q : BitVec 3) (a : BitVec 5) : M Flow := do
  needVec
  let t ← curM
  if 4 ≤ (t.getQ q.toNat).length then throw (.block (.on (.qpush q a)))
  modCur fun t => t.setQ q.toNat (t.getQ q.toNat ++ [t.getX a])
  return .seq
/-- QPOP, again when a blocked one completes (R116). -/
def qpopM (d : BitVec 5) (q : BitVec 3) : M Flow := do
  needVec
  let t ← curM
  match t.getQ q.toNat with
  | [] => throw (.block (.on (.qpop d q)))
  | v :: rest =>
    modCur fun t => (t.setQ q.toNat rest).setX d v
    return .seq

/-- QPUSH (R116). -/
def execQpush (q : BitVec 3) (a : BitVec 5) (s : State) : Host.Outcome State Fault Refusal := runSlot (qpushM q a) s
/-- QPOP (R116). -/
def execQpop (d : BitVec 5) (q : BitVec 3) (s : State) : Host.Outcome State Fault Refusal := runSlot (qpopM d q) s
/-- QCNT (R116). -/
def execQcnt (d : BitVec 5) (q : BitVec 3) (s : State) : Host.Outcome State Fault Refusal :=
  runSlot (do
    needVec
    modCur fun t => t.setX d (BitVec.ofNat 64 (t.getQ q.toNat).length)
    return .seq) s

end Sys2Proof.Machine
end

