-- ==== Sys2Proof/Machine/Memory.lean ====
section
/-! DEFINITION. Loads and stores (R143 to R146), LDA, STL and the fences (R181, R296 to R298), atomics and reductions (R313 to
R316), full/empty forms (R147 to R151), LDE and DRAIN (R343 to R347), persist barriers (R355, R356). -/

namespace Sys2Proof.Machine

/-- The checked place of an access of the issuing slot, after what the access follows in program order. -/
def accessM (ea : Word) (n : Nat) (write : Bool) : M Place := do
  settleM
  let p ← partyM
  checkPlace p ea n write

/-! ### Loads and stores -/

/-- A load of n bytes (R144). -/
def loadForm (d a : BitVec 5) (imm : BitVec 12) (n : Nat) (ext : Nat → Word) : M Flow := do
  let t ← curM
  let pl ← accessM (t.getX a + imm.signExtend 64) n false
  let s ← getS
  let bs ← loadM s.core s.slot pl n
  setXM d (ext (leNat bs))
  return .seq

/-- A value of n bytes, sign-extended. -/
def signedWord (n v : Nat) : Word := BitVec.ofInt 64 (signedOf (8 * n) v)

/-- LB (R144). -/
def execLb (d a : BitVec 5) (imm : BitVec 12) (s : State) : Host.Outcome State Fault Refusal :=
  runSlot (loadForm d a imm 1 (signedWord 1)) s
/-- LH (R144). -/
def execLh (d a : BitVec 5) (imm : BitVec 12) (s : State) : Host.Outcome State Fault Refusal :=
  runSlot (loadForm d a imm 2 (signedWord 2)) s
/-- LW (R144). -/
def execLw (d a : BitVec 5) (imm : BitVec 12) (s : State) : Host.Outcome State Fault Refusal :=
  runSlot (loadForm d a imm 4 (signedWord 4)) s
/-- LD (R144). -/
def execLd (d a : BitVec 5) (imm : BitVec 12) (s : State) : Host.Outcome State Fault Refusal :=
  runSlot (loadForm d a imm 8 (BitVec.ofNat 64)) s
/-- LBU (R144). -/
def execLbu (d a : BitVec 5) (imm : BitVec 12) (s : State) : Host.Outcome State Fault Refusal :=
  runSlot (loadForm d a imm 1 (BitVec.ofNat 64)) s
/-- LHU (R144). -/
def execLhu (d a : BitVec 5) (imm : BitVec 12) (s : State) : Host.Outcome State Fault Refusal :=
  runSlot (loadForm d a imm 2 (BitVec.ofNat 64)) s
/-- LWU (R144). -/
def execLwu (d a : BitVec 5) (imm : BitVec 12) (s : State) : Host.Outcome State Fault Refusal :=
  runSlot (loadForm d a imm 4 (BitVec.ofNat 64)) s

/-- A store of the low n bytes of x[rs2] (R145). -/
def storeForm (a b : BitVec 5) (imm : BitVec 12) (n : Nat) : M Flow := do
  let t ← curM
  let pl ← accessM (t.getX a + imm.signExtend 64) n true
  let s ← getS
  storeM s.core s.slot pl (leBytes n (t.getX b).toNat)
  return .seq

/-- SB (R145). -/
def execSb (a b : BitVec 5) (imm : BitVec 12) (s : State) : Host.Outcome State Fault Refusal := runSlot (storeForm a b imm 1) s
/-- SH (R145). -/
def execSh (a b : BitVec 5) (imm : BitVec 12) (s : State) : Host.Outcome State Fault Refusal := runSlot (storeForm a b imm 2) s
/-- SW (R145). -/
def execSw (a b : BitVec 5) (imm : BitVec 12) (s : State) : Host.Outcome State Fault Refusal := runSlot (storeForm a b imm 4) s
/-- SD (R145). -/
def execSd (a b : BitVec 5) (imm : BitVec 12) (s : State) : Host.Outcome State Fault Refusal := runSlot (storeForm a b imm 8) s

/-! ### Accesses at home (R287) -/

/-- What an access at home makes first: the slot's DRAIN moves, and the die's copy of the line written back and
evicted (R287); and whether it is counted (R141). -/
def goHome (dva : Nat) (x : Xlat) (count : Bool) : M Unit := do
  drainM
  modS fun s =>
    let s := s.flushLine (dieOf s.core) x.lease (dva / 64)
    if count then s.countHome s.core (some s.slot) (x.paOf dva) else s

/-- What LDF, STF and SETE make at issue: the slot's DRAIN moves; each counts as one request served by a home (R141, R147). What R287
does to the die's copy is done with the access, at its home. -/
def askHome (dva : Nat) (x : Xlat) : M Unit := do
  drainM
  modS fun s => s.countHome s.core (some s.slot) (x.paOf dva)

/-- Read bytes of a translated page at home; poison is consumed (R381). -/
def readHome (x : Xlat) (pa n : Nat) : M (List Byte) := fun s =>
  let s := s.touchHome x pa n
  if s.rangePoisoned pa n then .error .poison s else .ok (s.homeRead pa n) s

/-- LDA (R297). At home it is counted where R140 puts the page's accesses there (R141; log entry 54). -/
def execLda (z : BitVec 2) (sc : BitVec 3) (d a : BitVec 5) (s : State) : Host.Outcome State Fault Refusal :=
  runSlot (do
    let n := 2 ^ z.toNat
    let t ← curM
    let pl ← accessM (t.getX a) n false
    let bs ← match pl with
      | .mem dva x =>
        if sc.toNat ≤ 1 then do
          let s ← getS
          loadM s.core s.slot pl n
        else do
          goHome dva x (!x.cached)
          readHome x (x.paOf dva) n
      | .spad _ => do
        let s ← getS
        loadM s.core s.slot pl n
    acquireM sc.toNat
    setXM d (BitVec.ofNat 64 (leNat bs))
    return .seq) s

/-- STL (R297, R356). At home it is counted where R140 puts the page's accesses there, and as the write-through that it is on a PERSIST page
(R141, R352; log entry 54). -/
def execStl (z : BitVec 2) (sc : BitVec 3) (a b : BitVec 5) (s : State) : Host.Outcome State Fault Refusal :=
  runSlot (do
    let n := 2 ^ z.toNat
    let t ← curM
    let pl ← accessM (t.getX a) n true
    drainM
    releaseM sc.toNat
    let bytes := leBytes n (t.getX b).toNat
    match pl with
    | .mem dva x =>
      if sc.toNat ≤ 1 then do
        let s ← getS
        storeM s.core s.slot pl bytes
      else do
        goHome dva x (!x.cached || x.kind == 3)
        modS fun s =>
          let s' := s.storeHome x (x.paOf dva) bytes
          if x.kind = 3 then s'.record s.core s.slot s.cur.gen s.cur.epoch (x.paOf dva) bytes else s'
    | .spad _ => do
      let s ← getS
      storeM s.core s.slot pl bytes
    if sc = 4#3 then modCur Slot.epochUp
    return .seq) s

/-- FENCE (R298, R356). -/
def execFence (sc : BitVec 3) (s : State) : Host.Outcome State Fault Refusal :=
  runSlot (do
    settleM
    drainM
    releaseM sc.toNat
    acquireM sc.toNat
    if sc = 4#3 then modCur Slot.epochUp
    return .seq) s

/-- TFENCE (R181). -/
def execTfence (s : State) : Host.Outcome State Fault Refusal :=
  runSlot (do
    settleM
    drainM
    modS fun s => s.writebackAll (dieOf s.core)
    return .seq) s

/-- PBAR (R356). -/
def execPbar (s : State) : Host.Outcome State Fault Refusal := runSlot (slotOp Slot.epochUp) s

/-- Whether a copy command of a slot is neither completed nor faulted (R356). -/
def State.copiesPending (s : State) (c k : Nat) : Bool :=
  let t := s.slotAt c k
  (s.coreAt c).copyq.any (fun q => q.slot == k && q.gen == t.gen) ||
  s.colls.any fun x => x.core == c && x.cmd.slot == k && x.cmd.gen == t.gen

/-- PBARW (R356). -/
def execPbarw (s : State) : Host.Outcome State Fault Refusal :=
  runSlot (do
    settleM
    drainM
    let s ← getS
    if s.copiesPending s.core s.slot || s.recordsPending s.core s.slot then throw .stall
    modCur Slot.epochUp
    return .seq) s

/-! ### Atomics and reductions -/

/-- Bytes of an atomic's size field (R313). -/
def atomicSize (z : BitVec 1) : Nat := if z = 1#1 then 8 else 4

/-- An AMO (R314): sources read at issue, checks, the slot's DRAIN moves, the operation at its place. -/
def amoForm (op n scope : Nat) (d a b : BitVec 5) (ext : Nat → Word) : M Flow := do
  let t ← curM
  let ea := t.getX a
  let bv := (t.getX b).toNat % 2 ^ (8 * n)
  let ev := (t.getX d).toNat % 2 ^ (8 * n)
  let pl ← accessM ea n true
  checkAtomic ea pl op scope
  drainM
  let s ← getS
  match pl with
  | .spad off =>
    let l := s.lcoreAt t.lease s.core
    if l.spadPoisoned off n then throw .poison
    let old := l.readSpad off n
    let (new, wr) := atomicOp op n old bv ev
    if wr then modL fun l => l.writeSpad off (leBytes n new)
    setXM d (ext old)
  | .mem dva x =>
    let old ← atomicAt s.core (s.entryOf s.core s.slot dva x (.store [])) op n scope bv ev true
    setXM d (ext old)
  return .seq

/-- AMOADD (R314). -/
def execAmoadd (z : BitVec 1) (sc : BitVec 2) (d a b : BitVec 5) (s : State) : Host.Outcome State Fault Refusal :=
  runSlot (amoForm 0 (atomicSize z) sc.toNat d a b (signedWord (atomicSize z))) s
/-- AMOSWAP (R314). -/
def execAmoswap (z : BitVec 1) (sc : BitVec 2) (d a b : BitVec 5) (s : State) : Host.Outcome State Fault Refusal :=
  runSlot (amoForm 1 (atomicSize z) sc.toNat d a b (signedWord (atomicSize z))) s
/-- AMOCAS (R314). -/
def execAmocas (z : BitVec 1) (sc : BitVec 2) (d a b : BitVec 5) (s : State) : Host.Outcome State Fault Refusal :=
  runSlot (amoForm 2 (atomicSize z) sc.toNat d a b (signedWord (atomicSize z))) s
/-- AMOAND (R314). -/
def execAmoand (z : BitVec 1) (sc : BitVec 2) (d a b : BitVec 5) (s : State) : Host.Outcome State Fault Refusal :=
  runSlot (amoForm 3 (atomicSize z) sc.toNat d a b (signedWord (atomicSize z))) s
/-- AMOOR (R314). -/
def execAmoor (z : BitVec 1) (sc : BitVec 2) (d a b : BitVec 5) (s : State) : Host.Outcome State Fault Refusal :=
  runSlot (amoForm 4 (atomicSize z) sc.toNat d a b (signedWord (atomicSize z))) s
/-- AMOXOR (R314). -/
def execAmoxor (z : BitVec 1) (sc : BitVec 2) (d a b : BitVec 5) (s : State) : Host.Outcome State Fault Refusal :=
  runSlot (amoForm 5 (atomicSize z) sc.toNat d a b (signedWord (atomicSize z))) s
/-- AMOMIN (R314). -/
def execAmomin (z : BitVec 1) (sc : BitVec 2) (d a b : BitVec 5) (s : State) : Host.Outcome State Fault Refusal :=
  runSlot (amoForm 6 (atomicSize z) sc.toNat d a b (signedWord (atomicSize z))) s
/-- AMOMAX (R314). -/
def execAmomax (z : BitVec 1) (sc : BitVec 2) (d a b : BitVec 5) (s : State) : Host.Outcome State Fault Refusal :=
  runSlot (amoForm 7 (atomicSize z) sc.toNat d a b (signedWord (atomicSize z))) s
/-- AMOMINU (R314). -/
def execAmominu (z : BitVec 1) (sc : BitVec 2) (d a b : BitVec 5) (s : State) : Host.Outcome State Fault Refusal :=
  runSlot (amoForm 8 (atomicSize z) sc.toNat d a b (signedWord (atomicSize z))) s
/-- AMOMAXU (R314). -/
def execAmomaxu (z : BitVec 1) (sc : BitVec 2) (d a b : BitVec 5) (s : State) : Host.Outcome State Fault Refusal :=
  runSlot (amoForm 9 (atomicSize z) sc.toNat d a b (signedWord (atomicSize z))) s
/-- AMOFADD (R314): the old value is zero-extended. -/
def execAmofadd (sc : BitVec 2) (d a b : BitVec 5) (s : State) : Host.Outcome State Fault Refusal :=
  runSlot (amoForm 10 4 sc.toNat d a b (BitVec.ofNat 64)) s

/-- A RED (R316), its operation numbered as R315 numbers it. -/
def redForm (op n scope : Nat) (a b : BitVec 5) : M Flow := do
  let t ← curM
  let ea := t.getX a
  let pl ← accessM ea n true
  checkAtomic ea pl (redOp op) scope
  let s ← getS
  redM s.core s.slot pl op n scope (t.getX b)
  return .seq

/-- REDADD (R316). -/
def execRedadd (z : BitVec 1) (sc : BitVec 2) (a b : BitVec 5) (s : State) : Host.Outcome State Fault Refusal :=
  runSlot (redForm 0 (atomicSize z) sc.toNat a b) s
/-- REDFADD (R316). -/
def execRedfadd (sc : BitVec 2) (a b : BitVec 5) (s : State) : Host.Outcome State Fault Refusal :=
  runSlot (redForm 1 4 sc.toNat a b) s
/-- REDMAX (R316). -/
def execRedmax (z : BitVec 1) (sc : BitVec 2) (a b : BitVec 5) (s : State) : Host.Outcome State Fault Refusal :=
  runSlot (redForm 2 (atomicSize z) sc.toNat a b) s
/-- REDMIN (R316). -/
def execRedmin (z : BitVec 1) (sc : BitVec 2) (a b : BitVec 5) (s : State) : Host.Outcome State Fault Refusal :=
  runSlot (redForm 3 (atomicSize z) sc.toNat a b) s

/-! ### Full/empty forms -/

/-- The translation of a word with a full/empty state (R142). -/
def feWord (ea : Word) (n : Nat) (write : Bool) : M (Nat × Xlat) := accessing { write := write, fetch := false } do
  let pl ← accessM ea n write
  match pl with
  | .mem dva x => if hasFe (x.paOf dva) && x.kind != 2 && x.kind != 5 then return (dva, x) else addrFault causeFekind ea
  | .spad _ => addrFault causeFekind ea

/-- The issuing slot as the one an answer goes to (R167, R311). -/
def askerM (d : BitVec 5) : M Asker := fun s =>
  .ok { core := s.core, slot := s.slot, gen := s.cur.gen, lease := s.cur.lease, inc := (s.dieAt (dieOf s.core)).inc, d := d,
        unwound := s.cur.unwound } s

/-- A request goes to the home of an address. -/
def requestM (pa : Nat) (r : HomeReq) : M Unit := modS fun s => s.enqueueReq (homeOf pa) r

/-- LDF: the slot is BLOCKED until its home answers (R148), where the word is FULL already too: R148 says BLOCKED only where an entry is
recorded, and not how the slot waits for an answer on its way (DESIGN CHOICE; log entry 66). -/
def ldfForm (d a : BitVec 5) (n : Nat) : M Flow := do
  let t ← curM
  let (dva, x) ← feWord (t.getX a) n false
  askHome dva x
  let who ← askerM d
  requestM (x.paOf dva) (.ldf who (x.paOf dva) dva n t.tag t.wid)
  throw (.block (.ldf d dva n x))

/-- LDF.W (R148). -/
def execLdfW (d a : BitVec 5) (s : State) : Host.Outcome State Fault Refusal := runSlot (ldfForm d a 4) s
/-- LDF.D (R148). -/
def execLdfD (d a : BitVec 5) (s : State) : Host.Outcome State Fault Refusal := runSlot (ldfForm d a 8) s

/-- STF: a release at pkg scope, then the home writes the data and sets FULL in one step (R149). -/
def stfForm (a b : BitVec 5) (n : Nat) : M Flow := do
  let t ← curM
  let (dva, x) ← feWord (t.getX a) n true
  drainM
  releaseM 2
  askHome dva x
  let who ← askerM 0#5
  requestM (x.paOf dva) (.stf who (x.paOf dva) dva n (t.getX b))
  return .seq

/-- STF.W (R149). -/
def execStfW (a b : BitVec 5) (s : State) : Host.Outcome State Fault Refusal := runSlot (stfForm a b 4) s
/-- STF.D (R149). -/
def execStfD (a b : BitVec 5) (s : State) : Host.Outcome State Fault Refusal := runSlot (stfForm a b 8) s

/-- SETE (R150): a count of 0 does nothing; the range is checked before the address. -/
def execSete (a b : BitVec 5) (s : State) : Host.Outcome State Fault Refusal :=
  runSlot (do
    let t ← curM
    let ea := t.getX a
    let n := (t.getX b).toNat
    if n = 0 then return .seq
    if 512 < n || 4096 < ea.toNat % 4096 + 8 * n then accessing { write := true, fetch := false } (addrFault causeAlign ea)
    let (dva, x) ← feWord ea 8 true
    askHome dva x
    let who ← askerM 0#5
    requestM (x.paOf dva) (.sete who (x.paOf dva) dva n)
    return .seq) s

/-! ### Drift reads and drains -/

/-- LDE (R344). -/
def execLde (d a b : BitVec 5) (s : State) : Host.Outcome State Fault Refusal :=
  runSlot (do
    let t ← curM
    let ea := t.getX a
    let tol : Lane := (t.getX b).setWidth 32
    if fpIsNaN tol || (fpSign tol && !fpIsZero tol) then faultM causeDesc
    let pl ← accessM ea 4 false
    match pl with
    | .spad _ => addrFault causeDkind ea
    | .mem dva x =>
      if x.kind != 2 then addrFault causeDkind ea
      drainM
      let tu : Option Int := if fpIsInf tol then none else some (fpUnits tol)
      let s ← getS
      let r := s.regionAt t.lease x.region
      let lossy := match tu with
        | some v => decide (v < fpUnits r.loss)
        | none => false
      if lossy then
        modCur fun t => { t with ss := setBit t.ss 17 true }
        addrFault causeDriftLoss ea
      let (s', forced) := s.forceWithin t.lease x.region tu 9 false
      modS fun _ => s'
      modS fun s => s.countHome s.core (some s.slot) (x.paOf dva)
      let bs ← readHome x (x.paOf dva) 4
      acquireM 2
      modCur fun t => ({ t with ss := setBit t.ss 16 forced }).setX d (BitVec.ofNat 64 (leNat bs))
      return .seq) s

/-- DRAIN (R347). -/
def execDrain (d a : BitVec 5) (s : State) : Host.Outcome State Fault Refusal :=
  runSlot (do
    let t ← curM
    let sel := (t.getX a).toNat
    if 2048 ≤ sel then faultM causeDesc
    settleM
    drainM
    let s ← getS
    let die := dieOf s.core
    let all := sel.testBit 10
    let mine := fun (e : Delta) => e.lease == t.lease && (all || e.region == sel % 1024)
    let held := (s.dieAt die).deltas.filter mine
    let regions := (held.map (·.region)).eraseDups
    modS fun s => regions.foldl (fun s r =>
      let s := s.drainRegion die t.lease r
      let v := s.regionAt t.lease r
      s.setRegion t.lease r { v with drains := sat32 v.drains }) s
    setXM d (BitVec.ofNat 64 held.length)
    return .seq) s

end Sys2Proof.Machine
end

