-- ==== Sys2Proof/Machine/Vector.lean ====
section
/-! DEFINITION. The vector forms (R214 to R232): what each does at issue; the engine's execution of a queued command is in
Engine.lean. -/

namespace Sys2Proof.Machine

/-! ### At issue -/

/-- A format word that a target accepts: formats, largest rounding, exponent source and scope (R34). -/
def fmtOk (formats : List Nat) (rnd esrc scope : Nat) (w : BitVec 12) : Bool :=
  formats.contains (fmtFormat w) && decide (fmtRnd w ≤ rnd) && decide (fmtEsrc w ≤ esrc) && decide (fmtScope w ≤ scope)

/-- A command of the issuing slot with what it reads at issue (R214). -/
def cmdOf (s : State) (instr : Instr) (a b : Word) (rm : Nat) (places : List (Nat × Place)) : VecCmd :=
  let t := s.cur
  { instr := instr, slot := s.slot, gen := t.gen, a := a, b := b, rm := rm, pfx := t.pfx, bexp := t.bexp, epoch := t.epoch,
    places := places }

/-- The slot stalls while both entries of the engine are taken (R8). -/
def vecRoom : M Unit := do
  let s ← getS
  if Config.engineQueue ≤ (s.coreAt s.core).vecq.length then throw .stall

def pushCmd (v : VecCmd) : M Unit := modS fun s =>
  let q := s.coreAt s.core
  s.setCore s.core { q with vecq := q.vecq ++ [v] }

/-- A form whose command enters the queue, the slot going on (R216). -/
def vecForm (instr : Instr) (read : Slot → Word × Word) (rm : Slot → Nat) : M Flow := do
  needVec
  vecRoom
  let s ← getS
  let (a, b) := read s.cur
  pushCmd (cmdOf s instr a b (rm s.cur) [])
  return .seq

/-- No x register is read. -/
def noX (_ : Slot) : Word × Word := (0, 0)
/-- Rounding from `ff.RM` (R219). -/
def rmDyn (t : Slot) : Nat := ffRm t.ff
/-- Rounding from the prefix, RNE without one (R34). -/
def rmPfx (t : Slot) : Nat := pfxRm t.pfx t.ff
def rmNone (_ : Slot) : Nat := 0

/-- Every command of the core's engine has executed. -/
def vecAllM : M Unit := modS fun s => s.finishVecAll s.core

/-- A form whose x register the slot waits for: its command enters the queue, and the slot is BLOCKED until the engine has executed it
(R216). -/
def vecWait (instr : Instr) : M Flow := do
  let _ ← vecForm instr noX rmNone
  throw (.block (.on instr))

/-- The engine has executed every command of the issuing slot, the one it is BLOCKED on last of all. -/
def vecWrittenM : M Flow := do
  let t ← curM
  let s ← getS
  if (s.coreAt s.core).vecq.any fun v => v.slot == s.slot && v.gen == t.gen then throw .stall
  return .seq

/-! ### Memory forms -/

/-- The checked places of the active lanes, in ascending order (R229). -/
def lanePlaces (pg : BitVec 16) (write : Bool) (addr : Nat → Word) : Nat → M (List (Nat × Place))
  | 0 => return []
  | n + 1 => do
    let i := 15 - n
    if pg.getLsbD i then
      let p ← partyM
      let pl ← checkPlace p (addr i) 4 write
      let rest ← lanePlaces pg write addr n
      return (i, pl) :: rest
    else lanePlaces pg write addr n

/-- A vector load or store: earlier commands execute, every active lane is checked, the command is queued (R216, R229). -/
def vecMem (instr : Instr) (p : BitVec 3) (write : Bool) (addr : Slot → Nat → Word) : M Flow := do
  needVec
  vecRoom
  vecAllM
  settleM
  let t ← curM
  let pls ← lanePlaces (t.getP p.toNat) write (addr t) 16
  let s ← getS
  pushCmd (cmdOf s instr 0 0 0 pls)
  return .seq

/-- Addresses of R229. -/
def addrUnit (a : BitVec 5) (t : Slot) (i : Nat) : Word := t.getX a + BitVec.ofNat 64 (4 * i)
def addrStride (a b : BitVec 5) (t : Slot) (i : Nat) : Word := t.getX a + BitVec.ofNat 64 i * t.getX b
def addrIndex (a b : BitVec 5) (t : Slot) (i : Nat) : Word := t.getX a + (laneOf (t.getV b.toNat) i).zeroExtend 64

/-- VREDX (R231, R232): it issues its lanes after every earlier command. Where it waits for room in the store buffer, its slot stalls, and its
command holds the engine until the last lane is issued. -/
def execVredx (p : BitVec 3) (d a b : BitVec 5) (s : State) : Host.Outcome State Fault Refusal :=
  runFmt (fmtOk [0, 4] 0 0 3) (do
    needVec
    let t ← curM
    let s ← getS
    let cmd := cmdOf s (.vredx p d a b) (t.getX a) 0 0 []
    if (s.coreAt s.core).vecq.any fun v => v.slot == cmd.slot && v.gen == cmd.gen && v.redx.isSome then
      modS fun s => s.vecStep s.core
    else do
      vecRoom
      vecAllM
      settleM
      pushCmd cmd
      modS fun s => s.vecStep s.core
    let s ← getS
    if (s.coreAt s.core).vecq.any fun v => v.slot == cmd.slot && v.gen == cmd.gen && v.redx.isSome then throw .stall
    return if s.cur.st == .ready && s.cur.unwound == t.unwound && s.cur.getP p.toNat == 0 then .seq else .stay) s

/-! ### VBCASTQ, VQNT, VDQNT -/

/-- VBCASTQ takes its q entry at issue, BLOCKED while there is none (R216); again when a blocked one completes. -/
def vbcastqM (p : BitVec 3) (d : BitVec 5) (q : BitVec 3) : M Flow := do
  needVec
  let t ← curM
  match t.getQ q.toNat with
  | [] => throw (.block (.on (.vbcastq p d q)))
  | v :: rest =>
    vecRoom
    modCur fun t => t.setQ q.toNat rest
    let s ← getS
    pushCmd (cmdOf s (.vbcastq p d q) v 0 0 [])
    return .seq

/-- VBCASTQ (R223). -/
def execVbcastq (p : BitVec 3) (d : BitVec 5) (q : BitVec 3) (s : State) : Host.Outcome State Fault Refusal :=
  runSlot (vbcastqM p d q) s

/-- VQNT's checks at issue (R226): the operand word, the list's place, and the right to write there (log entry 20). -/
def checkList (w : Word) : M Unit := do
  if w.extractLsb' 48 8 != 0#8 then faultM causeDesc
  let list := w.extractLsb' 0 48
  if list != 0#48 then
    let ea := list.zeroExtend 64
    if ea.toNat % 16 != 0 then addrFault causeAlign ea
    if !inLocal ea.toNat || 0x3F800 < ea.toNat - Config.localBase + 16 then addrFault causeSpad ea
    let p ← partyM
    checkOffset p ea (ea.toNat - Config.localBase) 16 true
    checkRights p.core p.lease p.dom ea.toNat { write := true, fetch := false }

/-- VQNT (R226). -/
def execVqnt (p : BitVec 3) (d a b : BitVec 5) (s : State) : Host.Outcome State Fault Refusal :=
  runFmt (fmtOk [2, 3] 4 2 0) (do
    needVec
    let t ← curM
    checkList (t.getX b)
    vecForm (.vqnt p d a b) (fun t => (t.getX b, 0)) rmPfx) s

/-! ### FP32 arithmetic (R219) -/

/-- VADD.F (R219). -/
def execVaddF (p : BitVec 3) (d a b : BitVec 5) (s : State) : Host.Outcome State Fault Refusal :=
  runSlot (vecForm (.vaddF p d a b) noX rmDyn) s
/-- VSUB.F (R219). -/
def execVsubF (p : BitVec 3) (d a b : BitVec 5) (s : State) : Host.Outcome State Fault Refusal :=
  runSlot (vecForm (.vsubF p d a b) noX rmDyn) s
/-- VMUL.F (R219). -/
def execVmulF (p : BitVec 3) (d a b : BitVec 5) (s : State) : Host.Outcome State Fault Refusal :=
  runSlot (vecForm (.vmulF p d a b) noX rmDyn) s
/-- VFMA.F (R219). -/
def execVfmaF (p : BitVec 3) (d a b : BitVec 5) (s : State) : Host.Outcome State Fault Refusal :=
  runSlot (vecForm (.vfmaF p d a b) noX rmDyn) s
/-- VMIN.F (R219). -/
def execVminF (p : BitVec 3) (d a b : BitVec 5) (s : State) : Host.Outcome State Fault Refusal :=
  runSlot (vecForm (.vminF p d a b) noX rmDyn) s
/-- VMAX.F (R219). -/
def execVmaxF (p : BitVec 3) (d a b : BitVec 5) (s : State) : Host.Outcome State Fault Refusal :=
  runSlot (vecForm (.vmaxF p d a b) noX rmDyn) s
/-- VDIV.F (R219). -/
def execVdivF (p : BitVec 3) (d a b : BitVec 5) (s : State) : Host.Outcome State Fault Refusal :=
  runSlot (vecForm (.vdivF p d a b) noX rmDyn) s
/-- VABS.F (R219). -/
def execVabsF (p : BitVec 3) (d a : BitVec 5) (s : State) : Host.Outcome State Fault Refusal :=
  runSlot (vecForm (.vabsF p d a) noX rmDyn) s
/-- VNEG.F (R219). -/
def execVnegF (p : BitVec 3) (d a : BitVec 5) (s : State) : Host.Outcome State Fault Refusal :=
  runSlot (vecForm (.vnegF p d a) noX rmDyn) s
/-- VSQRT.F (R219). -/
def execVsqrtF (p : BitVec 3) (d a : BitVec 5) (s : State) : Host.Outcome State Fault Refusal :=
  runSlot (vecForm (.vsqrtF p d a) noX rmDyn) s
/-- VEXP2.F (R219). -/
def execVexp2F (p : BitVec 3) (d a : BitVec 5) (s : State) : Host.Outcome State Fault Refusal :=
  runSlot (vecForm (.vexp2F p d a) noX rmDyn) s
/-- VRCP.F (R219). -/
def execVrcpF (p : BitVec 3) (d a : BitVec 5) (s : State) : Host.Outcome State Fault Refusal :=
  runSlot (vecForm (.vrcpF p d a) noX rmDyn) s
/-- VFMAS.F (R219). -/
def execVfmasF (p : BitVec 3) (d a b : BitVec 5) (s : State) : Host.Outcome State Fault Refusal :=
  runSlot (vecForm (.vfmasF p d a b) (fun t => (0, t.getX b)) rmDyn) s

/-! ### Integers (R220) -/

/-- VADD.I (R220). -/
def execVaddI (p : BitVec 3) (d a b : BitVec 5) (s : State) : Host.Outcome State Fault Refusal :=
  runSlot (vecForm (.vaddI p d a b) noX rmNone) s
/-- VSUB.I (R220). -/
def execVsubI (p : BitVec 3) (d a b : BitVec 5) (s : State) : Host.Outcome State Fault Refusal :=
  runSlot (vecForm (.vsubI p d a b) noX rmNone) s
/-- VMUL.I (R220). -/
def execVmulI (p : BitVec 3) (d a b : BitVec 5) (s : State) : Host.Outcome State Fault Refusal :=
  runSlot (vecForm (.vmulI p d a b) noX rmNone) s
/-- VMIN.I (R220). -/
def execVminI (p : BitVec 3) (d a b : BitVec 5) (s : State) : Host.Outcome State Fault Refusal :=
  runSlot (vecForm (.vminI p d a b) noX rmNone) s
/-- VMAX.I (R220). -/
def execVmaxI (p : BitVec 3) (d a b : BitVec 5) (s : State) : Host.Outcome State Fault Refusal :=
  runSlot (vecForm (.vmaxI p d a b) noX rmNone) s
/-- VMINU.I (R220). -/
def execVminuI (p : BitVec 3) (d a b : BitVec 5) (s : State) : Host.Outcome State Fault Refusal :=
  runSlot (vecForm (.vminuI p d a b) noX rmNone) s
/-- VMAXU.I (R220). -/
def execVmaxuI (p : BitVec 3) (d a b : BitVec 5) (s : State) : Host.Outcome State Fault Refusal :=
  runSlot (vecForm (.vmaxuI p d a b) noX rmNone) s
/-- VAND (R220). -/
def execVand (p : BitVec 3) (d a b : BitVec 5) (s : State) : Host.Outcome State Fault Refusal :=
  runSlot (vecForm (.vand p d a b) noX rmNone) s
/-- VOR (R220). -/
def execVor (p : BitVec 3) (d a b : BitVec 5) (s : State) : Host.Outcome State Fault Refusal :=
  runSlot (vecForm (.vor p d a b) noX rmNone) s
/-- VXOR (R220). -/
def execVxor (p : BitVec 3) (d a b : BitVec 5) (s : State) : Host.Outcome State Fault Refusal :=
  runSlot (vecForm (.vxor p d a b) noX rmNone) s
/-- VSHL (R220). -/
def execVshl (p : BitVec 3) (d a b : BitVec 5) (s : State) : Host.Outcome State Fault Refusal :=
  runSlot (vecForm (.vshl p d a b) noX rmNone) s
/-- VSRL (R220). -/
def execVsrl (p : BitVec 3) (d a b : BitVec 5) (s : State) : Host.Outcome State Fault Refusal :=
  runSlot (vecForm (.vsrl p d a b) noX rmNone) s
/-- VSRA (R220). -/
def execVsra (p : BitVec 3) (d a b : BitVec 5) (s : State) : Host.Outcome State Fault Refusal :=
  runSlot (vecForm (.vsra p d a b) noX rmNone) s

/-! ### Compares, selects and predicates (R221, R222) -/

/-- VCMP.FEQ (R221). -/
def execVcmpFEQ (p d : BitVec 3) (a b : BitVec 5) (s : State) : Host.Outcome State Fault Refusal :=
  runSlot (vecForm (.vcmpFEQ p d a b) noX rmNone) s
/-- VCMP.FLT (R221). -/
def execVcmpFLT (p d : BitVec 3) (a b : BitVec 5) (s : State) : Host.Outcome State Fault Refusal :=
  runSlot (vecForm (.vcmpFLT p d a b) noX rmNone) s
/-- VCMP.FLE (R221). -/
def execVcmpFLE (p d : BitVec 3) (a b : BitVec 5) (s : State) : Host.Outcome State Fault Refusal :=
  runSlot (vecForm (.vcmpFLE p d a b) noX rmNone) s
/-- VCMP.IEQ (R221). -/
def execVcmpIEQ (p d : BitVec 3) (a b : BitVec 5) (s : State) : Host.Outcome State Fault Refusal :=
  runSlot (vecForm (.vcmpIEQ p d a b) noX rmNone) s
/-- VCMP.ILT (R221). -/
def execVcmpILT (p d : BitVec 3) (a b : BitVec 5) (s : State) : Host.Outcome State Fault Refusal :=
  runSlot (vecForm (.vcmpILT p d a b) noX rmNone) s
/-- VCMP.ILTU (R221). -/
def execVcmpILTU (p d : BitVec 3) (a b : BitVec 5) (s : State) : Host.Outcome State Fault Refusal :=
  runSlot (vecForm (.vcmpILTU p d a b) noX rmNone) s
/-- VSEL (R222). -/
def execVsel (p : BitVec 3) (d a b : BitVec 5) (s : State) : Host.Outcome State Fault Refusal :=
  runSlot (vecForm (.vsel p d a b) noX rmNone) s
/-- PAND (R222). -/
def execPand (d a b : BitVec 3) (s : State) : Host.Outcome State Fault Refusal :=
  runSlot (vecForm (.pand d a b) noX rmNone) s
/-- POR (R222). -/
def execPor (d a b : BitVec 3) (s : State) : Host.Outcome State Fault Refusal :=
  runSlot (vecForm (.por d a b) noX rmNone) s
/-- PXOR (R222). -/
def execPxor (d a b : BitVec 3) (s : State) : Host.Outcome State Fault Refusal :=
  runSlot (vecForm (.pxor d a b) noX rmNone) s
/-- PNOT (R222). -/
def execPnot (d a : BitVec 3) (s : State) : Host.Outcome State Fault Refusal :=
  runSlot (vecForm (.pnot d a) noX rmNone) s
/-- PSET (R222). -/
def execPset (d : BitVec 3) (a : BitVec 5) (s : State) : Host.Outcome State Fault Refusal :=
  runSlot (vecForm (.pset d a) (fun t => (t.getX a, 0)) rmNone) s
/-- PGET (R222). -/
def execPget (d : BitVec 5) (a : BitVec 3) (s : State) : Host.Outcome State Fault Refusal :=
  runSlot (vecWait (.pget d a)) s
/-- PPOP (R222). -/
def execPpop (p : BitVec 3) (d : BitVec 5) (a : BitVec 3) (s : State) : Host.Outcome State Fault Refusal :=
  runSlot (vecWait (.ppop p d a)) s

/-! ### Moves and permutes (R223) -/

/-- VBCAST (R223). -/
def execVbcast (p : BitVec 3) (d a : BitVec 5) (s : State) : Host.Outcome State Fault Refusal :=
  runSlot (vecForm (.vbcast p d a) (fun t => (t.getX a, 0)) rmNone) s
/-- VMVXV (R223). -/
def execVmvxv (d a : BitVec 5) (j : BitVec 4) (s : State) : Host.Outcome State Fault Refusal :=
  runSlot (vecForm (.vmvxv d a j) (fun t => (t.getX a, 0)) rmNone) s
/-- VMVVX (R223). -/
def execVmvvx (d a : BitVec 5) (j : BitVec 4) (s : State) : Host.Outcome State Fault Refusal :=
  runSlot (vecWait (.vmvvx d a j)) s
/-- VPERM (R223). -/
def execVperm (p : BitVec 3) (d a b : BitVec 5) (s : State) : Host.Outcome State Fault Refusal :=
  runSlot (vecForm (.vperm p d a b) noX rmNone) s
/-- VSLIDE (R223). -/
def execVslide (p : BitVec 3) (d a b : BitVec 5) (s : State) : Host.Outcome State Fault Refusal :=
  runSlot (vecForm (.vslide p d a b) (fun t => (0, t.getX b)) rmNone) s
/-- VIOTA (R223). -/
def execViota (p : BitVec 3) (d : BitVec 5) (s : State) : Host.Outcome State Fault Refusal :=
  runSlot (vecForm (.viota p d) noX rmNone) s

/-! ### Reductions (R224) -/

/-- VRSUM.F (R224). -/
def execVrsumF (p : BitVec 3) (d a : BitVec 5) (s : State) : Host.Outcome State Fault Refusal :=
  runSlot (vecForm (.vrsumF p d a) noX rmNone) s
/-- VRMAX.F (R224). -/
def execVrmaxF (p : BitVec 3) (d a : BitVec 5) (s : State) : Host.Outcome State Fault Refusal :=
  runSlot (vecForm (.vrmaxF p d a) noX rmNone) s
/-- VRSUM.I (R224). -/
def execVrsumI (p : BitVec 3) (d a : BitVec 5) (s : State) : Host.Outcome State Fault Refusal :=
  runSlot (vecForm (.vrsumI p d a) noX rmNone) s

/-! ### Conversions and quantising (R225 to R228) -/

/-- VCVT.FI (R225). -/
def execVcvtFI (p : BitVec 3) (d a : BitVec 5) (s : State) : Host.Outcome State Fault Refusal :=
  runFmt (fmtOk [0] 4 0 0) (vecForm (.vcvtFI p d a) noX rmPfx) s
/-- VCVT.IF (R225). -/
def execVcvtIF (p : BitVec 3) (d a : BitVec 5) (s : State) : Host.Outcome State Fault Refusal :=
  runFmt (fmtOk [0] 4 0 0) (vecForm (.vcvtIF p d a) noX rmPfx) s
/-- VCVT.FH (R225). -/
def execVcvtFH (p : BitVec 3) (d a : BitVec 5) (h : BitVec 1) (s : State) : Host.Outcome State Fault Refusal :=
  runFmt (fmtOk [1] 4 0 0) (vecForm (.vcvtFH p d a h) noX rmPfx) s
/-- VCVT.HF (R225). -/
def execVcvtHF (p : BitVec 3) (d a : BitVec 5) (h : BitVec 1) (s : State) : Host.Outcome State Fault Refusal :=
  runFmt (fmtOk [1] 0 0 0) (vecForm (.vcvtHF p d a h) noX rmNone) s
/-- VDQNT (R228). -/
def execVdqnt (p : BitVec 3) (d a b : BitVec 5) (s : State) : Host.Outcome State Fault Refusal :=
  runFmt (fmtOk [2, 3] 4 2 0) (vecForm (.vdqnt p d a b) (fun t => (t.getX b, 0)) rmPfx) s
/-- VBEXP (R227). -/
def execVbexp (p : BitVec 3) (d a : BitVec 5) (s : State) : Host.Outcome State Fault Refusal :=
  runFmt (fmtOk [2, 3] 0 0 0) (vecForm (.vbexp p d a) noX rmNone) s

/-! ### Loads and stores (R229, R230) -/

/-- VLD (R229). -/
def execVld (p : BitVec 3) (d a : BitVec 5) (s : State) : Host.Outcome State Fault Refusal :=
  runSlot (vecMem (.vld p d a) p false (addrUnit a)) s
/-- VST (R229). -/
def execVst (p : BitVec 3) (d a : BitVec 5) (s : State) : Host.Outcome State Fault Refusal :=
  runSlot (vecMem (.vst p d a) p true (addrUnit a)) s
/-- VLDS (R229). -/
def execVlds (p : BitVec 3) (d a b : BitVec 5) (s : State) : Host.Outcome State Fault Refusal :=
  runSlot (vecMem (.vlds p d a b) p false (addrStride a b)) s
/-- VSTS (R229). -/
def execVsts (p : BitVec 3) (d a b : BitVec 5) (s : State) : Host.Outcome State Fault Refusal :=
  runSlot (vecMem (.vsts p d a b) p true (addrStride a b)) s
/-- VLDX (R229). -/
def execVldx (p : BitVec 3) (d a b : BitVec 5) (s : State) : Host.Outcome State Fault Refusal :=
  runSlot (vecMem (.vldx p d a b) p false (addrIndex a b)) s
/-- VSTX (R229). -/
def execVstx (p : BitVec 3) (d a b : BitVec 5) (s : State) : Host.Outcome State Fault Refusal :=
  runSlot (vecMem (.vstx p d a b) p true (addrIndex a b)) s

end Sys2Proof.Machine
end

