-- ==== Sys2Proof/Machine/Matrix.lean ====
section
/-! DEFINITION. Gangs and the matrix forms (R233 to R255), and the gang barrier's BARR (R325). -/

namespace Sys2Proof.Machine

/-! ### The barrier (R236, R237) -/

/-- A member enters its gang's barrier with its operands and a check that failed, and is BLOCKED (R237). -/
def enterBarrier (instr : Instr) (read : Slot → Word × Word) (check : M Unit) : M Flow := do
  let t ← curM
  let s ← getS
  match t.gang.bind fun g => (tabFind s.gangs g).map fun v => (g, v) with
  | none => faultM causeGang
  | some (gk, _) =>
    vecDoneM
    let r ← catchM check
    let failed : Option FaultInfo ← match r with
      | .ok _ => pure none
      | .error (.fault f) => pure (some f)
      | .error e => throw e
    modS fun s =>
      let (a, b) := read t
      let e : Entrant := { core := s.core, slot := s.slot, instr := instr, pfx := t.pfx, a := a, b := b, failed := failed, gen := t.gen,
                           unwound := t.unwound }
      match tabFind s.gangs gk with
      | some g => { s with gangs := tabPut s.gangs gk { g with entered := g.entered ++ [e] } }
      | none => s
    throw (.block .gang)

/-- What the members compare (R237): the form, its rd field, the prefix, and the values of rs1 and rs2, where compared. -/
def Entrant.key (e : Entrant) : Nat × Nat × Option (BitVec 12) × Word × Word :=
  match e.instr with
  | .ldsG _ => (0, 0, e.pfx, 0, 0)
  | .swsG => (1, 0, e.pfx, 0, 0)
  | .mmaG t _ _ => (2, t.toNat, e.pfx, e.a, e.b)
  | .barr d _ => (3, d.toNat, e.pfx, 0, 0)
  | _ => (4, 0, e.pfx, e.a, e.b)

/-- Whether the members agree and none failed (R237). -/
def Gang.agrees (g : Gang) : Bool :=
  match g.entered with
  | [] => false
  | e :: rest => e.failed.isNone && rest.all fun f => f.failed.isNone && f.key == e.key

/-- A cancelled operation parks every member: the one that failed with its cause, the rest with GANG (R238). -/
def State.cancelGang (s : State) (gk : Nat) (g : Gang) : State :=
  let s : State := { s with gangs := tabPut s.gangs gk { g with entered := [] } }
  g.entered.foldl (fun s e =>
    let f : FaultInfo := e.failed.getD { cause := causeGang }
    s.takeFault e.core e.slot f 1 .fault) s

/-- The place of a barrier that completes now among the operations that wait to be accepted. -/
def State.nextTurn (s : State) : Nat := (s.gangs.map fun g => if g.2.agreed then g.2.turn + 1 else 0).foldl max 0

/-- GANG_BARRIER_COMPLETE (R237): what the members agree on waits to be accepted, with what each brought to it. -/
def State.completeBarrier (s : State) (gk : Nat) : State :=
  match tabFind s.gangs gk with
  | none => s
  | some g =>
    if g.agreed || g.entered.length != g.size then s
    else if g.agrees then { s with gangs := tabPut s.gangs gk { g with entered := [], agreed := true, op := g.entered, turn := s.nextTurn } }
    else s.cancelGang gk g

/-! ### Weight slices (R199, R209) -/

def sliceBi4 (w : Option (BitVec 12)) : Bool := pfxBi4 w
def sliceSize (bi4 : Bool) : Nat := if bi4 then 2176 else 2112

/-- Element w[k, n] of a slice. -/
def sliceElem (bi4 : Bool) (bs : List Byte) (n k : Nat) : Int :=
  if bi4 then signedOf 4 ((bs.getD (32 * n + k / 2) 0#8).toNat / 16 ^ (k % 2) % 16) else signedOf 8 (bs.getD (32 * n + k) 0#8).toNat

/-- Exponent of block b of column n. -/
def sliceExp (bi4 : Bool) (bs : List Byte) (n b : Nat) : Nat :=
  (bs.getD (if bi4 then 2048 + 2 * n + b else 2048 + n) 0#8).toNat

def sliceBlocks (bi4 : Bool) : List (Nat × Nat) := (List.range 64).flatMap fun n => (List.range (if bi4 then 2 else 1)).map fun b => (n, b)

/-- The largest exponent of a slice, NaN blocks aside (R209). -/
def sliceMax (bi4 : Bool) (bs : List Byte) : Nat :=
  (sliceBlocks bi4).foldl (fun m e => let x := sliceExp bi4 bs e.1 e.2; if x = 255 then m else max m x) 0

/-- A quotient by a power of two rounded to the nearest, ties to even. -/
def roundShift (w : Int) (k : Nat) : Int :=
  let (n, _) := toUnits 0 (w < 0) w.natAbs 0 k
  if w < 0 then -(n : Int) else n

/-- The plane a slice makes under T, and whether a downshift was clamped (R209). The downshift kept for a NaN block is 0: R209 gives it none
(DESIGN CHOICE; log entry 68). -/
def planeOf (bi4 : Bool) (bs : List Byte) (t : Nat) : Plane × Bool :=
  let shift := fun (n b : Nat) => t - sliceExp bi4 bs n b
  let elem := fun (n k : Nat) =>
    let w := sliceElem bi4 bs n k
    let b := k / 32
    if sliceExp bi4 bs n b = 255 ∨ shift n b ≤ 15 then w else roundShift w (shift n b - 15)
  let width := if bi4 then 64 else 32
  let elems := (List.range 64).flatMap fun n => ((List.range width).map fun k => (n * 64 + k, elem n k)).filter fun e => e.2 != 0
  let shifts := ((sliceBlocks bi4).map fun e =>
    (e.1 * 2 + e.2, if sliceExp bi4 bs e.1 e.2 = 255 then 0 else min 15 (shift e.1 e.2))).filter fun e => e.2 != 0
  let nans := ((sliceBlocks bi4).filter fun e => sliceExp bi4 bs e.1 e.2 == 255).map fun e => (e.1 * 2 + e.2, true)
  ({ bi4 := bi4, elems := elems, shifts := shifts, nans := nans, t := t },
   (sliceBlocks bi4).any fun e => sliceExp bi4 bs e.1 e.2 != 255 && decide (15 < shift e.1 e.2))

/-- Whether an accepted pass uses the shadow plane of one of a gang's members (R237, R247). -/
def State.shadowInUse (s : State) (g : Gang) : Bool :=
  g.cores.any fun c =>
    let shadowB := !(s.lcoreAt g.lease c).activeB
    s.gangs.any fun h => h.2.lease == g.lease && h.2.rows.contains (rowOf c) && h.2.passes.any fun p => p.planeB.contains c == shadowB

/-- LDS.G on the whole gang (R240, R247). -/
def State.loadSlices (s : State) (g : Gang) : State :=
  let parts := g.op.map fun e =>
    let l := s.lcoreAt g.lease e.core
    let bi4 := sliceBi4 e.pfx
    let off := e.a.toNat - Config.localBase
    (e.core, bi4, l.spadBytes off (sliceSize bi4), l.spadPoison.any fun w => decide (off ≤ 8 * w + 7) && decide (8 * w < off + sliceSize bi4))
  let t := parts.foldl (fun m p => max m (sliceMax p.2.1 p.2.2.1)) 0
  if parts.any (·.2.2.2) then s.poisoned g.lease
  else parts.foldl (fun s p =>
    let l := s.lcoreAt g.lease p.1
    let (plane, clamped) := planeOf p.2.1 p.2.2.1 t
    let l := if l.activeB then { l with planeA := plane } else { l with planeB := plane }
    let l := { l with planePoison := l.planePoison.filter (· == l.activeB) }
    let l := if clamped then l.setMst 2 true else l
    s.setLCore g.lease p.1 { l with skb := BitVec.ofNat 8 t ++ l.skb.extractLsb' 0 16, changed := true }) s

/-- SWS.G (R248). -/
def State.swapPlanes (s : State) (g : Gang) : State :=
  g.cores.foldl (fun s c =>
    let l := s.lcoreAt g.lease c
    s.setLCore g.lease c { l with activeB := !l.activeB, changed := true }) s

/-- The fields of MMA.G's operand word (R249). -/
def mmaK0 (w : Word) : Nat := (w.extractLsb' 8 24).toNat
def mmaRows (w : Word) : Nat := (w.extractLsb' 0 5).toNat + 1
def mmaWidth (bi4 : Bool) : Nat := if bi4 then 64 else 32
def mmaStride (bi4 : Bool) : Nat := if bi4 then 128 else 64

/-- MMA.G's acceptance: the record test on every member, then the pass is queued (R243). -/
def State.acceptPass (s : State) (gk : Nat) (g : Gang) (e : Entrant) (tile : Nat) : State :=
  let bi4 := pfxBi4 e.pfx
  let k0 := mmaK0 e.b
  let k1 := k0 + mmaWidth bi4
  let each := fun (f : LCore → LCore) (s : State) => g.cores.foldl (fun s c => s.setLCore g.lease c (f (s.lcoreAt g.lease c))) s
  let recs := g.cores.map fun c => (s.lcoreAt g.lease c).recOf false tile
  if recs.any fun r => r.any (overlaps k0 k1) then each (fun l => l.setMst 0 true) s
  else if recs.any fun r => decide (8 < (insertFrag k0 k1 r).length) then each (fun l => l.setMst 1 true) s
  else
    let p : Pass := { tile := tile, m := mmaRows e.b, k0 := k0, bi4 := bi4, addr := e.a.toNat - Config.localBase,
                      planeB := g.cores.filter (fun c => (s.lcoreAt g.lease c).activeB), no := s.passNo }
    let s : State := { s with passNo := s.passNo + 1 }
    let s := each (fun l => ({ l.setRec false tile (insertFrag k0 k1 (l.recOf false tile)) with changed := true }).setMst (8 + tile) true) s
    match tabFind s.gangs gk with
    | some g => { s with gangs := tabPut s.gangs gk { g with passes := g.passes ++ [p] } }
    | none => s

/-- A member leaves the barrier, its instruction complete (R237). The release is a notice: to a member that was killed meanwhile, or whose
callee is unwound, it is dropped and counted (R167). -/
def State.leaveBarrier (s : State) (lease : Nat) (e : Entrant) (d : Option (BitVec 5 × Word)) : State :=
  let t := s.slotAt e.core e.slot
  if t.gen != e.gen || t.unwound != e.unwound || t.st != .blocked .gang then s.countStale lease else
  let t := match d with
    | some (r, v) => t.setX r v
    | none => t
  s.setSlot e.core e.slot ((t.complete .seq).goesOn t.pc)

/-- Whether an operation that is agreed acts on tiles and planes: all but BARR. -/
def Gang.acts (g : Gang) : Bool :=
  match g.op with
  | e :: _ => (match e.instr with
    | .barr _ _ => false
    | _ => true)
  | [] => false

/-- Whether an operation of another gang on one of a gang's cores is to be accepted first: its barrier has completed before (R239, R245). -/
def State.opAhead (s : State) (gk : Nat) (g : Gang) : Bool :=
  g.acts && s.gangs.any fun h => h.1 != gk && h.2.agreed && h.2.acts && h.2.rows.any g.rows.contains && decide (h.2.turn < g.turn)

/-- GANG_OPERATION_ACCEPT (R237): the operation is performed on the whole gang and its members go on; an operation that
cannot be accepted yet changes nothing. -/
def State.acceptGang (s : State) (gk : Nat) : State :=
  match tabFind s.gangs gk with
  | none => s
  | some g =>
    match g.agreed, g.op with
    | true, e :: _ =>
      let free : State := { s with gangs := tabPut s.gangs gk { g with op := [], agreed := false } }
      let go := fun (s : State) (d : Option (BitVec 5 × Word)) => g.op.foldl (fun s e => s.leaveBarrier g.lease e d) s
      if s.opAhead gk g then s
      else match e.instr with
      | .ldsG _ => if s.shadowInUse g then s else go (free.loadSlices g) none
      | .swsG => go (free.swapPlanes g) none
      | .mmaG t _ _ => if Config.passQueue ≤ g.passes.length then s else go (free.acceptPass gk g e t.toNat) none
      | .barr d _ => go free (some (d, g.op.foldl (fun w e => w ||| e.a) 0#64))
      | _ => go free none
    | _, _ => s

/-- GANG_BARRIER_COMPLETE (R237): the gang `a`. -/
def execGangBarrierComplete (s : State) : Host.Outcome State Fault Refusal := runEvent (fun s => s.completeBarrier s.ev.a) s
/-- GANG_OPERATION_ACCEPT (R237): the gang `a`. -/
def execGangOperationAccept (s : State) : Host.Outcome State Fault Refusal := runEvent (fun s => s.acceptGang s.ev.a) s
/-- PASS_COMPLETE (R235): the oldest pass of the gang `a`, where no pass comes before it on one of its cores (R239, R245). -/
def execPassComplete (s : State) : Host.Outcome State Fault Refusal :=
  runEvent (fun s => if (s.passAhead s.ev.a).isSome then s else s.runPass s.ev.a) s

/-! ### Gang instructions -/

/-- A scratchpad range of a gang form: aligned to 64 and in the window (R247, R249). -/
def checkRange (ea : Word) (n : Nat) : M Unit := do
  if ea.extractLsb' 0 6 != 0#6 then addrFault causeAlign ea
  if !inLocal ea.toNat || 0x40000 < ea.toNat - Config.localBase + n then addrFault causeSpad ea
  let p ← partyM
  checkOffset p ea (ea.toNat - Config.localBase) n false

/-- LDS.G (R247). Of a task that is no member, in a gate callee without VEC, GVEC is raised before GANG, here and in the other gang forms: R236 and
R366 give no order (DESIGN CHOICE; log entry 68). -/
def execLdsG (a : BitVec 5) (s : State) : Host.Outcome State Fault Refusal :=
  runFmt (fmtOk [2, 3] 0 0 0) (do
    needVec
    let t ← curM
    enterBarrier (.ldsG a) (fun t => (t.getX a, 0)) (do
      let ea := t.getX a
      checkRange ea (sliceSize (sliceBi4 t.pfx))
      let p ← partyM
      checkRights p.core p.lease p.dom ea.toNat { write := false, fetch := false })) s

/-- SWS.G (R248). -/
def execSwsG (s : State) : Host.Outcome State Fault Refusal :=
  runSlot (do
    needVec
    enterBarrier .swsG noX (pure ())) s

/-- MMA.G (R249). Its check of the operand rows' addresses asks for no right of the domain: R249 lists none, where R247 names one for LDS.G, and
R183 speaks of every access (DESIGN CHOICE; log entry 69). -/
def execMmaG (tl : BitVec 3) (a b : BitVec 5) (s : State) : Host.Outcome State Fault Refusal :=
  runFmt (fmtOk [2, 3] 0 0 0) (do
    needVec
    let t ← curM
    enterBarrier (.mmaG tl a b) (fun t => (t.getX a, t.getX b)) (do
      let w := t.getX b
      let bi4 := pfxBi4 t.pfx
      if w.extractLsb' 32 32 != 0#32 || w.extractLsb' 5 3 != 0#3 then faultM causeMopnd
      if 0xFFFFFF < mmaK0 w + mmaWidth bi4 then faultM causeMopnd
      let l ← curL
      if bi4 != l.active.bi4 then faultM causeMopnd
      checkRange (t.getX a) (mmaRows w * mmaStride bi4))) s

/-- BARR (R325): a release at die scope before the barrier. -/
def execBarr (d a : BitVec 5) (s : State) : Host.Outcome State Fault Refusal :=
  runSlot (enterBarrier (.barr d a) (fun t => (t.getX a, 0)) (do
    settleM
    drainM)) s

/-! ### The forms of one core -/

/-- The passes accepted on a tile are complete (R245). -/
def tileM (t : BitVec 3) : M Unit := modS fun s => s.finishTile s.cur.lease s.core t.toNat s.passFuel

/-- MWAIT waits while a pass accepted before it issued is in flight on a tile of its mask (R250). -/
def mwaitM (mask : BitVec 8) (before : Nat) : M Flow := do
  let t ← curM
  let s ← getS
  if s.passBefore t.lease s.core mask before then throw (.block (.passes mask before))
  return .seq

/-- MWAIT (R250). -/
def execMwait (a : BitVec 5) (s : State) : Host.Outcome State Fault Refusal :=
  runSlot (do
    needVec
    let t ← curM
    let s ← getS
    mwaitM ((t.getX a).setWidth 8) s.passNo) s

/-- Entries of a bank that belong to a tile, and those that do not. -/
def tileOf (t : Nat) (b : Tab Lane) : Tab Lane := b.filter fun e => e.1 / 2048 == t
def notTile (t : Nat) (b : Tab Lane) : Tab Lane := b.filter fun e => e.1 / 2048 != t
/-- A bank with the elements of a tile put in. -/
def withTile (b e : Tab Lane) : Tab Lane := e.foldl (fun b x => tabPut b x.1 x.2) b

/-- Whether an ASWAP on a tile that another slot of a core has issued still waits: of those with a place before `no`, where one is given. MZERO and
ASWAP act on a tile in the order in which the core issues them (R245). -/
def State.swapAhead (s : State) (lease c t : Nat) (no : Option Nat) : Bool :=
  (s.coreAt c).slots.any fun k => match k.2.st with
    | .blocked (.swap _ u _ n) => k.2.lease == lease && u.toNat == t && (match no with
      | some m => decide (n < m)
      | none => true)
    | _ => false

/-- The place of an ASWAP that begins to wait now. -/
def State.nextSwap (s : State) (c : Nat) : Nat :=
  ((s.coreAt c).slots.map fun k => match k.2.st with
    | .blocked (.swap _ _ _ n) => n + 1
    | _ => 0).foldl max 0

/-- MZERO (R251): it stalls while an ASWAP on its tile that the core has issued before still waits (R245). -/
def execMzero (tl : BitVec 3) (s : State) : Host.Outcome State Fault Refusal :=
  runSlot (do
    needVec
    let t ← curM
    let s ← getS
    if s.swapAhead t.lease s.core tl.toNat none then throw .stall
    vecDoneM
    tileM tl
    modL fun l => { l.setRec false tl.toNat [] with work := notTile tl.toNat l.work, changed := true,
                                                    accPoison := l.accPoison.filter fun k => k / 2048 != tl.toNat }
    return .seq) s

/-- The banks of a tile exchanged, with their records (R252). -/
def LCore.swapTile (l : LCore) (t : Nat) : LCore :=
  let a := l.recOf false t
  let b := l.recOf true t
  { (l.setRec false t b).setRec true t a with
      work := withTile (notTile t l.work) (tileOf t l.vis), vis := withTile (notTile t l.vis) (tileOf t l.work), changed := true,
      accPoison := l.accPoison.map fun k => if k / 2048 = t then k + 16384 else if k / 2048 = t + 8 then k - 16384 else k }

/-- ASWAP (R252): 0 SWAPPED, 1 INCOMPLETE, 2 BADARG. The slot is BLOCKED while a pass on the tile, a vector command of its own, or an ASWAP on
the tile that the core issued before is under way; again when a blocked one, with its place `no`, completes. -/
def aswapM (d : BitVec 5) (tl : BitVec 3) (b : BitVec 5) (no : Option Nat) : M Flow := do
  let t ← curM
  let c := t.getX b
  let k := (c.extractLsb' 0 24).toNat
  if c.extractLsb' 32 32 != 0#32 || c.extractLsb' 24 7 != 0#7 || k = 0 then
    setXM d 2#64
    return .seq
  let s ← getS
  if s.passOnTile t.lease s.core tl.toNat || (s.coreAt s.core).vecq.any (fun v => v.slot == s.slot && v.gen == t.gen) ||
      s.swapAhead t.lease s.core tl.toNat no then
    throw (.block (.swap d tl b (no.getD (s.nextSwap s.core))))
  let l ← curL
  if c.getLsbD 31 || decide (l.recOf false tl.toNat = [(0, k)]) then
    modL fun l => l.swapTile tl.toNat
    setXM d 0#64
    return .seq
  else
    setXM d 1#64
    return .seq

/-- ASWAP (R252). -/
def execAswap (d : BitVec 5) (tl : BitVec 3) (b : BitVec 5) (s : State) : Host.Outcome State Fault Refusal :=
  runSlot (do
    needVec
    aswapM d tl b none) s

/-- What MREC shows of a record (R253). -/
def recWord (r : List (Nat × Nat)) (j : Nat) : Word :=
  let f := r.getD j (0, 0)
  BitVec.ofNat 64 (f.1 + f.2 * 2 ^ 24 + r.length * 2 ^ 48)

/-- MREC (R253). -/
def execMrec (d : BitVec 5) (tl : BitVec 3) (b : BitVec 5) (s : State) : Host.Outcome State Fault Refusal :=
  runSlot (do
    needVec
    let t ← curM
    let sel := (t.getX b).toNat
    let l ← curL
    setXM d (if 16 ≤ sel then 0xFFFFFFFFFFFFFFFF#64 else recWord (l.recOf (sel.testBit 0) tl.toNat) (sel / 2))
    return .seq) s

/-- A tile command of the vector engine, its selector read at issue (R254). -/
def tileCmd (instr : Instr) (b : BitVec 5) : M Flow := do
  needVec
  let t ← curM
  if t.getX b >>> 8 != 0#64 then faultM causeDesc
  vecForm instr (fun t => (t.getX b, 0)) rmNone

/-- MRD (R254). -/
def execMrd (d : BitVec 5) (tl : BitVec 3) (b : BitVec 5) (s : State) : Host.Outcome State Fault Refusal :=
  runSlot (tileCmd (.mrd d tl b) b) s
/-- MWR (R254). -/
def execMwr (tl : BitVec 3) (a b : BitVec 5) (s : State) : Host.Outcome State Fault Refusal :=
  runSlot (tileCmd (.mwr tl a b) b) s
/-- MADDV (R254). -/
def execMaddv (tl : BitVec 3) (a b : BitVec 5) (s : State) : Host.Outcome State Fault Refusal :=
  runSlot (tileCmd (.maddv tl a b) b) s

/-- MSTAT (R255): it waits as a read of `mst` does, and BUSY is that of the clk of issue (R118). -/
def execMstat (d a : BitVec 5) (s : State) : Host.Outcome State Fault Refusal :=
  runSlot (do
    needVec
    let l0 ← curL
    vecDoneM
    modS fun s => s.finishGang s.cur.gang
    let t ← curM
    let l ← curL
    let clear : BitVec 16 := ((t.getX a).extractLsb' 0 5).zeroExtend 16
    modL fun l => { l with mst := l.mst &&& ~~~clear }
    setXM d (csrSeen 0x020 (l0.mst.zeroExtend 64) (l.mst.zeroExtend 64))
    return .seq) s

end Sys2Proof.Machine
end

