-- ==== Sys2Proof/Machine/Launch.lean ====
section
/-! DEFINITION. The distributor (R49 to R52, R78 to R92): headers, eligibility and placement, entry messages, the open count's
end, completion words and occupancy dumps. -/

namespace Sys2Proof.Machine

/-! ### The header (R49 to R51) -/

def hdrByte (h : List Byte) (i : Nat) : Nat := (h.getD i 0#8).toNat
def hdrNat (h : List Byte) (i n : Nat) : Nat := leNat ((h.drop i).take n)
def hdrType (h : List Byte) : Nat := hdrByte h 2
def hdrPrio (h : List Byte) : Nat := hdrByte h 3 % 4
def hdrCls (h : List Byte) : Nat := hdrByte h 3 / 4 % 4
def hdrGang (h : List Byte) : Nat := hdrByte h 43
def hdrAccount (h : List Byte) : Nat := hdrNat h 44 2 % 4096
def hdrArgs (h : List Byte) : Nat := hdrNat h 48 8
def hdrDone (h : List Byte) : Nat := hdrNat h 56 8

/-- Width, extent and placement code of field i. -/
def hdrField (h : List Byte) (i : Nat) : Nat × Nat × Nat :=
  let w := hdrByte h (8 + i)
  let e := hdrNat h (16 + 4 * i) 4
  (w, if w = 32 ∧ e = 0 then 2 ^ 32 else e, hdrByte h (40 + i / 2) / 16 ^ (i % 2) % 16)

/-- The used fields: those of the leading non-zero widths. -/
def hdrUsed (h : List Byte) : List (Nat × Nat × Nat) := ((List.range 6).map (hdrField h)).takeWhile fun f => f.1 != 0

/-- The checks of R50 that read the header alone. -/
def hdrOk (h : List Byte) : Bool :=
  let used := hdrUsed h
  let rest := (((List.range 6).map (hdrField h)).drop used.length)
  let g := hdrGang h
  let gang := used.any fun f => f.2.2 == 6
  hdrNat h 0 2 == 0x4C58 && hdrNat h 4 4 == 0 && hdrNat h 14 2 == 0 && hdrByte h 3 / 16 == 0 && hdrNat h 44 2 / 4096 == 0 &&
  hdrByte h 46 / 16 == 0 && hdrByte h 47 == 0 && decide (hdrType h < 0xF0) && decide (hdrCls h < 2) &&
  !used.isEmpty && rest.all (fun f => f == (0, 0, 0)) && decide ((used.map (·.1)).sum ≤ 64) &&
  used.all (fun f => decide (f.1 ≤ 32) && f.2.1 != 0 && decide (f.2.1 ≤ 2 ^ f.1) && decide (f.2.2 < 7)) &&
  (g == 0 || g == 1 || g == 2 || g == 4 || g == 8 || g == 16) && (gang == (g != 0))

/-- Values of the fields of identifier number i, outermost first (R51). -/
def idValues : List Nat → Nat → List Nat
  | [], _ => []
  | _ :: t, i => i / t.prod :: idValues t (i % t.prod)

/-- The work identifier of identifier number i (R51). -/
def widOf (fs : List (Nat × Nat × Nat)) (i : Nat) : Nat :=
  (fs.zip (idValues (fs.map (·.2.1)) i)).foldl (fun w e => w * 2 ^ e.1.1 + e.2) 0

/-- Identifiers of one serial group, and serial groups (R86). -/
def seqCount (fs : List (Nat × Nat × Nat)) : Nat := ((fs.filter fun f => f.2.2 == 4).map (·.2.1)).prod
def groupCount (fs : List (Nat × Nat × Nat)) : Nat := ((fs.filter fun f => f.2.2 != 4).map (·.2.1)).prod

/-! ### Eligible units (R83, R84) -/

/-- The quadrants whose schedule names the lease. -/
def State.eligQuads (s : State) (lease : Nat) : List Nat := (List.range 32).filter fun q => (s.quadAt q).names lease

/-- Cores of a unit by placement code: die, quadrant, row, core. -/
def unitCores (code : Nat) : Nat :=
  match code with
  | 0 => 512
  | 1 => 128
  | 2 => 16
  | _ => 1

/-- The eligible units of a size within a scope, by their first core. -/
def unitsIn (quads : List Nat) (lo len size : Nat) : List Nat :=
  ((List.range (len / size)).map fun i => lo + size * i).filter fun u =>
    quads.any fun q => decide (u < 128 * q + 128) && decide (128 * q < u + size)

/-- The gangs of g rows within a scope, by their first row (R88). A 16-row gang needs a fused pair with equal schedules (R61,
R64). -/
def State.gangsIn (s : State) (lease lo len g : Nat) : List Nat :=
  if g = 16 then
    ((List.range 16).map (2 * ·)).filterMap fun q =>
      let a := s.quadAt q
      let b := s.quadAt (q + 1)
      if lo ≤ 128 * q ∧ 128 * q + 256 ≤ lo + len ∧ a.names lease ∧ a.sched = b.sched ∧ a.owner = b.owner then some (8 * q) else none
  else
    (s.eligQuads lease).flatMap fun q =>
      if lo ≤ 128 * q ∧ 128 * q + 128 ≤ lo + len then (List.range (8 / g)).map fun j => 8 * q + g * j else []

/-- Whether the codes of a header stand in an order that places (R84). -/
def codesOk : Option Nat → List Nat → Bool
  | _, [] => true
  | prev, c :: rest =>
    let ok := match prev with
      | none => true
      | some p =>
        if p < 4 then (if c < 4 then decide (p < c) else if c = 6 then decide (p < 2) else true)
        else if p = 5 then c == 5 || c == 4
        else if p = 4 then c == 4
        else false
    ok && codesOk (some c) rest

/-- Whether every scope the fields allow has the units they ask for (R84, R88). -/
def State.scopesOk (s : State) (lease g : Nat) (scopes : List (Nat × Nat)) : List (Nat × Nat × Nat) → Bool
  | [] => scopes.all fun c => !(unitsIn (s.eligQuads lease) c.1 c.2 1).isEmpty
  | (_, e, code) :: rest =>
    if code < 4 then
      let size := unitCores code
      let us := scopes.map fun c => unitsIn (s.eligQuads lease) c.1 c.2 size
      us.all (fun u => decide (e ≤ u.length)) && s.scopesOk lease g (us.flatMap fun u => (u.take e).map fun x => (x, size)) rest
    else if code = 6 then scopes.all fun c => !(s.gangsIn lease c.1 c.2 g).isEmpty
    else scopes.all fun c => !(unitsIn (s.eligQuads lease) c.1 c.2 1).isEmpty

/-- Step 3 of R80. -/
def State.placeOk (s : State) (lease : Nat) (h : List Byte) : Bool :=
  let fs := hdrUsed h
  !(s.eligQuads lease).isEmpty && codesOk none (fs.map (·.2.2)) && s.scopesOk lease (hdrGang h) [(0, 4096)] fs

/-- Step 2 of R80 (R67). -/
def State.accountOk (s : State) (lease n : Nat) : Bool :=
  let a := s.accountAt n
  a.en && a.part == (s.leaseD lease).part && (a.lease == 0 || a.lease == lease)

/-- The class check of R50, at the lowest core of the lease's eligible quadrants. -/
def State.classOk (s : State) (lease : Nat) (h : List Byte) : State × Bool :=
  match s.eligQuads lease with
  | [] => (s, true)
  | q :: _ =>
    match s.vtUsable (128 * q) lease (hdrType h) with
    | (s', some e) => (s', e.cls == hdrCls h)
    | (s', none) => (s', false)

/-! ### Memory of the distributor (R81, R82, R418) -/

/-- The core whose lookaside buffer and die serve the distributor for a lease: that of its event core (log entry 18). -/
def State.distCore (s : State) (lease : Nat) : Nat := ((s.firstQuad lease 32 0).getD 0) * 128

/-- The translation of an aligned access of the distributor, with the rights of domain 0. -/
def distPlace (c lease dva n : Nat) (write : Bool) : M Xlat := do
  if dva % n != 0 || decide (2 ^ 47 ≤ dva) || inLocal dva then faultM causeAper
  checkRights c lease 0 dva { write := write, fetch := false }
  translate (dieOf c) lease dva { write := write, fetch := false }

/-- The completion word is written, and set FULL where it has a full/empty state; a store that fails is lease event 4. -/
def State.storeCompletion (s : State) (lease tag dva status entries : Nat) : State :=
  match s.runHw lease (distPlace (s.distCore lease) lease dva 8 true) with
  | (s', some x) =>
    let pa := x.paOf dva
    let s' := s'.storeHome x pa (leBytes 8 (status + tag * 256 + entries * 65536))
    if hasFe pa && x.kind != 2 && x.kind != 5 then s'.setFe pa 1 else s'
  | (s', none) => s'.leaseEvent lease [4, BitVec.ofNat 64 tag, BitVec.ofNat 64 dva, 0] tag

/-! ### Interrupts of a window (R394, R396) -/

/-- REFUSED holds all ones once reached. -/
def State.refuseWrite (s : State) (fn : HostFn) : State :=
  let w := s.windowAt fn
  s.setWindow fn { w with refused := if w.refused < 2 ^ 64 - 1 then w.refused + 1 else w.refused }

/-- Vectors of a function (R393). -/
def fnVectors : HostFn → Nat
  | .pf _ => 2048
  | .vf _ => 64

/-- The window's interrupt: VEC, where the function has that vector. -/
def State.windowIrq (s : State) (fn : HostFn) : State :=
  let v := bitsOf (s.windowAt fn).irq 12 2
  if v < fnVectors fn then s.sendMsix (State.windowKey fn) v else s.refuseWrite fn

/-- The interrupt for a launch, where LEN is 1. -/
def State.launchIrq (s : State) (fn : Option HostFn) : State :=
  match fn with
  | none => s
  | some f => if (s.windowAt f).irq % 2 = 1 then s.windowIrq f else s

/-! ### Accepting a header (R80) -/

/-- Whether an upcall task that bears the tag is queued in a reserve entry or live (R90). A lease event that is kept with the lease's saved
state is neither, and holds no tag (R417; DESIGN CHOICE: R90 does not name it; log entry 66). -/
def State.upcallBears (s : State) (tag : Nat) : Bool :=
  s.cores.any fun c =>
    c.2.reserve.any (fun m => m.2.tag == tag) || c.2.heldUp.any (fun h => match h with | .upcall _ m => m.tag == tag | _ => false) ||
    c.2.slots.any fun t => t.2.isLive && t.2.upcall && t.2.tag == tag

/-- A free launch tag that no upcall task bears: the first from a free start on (R80, R89; log entry 7). -/
def State.freeTag (s : State) : Option Nat :=
  let from0 := Config.freeTag s.free
  ((List.range 256).map fun i => (from0 + i) % 256).find? fun t => (tabFind s.launches t).isNone && !s.upcallBears t

/-- A header refused: no tag, the completion word with its status, the window's interrupt. -/
def State.refuseHeader (s : State) (lease : Nat) (fn : Option HostFn) (h : List Byte) (status : Nat) : State :=
  (s.storeCompletion lease 0 (hdrDone h) status 0).launchIrq fn

/-- A new live launch (R89). -/
def Launch.new (lease : Nat) (fn : Option HostFn) (h : List Byte) (dva : Nat) : Launch :=
  { lease := lease, fn := fn, hdr := h, hdrDva := dva, account := hdrAccount h, open_ := 0, next := 0, sent := 0, groups := [], rows := [],
    completed := false }

/-- Steps 1 to 3 of R80: the status of a refusal, 0 where the header passes. -/
def State.judgeHeader (s : State) (lease : Nat) (h : List Byte) : State × Nat :=
  if !hdrOk h then (s, 1)
  else match s.classOk lease h with
    | (s', false) => (s', 1)
    | (s', true) =>
      if !s'.accountOk lease (hdrAccount h) then (s', 2)
      else if !s'.placeOk lease h then (s', 3)
      else (s', 0)

/-- A header that passed is given a tag; `none` where no tag is free. -/
def State.openLaunch (s : State) (lease : Nat) (fn : Option HostFn) (h : List Byte) (dva : Nat) : Option (State × Nat) :=
  match s.freeTag with
  | none => none
  | some t => some ({ s with launches := tabPut s.launches t (Launch.new lease fn h dva), free := s.free + 1 }, t)

/-! ### Distribution (R85 to R88) -/

/-- Whether the distributor may place work of a lease on a quadrant (R69, R87, R377). -/
def State.placesOn (s : State) (lease q : Nat) : Bool :=
  let v := s.quadAt q
  v.holder == some lease && !v.preempt && v.throttled.isEmpty

/-- Messages that count for a core: its inbound queue of a class and the records of its ready ring (R85). -/
def State.loadOf (s : State) (lease cls c : Nat) : Nat :=
  let l := s.lcoreAt lease c
  ((s.coreAt c).queue cls).length + l.readyRecords l.rcount 0

/-- The candidate with the least weight, the first on a tie. -/
def leastBy (f : Nat → Nat) : List Nat → Option Nat
  | [] => none
  | a :: t =>
    match leastBy f t with
    | none => some a
    | some b => if f a ≤ f b then some a else some b

/-- The scope that the spatial fields select (R85); `none` where the unit they name is no longer there. R85 does not speak of a schedule that
changes after acceptance: a field's value counts the units that are eligible by the schedules when its identifier is sent, and distribution
waits where there is no such unit (DESIGN CHOICE; log entry 66). -/
def scopeOf (quads : List Nat) : Nat × Nat → List ((Nat × Nat × Nat) × Nat) → Option (Nat × Nat)
  | c, [] => some c
  | c, ((_, _, code), v) :: rest =>
    if code < 4 then
      match (unitsIn quads c.1 c.2 (unitCores code))[v]? with
      | some u => scopeOf quads (u, unitCores code) rest
      | none => none
    else some c

/-- The core chosen in a scope (R85). -/
def State.chooseCore (s : State) (lease cls : Nat) (scope : Nat × Nat) : Option Nat :=
  leastBy (s.loadOf lease cls) ((unitsIn (s.eligQuads lease) scope.1 scope.2 1).filter fun c => s.placesOn lease (quadOf c))

/-- Rows of the gang that begins at a row. -/
def gangRows (g j : Nat) : List Nat := (List.range g).map (j + ·)
def rowCores (r : Nat) : List Nat := (List.range 16).map (16 * r + ·)

/-- Whether a row serves a gang with a live task (R236). A member whose entry message is sent and whose handler has not started counts as
live: the spec does not say (log entry 64). -/
def State.rowBusy (s : State) (r : Nat) : Bool := s.gangs.any fun g => g.2.rows.contains r && !g.2.live.isEmpty

/-- The gang chosen in a scope (R85, R88, R236). -/
def State.chooseGang (s : State) (lease cls g : Nat) (scope : Nat × Nat) : Option Nat :=
  leastBy (fun j => (((gangRows g j).flatMap rowCores).map (s.loadOf lease cls)).sum)
    ((s.gangsIn lease scope.1 scope.2 g).filter fun j =>
      (gangRows g j).all fun r => s.placesOn lease (r / 8) && !s.rowBusy r)

/-- The entry message of an identifier for a core (R45, R46). -/
def State.entryMsg (s : State) (l : Launch) (tag wid c : Nat) (gang : Option Nat) : Msg :=
  { Msg.hw (hdrType l.hdr) l.lease c s.node [] (BitVec.ofNat 64 wid) tag with
      counted := true, entry := some (hdrEntry l.hdr), prio := hdrPrio l.hdr, gang := gang,
      room := if s.holderOf c = some l.lease then some (hdrCls l.hdr) else none }

/-- The next identifier a launch may send: its group, index in the group, and the core its group is bound to. -/
def Launch.nextId (l : Launch) : Option (Nat × Nat × Option Nat) :=
  let fs := hdrUsed l.hdr
  match l.groups.find? fun g => !g.2.2.1 && decide (g.2.2.2.2 + 1 < seqCount fs) with
  | some g => some (g.1, g.2.2.2.2 + 1, some g.2.1)
  | none => if l.next < groupCount fs then some (l.next, 0, none) else none

/-- Whether every identifier has been sent. -/
def Launch.distributed (l : Launch) : Bool :=
  let fs := hdrUsed l.hdr
  decide (groupCount fs ≤ l.next) && l.groups.all fun g => decide (seqCount fs ≤ g.2.2.2.2 + 1)

/-- ENTRIES holds 2^48 − 1 once reached (R81). -/
def sat48 (n k : Nat) : Nat := min (n + k) (2 ^ 48 - 1)

def Launch.addRows (l : Launch) (rs : List Nat) : Launch :=
  { l with rows := l.rows ++ rs.filter fun r => !l.rows.contains r }

/-- Whether the queue of a class has room for an entry message (R87). -/
def State.queueRoom (s : State) (cls c : Nat) : Bool :=
  decide (((s.coreAt c).queue cls).length + (s.coreAt c).reserved cls < queueSize cls)

/-- The identifier that a launch of no gang may send now (R85 to R87): its group, its index there, its work identifier and its core; `none`
where distribution waits, or is over. -/
def State.sendPlan (s : State) (l : Launch) : Option (Nat × Nat × Nat × Nat) :=
  let fs := hdrUsed l.hdr
  if l.completed || fs.any fun f => f.2.2 == 6 then none
  else match l.nextId with
    | none => none
    | some (group, i, bound) =>
      let n := group * seqCount fs + i
      let core : Option Nat := match bound with
        | some c => if s.placesOn l.lease (quadOf c) then some c else none
        | none => (scopeOf (s.eligQuads l.lease) (0, 4096) (fs.zip (idValues (fs.map (·.2.1)) n))).bind (s.chooseCore l.lease (hdrCls l.hdr))
      (core.filter (s.queueRoom (hdrCls l.hdr))).map fun c => (group, i, widOf fs n, c)

/-- The gang to which a launch may send its next identifier now, by its first row (R88). -/
def State.gangPlan (s : State) (l : Launch) : Option Nat :=
  let fs := hdrUsed l.hdr
  if l.completed || !(fs.any fun f => f.2.2 == 6) || decide (groupCount fs ≤ l.next) then none
  else ((scopeOf (s.eligQuads l.lease) (0, 4096) (fs.zip (idValues (fs.map (·.2.1)) l.next))).bind
    (s.chooseGang l.lease (hdrCls l.hdr) (hdrGang l.hdr))).filter fun j =>
      ((gangRows (hdrGang l.hdr) j).flatMap rowCores).all (s.queueRoom (hdrCls l.hdr))

/-- Whether a launch can send an identifier now. -/
def State.canSend (s : State) (l : Launch) : Bool := (s.sendPlan l).isSome || (s.gangPlan l).isSome

/-- The launch whose turn it is: the first, cyclically after the one served last, that can send. One that waits holds up no other, and each
is served one identifier a turn (R87). -/
def State.sendsNext (s : State) : Option Nat :=
  let able := (s.launches.filter fun l => s.canSend l.2).map (·.1)
  match able.find? fun t => decide (s.robin < t) with
  | some t => some t
  | none => able.head?

/-- The distributor sends the next identifier of a launch whose turn it is; the state is unchanged where it waits (R87). -/
def State.distribute (s : State) (tag : Nat) : State :=
  match tabFind s.launches tag with
  | none => s
  | some l =>
    if s.sendsNext != some tag then s
    else match s.sendPlan l with
      | none => s
      | some (group, i, wid, c) =>
        let l := ({ l with open_ := l.open_ + 1, sent := sat48 l.sent 1, next := if i = 0 then l.next + 1 else l.next,
                           groups := if seqCount (hdrUsed l.hdr) = 1 then l.groups else tabPut l.groups group (c, true, wid, i) }).addRows [rowOf c]
        ({ s with launches := tabPut s.launches tag l, robin := tag }).post (s.entryMsg l tag wid c none)

/-- A new key for a gang. -/
def State.newGang (s : State) : Nat := s.gangs.foldl (fun n g => max n (g.1 + 1)) 0

/-- The distributor sends an identifier of a GANG field to every core of a gang, where it is the launch's turn (R87, R88). A member stands in
the gang's list of live tasks from then on, its slot named when its handler starts. -/
def State.distributeGang (s : State) (tag : Nat) : State :=
  match tabFind s.launches tag with
  | none => s
  | some l =>
    if s.sendsNext != some tag then s
    else match s.gangPlan l with
      | none => s
      | some j =>
        let rows := gangRows (hdrGang l.hdr) j
        let cores := rows.flatMap rowCores
        let wid := widOf (hdrUsed l.hdr) l.next
        let gk := s.newGang
        let gang : Gang := { lease := l.lease, tag := tag, rows := rows, live := cores.map fun c => (c, 8), size := cores.length,
                             entered := [], agreed := false, passes := [] }
        let l := ({ l with open_ := l.open_ + cores.length, sent := sat48 l.sent cores.length, next := l.next + 1 }).addRows rows
        let s : State := { s with launches := tabPut s.launches tag l, gangs := tabPut s.gangs gk gang, robin := tag }
        cores.foldl (fun s c => s.post (s.entryMsg l tag wid c (some gk))) s

/-! ### Completion (R90, R92, R387) -/

/-- Whether a home still has a request of a task of a lease to perform. -/
def State.homeWaits (s : State) (lease : Nat) : Bool :=
  s.homes.any fun h => h.2.reqs.any fun r => (r.who.map (·.lease)) == some lease

/-- Outstanding work of a launch, what homes have still to perform for its lease, and messages on the fabric that its release at sys scope
waits for (R387). -/
def State.outstanding (s : State) (lease tag : Nat) : Bool :=
  (s.cores.any fun c =>
    c.2.sb.any (fun e => e.lease == lease && e.tag == tag) || c.2.copyq.any (fun q => q.lease == lease && q.tag == tag) ||
    c.2.vecq.any fun v => let t := c.2.slotAt v.slot; (v.isMem || v.redx.isSome) && t.lease == lease && t.tag == tag) ||
  s.colls.any (fun c => c.cmd.lease == lease && c.cmd.tag == tag) ||
  s.gangs.any (fun g => g.2.lease == lease && g.2.tag == tag && !g.2.passes.isEmpty) ||
  s.homeWaits lease || s.fabric.any fun r => r.lease == lease && r.tag == tag

/-- The occupancy table of a row for a lease (R91). -/
def rowKey (lease row : Nat) : Nat := lease * 256 + row
def State.occRecord (s : State) (lease row : Nat) : List Byte :=
  let t := tabGet [] s.rows (rowKey lease row)
  (List.range 32).flatMap fun i => leBytes 8 (tabGet 0 t i)

/-- One row's record of the dump: a store that faults is dropped and reported (R92). The spec does not say how much of a record goes with it,
nor which DVA x12 names: the whole record, and its first byte (log entry 64). -/
def State.dumpRow (s : State) (lease tag dump row : Nat) : State :=
  let c := s.distCore lease
  let at_ := dump + 256 * row
  let place : M (List Xlat) := (List.range 4).mapM fun i => distPlace c lease (at_ + 64 * i) 64 true
  match s.runHw lease place with
  | (s', some xs) =>
    let bs := s'.occRecord lease row
    (List.range 4).foldl (fun s i => match xs[i]? with
      | some x => s.storeHome x (x.paOf (at_ + 64 * i)) ((bs.drop (64 * i)).take 64)
      | none => s) s'
  | (s', none) => s'.leaseEvent lease [4, BitVec.ofNat 64 tag, BitVec.ofNat 64 at_, 1] tag

/-- The occupancy dump (R92). -/
def State.dumpAll (s : State) (lease tag : Nat) (l : Launch) : State :=
  let a := hdrArgs l.hdr
  let c := s.distCore lease
  let word : M Nat := do
    let x ← distPlace c lease a 8 false
    readWord x a
  match s.runHw lease word with
  | (s', none) => s'.leaseEvent lease [4, BitVec.ofNat 64 tag, BitVec.ofNat 64 a, 1] tag
  | (s', some d) =>
    if d = 0 then s'
    else if d % 64 ≠ 0 then s'.leaseEvent lease [4, BitVec.ofNat 64 tag, BitVec.ofNat 64 d, 1] tag
    else ((List.range 256).filter l.rows.contains).foldl (fun s r => s.dumpRow lease tag d r) s'

/-- A launch completes (R90): the release on every die it placed a task on, the dump, the completion word, the interrupt. -/
def State.completeLaunch (s : State) (tag : Nat) : State :=
  match tabFind s.launches tag with
  | none => s
  | some l =>
    if l.completed || !l.distributed || l.open_ != 0 || s.outstanding l.lease tag then s
    else
      let s := ((l.rows.map (· / 32) ++ l.dies).eraseDups).foldl State.writebackAll s
      let s := s.dumpAll l.lease tag l
      let s := s.storeCompletion l.lease tag (hdrDone l.hdr) 0 l.sent
      let s := { s with launches := tabPut s.launches tag { l with completed := true } }
      s.launchIrq l.fn

/-- The tag of a completed launch is free (R90). -/
def State.freeLaunchTag (s : State) (tag : Nat) : State :=
  match tabFind s.launches tag with
  | some l =>
    if l.completed && !s.upcallBears tag then
      { s with launches := tabDel s.launches tag,
               gangs := s.gangs.filter fun g => !(g.2.lease == l.lease && g.2.tag == tag && g.2.live.isEmpty && g.2.op.isEmpty && g.2.passes.isEmpty) }
    else s
  | none => s

/-- The lease a window submits for: a control VF submits for its partition's control lease. A PF, which has the slot by R394 and of which R78
does not speak, submits for none: its write is refused and counted (log entry 64). -/
def State.submitter (s : State) (fn : HostFn) : Option Nat :=
  match (s.windowAt fn).bound with
  | some (true, p) => (tabFind s.parts p).map (·.control)
  | some (false, l) => some l
  | none => none

/-- A window without its oldest header. -/
def Window.popHeader (w : Window) : Window :=
  { w with headers := w.headers.tail, badHeaders := (w.badHeaders.filter (· != 0)).map (· - 1) }

/-- The distributor takes the oldest header of a window (R80): it waits there while no tag is free. When it is taken later, steps 1 to 3 are
made again on what holds then, so it may be refused: R80 does not say whether they are (DESIGN CHOICE; log entry 66). A poisoned one is
consumed (R381, R384; log entry 40). -/
def State.acceptHeader (s : State) (fn : HostFn) : State :=
  match s.submitter fn, (s.windowAt fn).headers with
  | some lease, h :: _ =>
    let pop := fun (s : State) => s.setWindow fn (s.windowAt fn).popHeader
    if (s.windowAt fn).badHeaders.contains 0 then (pop s).poisoned lease
    else match s.judgeHeader lease h with
    | (s', 0) =>
      (match s'.openLaunch lease (some fn) h 0 with
       | none => s
       | some (s'', _) => pop s'')
    | (s', st) => (pop s').refuseHeader lease (some fn) h st
  | _, _ => s

/-! ### The events -/

/-- DISTRIBUTOR_ACCEPT (R80): the window `fn`. -/
def execDistributorAccept (s : State) : Host.Outcome State Fault Refusal := runEvent (fun s => s.acceptHeader s.ev.fn) s
/-- DISTRIBUTE_IDENTIFIER (R87): the launch tag `a`. -/
def execDistributeIdentifier (s : State) : Host.Outcome State Fault Refusal := runEvent (fun s => s.distribute s.ev.a) s
/-- GANG_DISTRIBUTE (R88): the launch tag `a`. -/
def execGangDistribute (s : State) : Host.Outcome State Fault Refusal := runEvent (fun s => s.distributeGang s.ev.a) s
/-- LAUNCH_COMPLETE (R90): the launch tag `a`. -/
def execLaunchComplete (s : State) : Host.Outcome State Fault Refusal := runEvent (fun s => s.completeLaunch s.ev.a) s
/-- LAUNCH_TAG_FREE (R90): the launch tag `a`. -/
def execLaunchTagFree (s : State) : Host.Outcome State Fault Refusal := runEvent (fun s => s.freeLaunchTag s.ev.a) s

end Sys2Proof.Machine
end

