-- ==== Sys2Proof/Machine/Messages.lean ====
section
/-! DEFINITION. SEND and SENDC (R153 to R155), the tag forms (R159), JARM and JDEC (R326 to R329), LNCH (R93, R94), WAITA and WAKE
(R321 to R323). -/

namespace Sys2Proof.Machine

/-! ### Destinations (R42, R43, R169) -/

/-- Whether a destination word names this device. -/
def State.localWord (s : State) (d : Word) : Bool := d.getLsbD 12 || (d.extractLsb' 13 19).toNat == s.node
/-- Whether it does so by its node alone: what goes there does not leave the package, and is admitted under R403 (R42, R401; log entry
25). -/
def State.ownWord (s : State) (d : Word) : Bool := !d.getLsbD 12 && (d.extractLsb' 13 19).toNat == s.node
def wordCore (d : Word) : Nat := (d.extractLsb' 0 12).toNat
def wordNode (d : Word) : Nat := (d.extractLsb' 13 19).toNat

/-- The destination lease of a message to a core of this device; `none` is NOPART (R43, R154). -/
def State.destLease (s : State) (lease c : Nat) : Option Nat :=
  let q := s.quadAt (quadOf c)
  if q.owner = some (s.leaseD lease).part then (if q.names lease then some lease else (q.sched.head?).map (·.1)) else none

/-- Whether an aperture entry of the lease with V = 1 names a node (R169). -/
def State.routed (s : State) (lease node : Nat) : Bool := (s.leaseD lease).apertures.any fun a => a.2.1 && a.2.2.1 == node

/-- Whether what a task sends, arms or parks is counted in the launch that bears its tag (R89). -/
def Slot.member (t : Slot) : Bool := t.counted || t.upcall

/-! ### SEND -/

/-- A message leaves its sender: it is counted where asked, and is on its way with its room reserved (R154, R155); or it finds no
room, with nothing changed. -/
def State.deliver (s : State) (m : Msg) (count : Bool) : State × Bool :=
  match s.roomFor m with
  | (_, none) => (s, false)
  | (s', some r) =>
    let (s1, counted) := if count then s'.countOpen m.lease m.tag else (s', false)
    (s1.post { m with counted := counted, room := r }, true)

/-- The message of a slot (R42). -/
def State.msgOf (s : State) (c k type lease dest : Nat) (args : List Word) : Msg :=
  let t := s.slotAt c k
  { type := type, args := args, sender := slotSender s.node c k t, wid := t.wid, tag := t.tag, srcLease := t.lease, lease := lease,
    core := dest, counted := false, entry := none, gang := none, jdec := none, prio := 0, age := 0, aged := false,
    inc := (s.dieAt (dieOf c)).inc }

/-! ### Admission (R403) -/

/-- Whether a complete group lists two members. -/
def groupLists (g : Nat × Tab (Nat × Nat)) (a b : Nat × Nat) : Bool :=
  g.2.length == g.1 && g.2.any (fun m => m.2 == a) && g.2.any fun m => m.2 == b

/-- The local lease that a request of a task of lease `src` on a node is admitted to: the lowest that qualifies. -/
def State.admitted (s : State) (node src : Nat) : Option Nat :=
  (s.leases.find? fun l => match s.partAt l.2.part with
    | some p => p.groups.any fun g => groupLists g.2 (s.node, l.1) (node, src)
    | none => false).map (·.1)

/-- The acceptance of a message that came over the fabric is acknowledged (R310). -/
def State.accepted (s : State) (m : Msg) : State :=
  match m.origin with
  | some o => s.respond o 0
  | none => s

/-- What becomes of a message or JDEC admitted to a lease. -/
inductive Admit where
  | taken
  | noRoom
  | refused
deriving DecidableEq, Repr

/-- A message or JDEC performed for the lease it is admitted to, which is its destination lease whatever lease its core's schedule names
first (R43, R403; log entry 61). -/
def Msg.admittedTo (m : Msg) (l : Nat) : Msg := { m with lease := l, srcLease := l }
/-- Whether a message counts in a launch of its lease: a JDEC, and one of a handler type (R89). -/
def Msg.launched (m : Msg) : Bool := m.jdec.isSome || decide (m.type < 0xF0)
/-- Whether a message that counts in a launch finds no live launch with its tag in its lease (R89). -/
def State.stray (s : State) (m : Msg) : Bool := m.launched && (s.liveLaunch m.lease m.tag).isNone

/-- An admitted message or JDEC is on its way to its core, where it has room; what belongs to no live launch of its lease is dropped
(R89, and acknowledged; log entry 61); one for a core outside the lease's partition, or whose schedule names no lease, is refused (R43,
R154, R403). -/
def State.admitMsg (s : State) (l : Nat) (m : Msg) : State × Admit :=
  if (s.destLease l m.core).isNone then (s, .refused)
  else
    let m := m.admittedTo l
    if s.stray m then ((s.dropMsg m).accepted m, .taken)
    else match s.deliver m m.launched with
      | (s', true) => (s', .taken)
      | (_, false) => (s, .noRoom)

/-- A message of a lease that another device, or the admission of this one, refused: dropped and counted, with lease event 2 at the core
that sent it (R376, R400, R403). -/
def State.refusedMsg (s : State) (lease c type : Nat) (sender : Word) (tag : Nat) : State :=
  (s.countLease lease fun l => { l with dropped := l.dropped + 1 }).raiseEvent lease c
    [2, BitVec.ofNat 64 (type % 256), sender, BitVec.ofNat 64 tag] tag

/-- A message or JDEC of core `c` to this device's own node, named without LOCAL: admitted under R403 as another device's is, with no
way through the fabric (R401); false where it finds no room. -/
def State.sendOwn (s : State) (c : Nat) (m : Msg) : State × Bool :=
  match (s.admitted s.node m.srcLease).map fun l => s.admitMsg l m with
  | some (s', .taken) => (s', true)
  | some (_, .noRoom) => (s, false)
  | _ => (s.refusedMsg m.srcLease c m.type m.sender m.tag, true)

/-! ### The fabric -/

/-- The channel of a request by its kind (R308). -/
def fabChan (kind : Nat) : VirtChan := if kind = 0 then .request else .data

/-- A request leaves through the fabric, with its place in the order of its channel to its node (R308 to R310); one to this device's own
node stays in the package (R401). -/
def State.sendFabric (s : State) (r : FabReq) : State :=
  if r.there then { s with fabric := s.fabric ++ [{ r with id := s.fabNext }], fabNext := s.fabNext + 1 }
  else
    let vc := fabChan r.kind
    let key := 4 * (r.dest / 8192 % 524288) + vc.code
    let n := tabGet 0 s.fabSent key
    { s with fabric := s.fabric ++ [{ r with id := s.fabNext, vc := vc, seq := n }], fabNext := s.fabNext + 1,
             fabSent := tabPut s.fabSent key ((n + 1) % 65536) }

/-- The fabric port is asked whether it accepts a message now (R154; log entry 55). -/
def State.askPort (s : State) : State × Bool := ({ s with free := s.free + 1 }, Config.freeAccept s.free)

/-- A message or JDEC of a slot to another device, counted from its SEND (R89). `type` 256 is a JDEC. -/
def State.sendAway (s : State) (c k : Nat) (d : Word) (type : Nat) (data : List Word) : State :=
  let t := s.slotAt c k
  let (s, counted) := if t.member && (decide (type < 0xF0) || type == 256) then s.countOpen t.lease t.tag else (s, false)
  s.sendFabric { id := 0, core := c, slot := k, gen := t.gen, lease := t.lease, tag := t.tag, kind := 0, counted := counted,
                 dest := d.toNat, copyId := 0, d := 0, inc := (s.dieAt (dieOf c)).inc, type := type, data := data,
                 sender := awaySender (slotSender s.node c k t), wid := t.wid }

/-- Types that SEND refuses (R41, R154). -/
def sendRefused (t : Nat) : Bool := decide (0xF0 ≤ t) && t != 0xFE

/-- SEND, SENDC (R154): the status. A full queue is FULL for SENDC; SEND blocks, and this runs again (R98). -/
def sendM (instr : Instr) (waits : Bool) (a b : BitVec 5) : M Word := do
  let t ← curM
  let d := t.getX a
  let tw := t.getX b
  let type := (tw.extractLsb' 0 8).toNat
  let argc := (tw.extractLsb' 8 3).toNat
  let args := (List.range argc).map fun i => t.getX (BitVec.ofNat 5 (10 + i))
  let s ← getS
  if d >>> 32 != 0#64 || tw >>> 11 != 0#64 || 6 < argc then return 3#64
  else if sendRefused type then return 2#64
  else if type == 0xFE && argc != 4 then return 3#64
  else if s.localWord d then
    match s.destLease t.lease (wordCore d) with
    | none => return 4#64
    | some l =>
      let m := s.msgOf s.core s.slot type l (wordCore d) args
      match (if s.ownWord d then s.sendOwn s.core m else s.deliver m (t.member && l == t.lease && decide (type < 0xF0))) with
      | (s', true) =>
        modS fun _ => s'
        return 0#64
      | (_, false) => if waits then throw (.block (.on instr)) else return 1#64
  else if s.routed t.lease (wordNode d) then
    let (s', room) := s.askPort
    modS fun _ => s'
    if room then
      modS fun s => s.sendAway s.core s.slot d type args
      return 0#64
    else if waits then throw (.block (.on instr)) else return 1#64
  else return 5#64

/-- SEND, again when a blocked one completes. -/
def sendForm (d a b : BitVec 5) : M Flow := do
  let st ← sendM (.send d a b) true a b
  setXM d st
  return .seq

/-- SEND (R154). -/
def execSend (d a b : BitVec 5) (s : State) : Host.Outcome State Fault Refusal := runSlot (sendForm d a b) s
/-- SENDC (R154). -/
def execSendc (d a b : BitVec 5) (s : State) : Host.Outcome State Fault Refusal :=
  runSlot (do
    let st ← sendM (.sendc d a b) false a b
    setXM d st
    return .seq) s

/-! ### Tags (R159) -/

/-- The type of a tag form and its enable bit before; only the entry's own domain or the runtime may change it. Where the entry cannot be read
EntryDom has no value, and the rule says nothing: PRIV (DESIGN CHOICE; log entry 66). -/
def tagForm (d a : BitVec 5) (value : Bool) : M Flow := do
  let t ← curM
  let type := ((t.getX a).extractLsb' 0 8).toNat
  let l ← curL
  let old := l.enabled type
  if type < 0xF0 then
    if t.cls != 2 then
      let s ← getS
      let (s', e) := s.vtEntry s.core t.lease type
      modS fun _ => s'
      if (e.map (·.dom)) != some t.dom.toNat then faultM causePriv
    modL fun l => l.setEnabled type value
  setXM d (if old then 1#64 else 0#64)
  return .seq

/-- TAGEN (R159). -/
def execTagen (d a : BitVec 5) (s : State) : Host.Outcome State Fault Refusal := runSlot (tagForm d a true) s
/-- TAGDIS (R159). -/
def execTagdis (d a : BitVec 5) (s : State) : Host.Outcome State Fault Refusal := runSlot (tagForm d a false) s
/-- TAGPD (R159): the messages of a type in the core's inbound queues. -/
def execTagpd (d a : BitVec 5) (s : State) : Host.Outcome State Fault Refusal :=
  runSlot (do
    let t ← curM
    let type := ((t.getX a).extractLsb' 0 8).toNat
    let s ← getS
    let q := s.coreAt s.core
    let n := ((List.range 3).map fun cls => ((q.queue cls).filter fun m => m.type == type).length).sum
    setXM d (BitVec.ofNat 64 n)
    return .seq) s

/-! ### Joins (R326 to R329) -/

/-- First offset that no join word may have. -/
def joinTop : Nat := 0x3F800

/-- Fields of a join word. -/
def joinArg (j : Nat) : Nat := bitsOf j 63 42
def joinStuck (j : Nat) : Bool := j.testBit 41
def joinArmed (j : Nat) : Bool := j.testBit 40
def joinType (j : Nat) : Nat := bitsOf j 39 32
def joinCount (j : Nat) : Nat := bitsOf j 31 0

/-- A decrement applied to a join word of a lease on a core, with the tag it carries (R329). A poisoned join word is consumed, and the
decrement is not performed (R381). -/
def State.applyDec (s : State) (c lease off amount tag : Nat) : State :=
  let l := s.lcoreAt lease c
  let j := l.readSpad off 8
  if l.spadPoisoned off 8 then s.poisoned lease
  else if !joinArmed j then
    (s.setLCore lease c (l.countJoin true)).raiseEvent lease c [6, BitVec.ofNat 64 off, BitVec.ofNat 64 amount, 0] tag
  else if amount < joinCount j then s.setLCore lease c (l.writeSpad off (leBytes 8 (j - amount)))
  else
    let l := if joinCount j < amount then l.countJoin false else l
    let s := s.setLCore lease c (l.writeSpad off (leBytes 8 (j - joinCount j - 2 ^ 40)))
    s.pushRec c lease (codeletRec (joinType j) tag off (joinArg j))

/-- JARM (R327): 0 ARMED, 1 BUSY, 2 BADARG. -/
def execJarm (d a b : BitVec 5) (s : State) : Host.Outcome State Fault Refusal :=
  runSlot (do
    let t ← curM
    let ea := t.getX a
    let w := (t.getX b).toNat
    let off := ea.toNat - Config.localBase
    accessing { write := true, fetch := false } do
      if ea.extractLsb' 0 3 != 0#3 then addrFault causeAlign ea
      if !inLocal ea.toNat || decide (joinTop ≤ off) then addrFault causeSpad ea
      let p ← partyM
      checkRights p.core p.lease p.dom ea.toNat { write := true, fetch := false }
      checkOffset p ea off 8 true
    settleM
    let l ← curL
    let j := l.readSpad off 8
    let st ← if bitsOf w 41 40 != 0 || bitsOf w 31 0 == 0 || 0xF0 ≤ bitsOf w 39 32 then pure 2#64
      else if l.spadPoisoned off 8 then throw .poison
      else if joinArmed j || joinStuck j then pure 1#64
      else do
        modL fun l => l.writeSpad off (leBytes 8 (w + 2 ^ 40))
        if t.member then modS fun s => (s.countOpen t.lease t.tag).1
        pure 0#64
    setXM d st
    return .seq) s

/-- JDEC's status (R328); a callee may name only an offset inside its window (R366). -/
def jdecM (instr : Instr) (a b : BitVec 5) : M Word := do
  let t ← curM
  let d := t.getX a
  let w := (t.getX b).toNat
  let off := bitsOf w 17 0
  let amount := bitsOf w 63 32
  let s ← getS
  if d >>> 32 != 0#64 || bitsOf w 31 18 != 0 || amount == 0 || off % 8 != 0 || joinTop ≤ off then return 3#64
  else
    match t.window with
    | some (base, size) => if off < base || base + size < off + 8 then addrFault causeSpad (BitVec.ofNat 64 (Config.localBase + off))
    | none => pure ()
    if s.localWord d then
      match s.destLease t.lease (wordCore d) with
      | none => return 4#64
      | some l =>
        if wordCore d = s.core then
          settleM
          let s ← getS
          if (s.lcoreAt l s.core).spadPoisoned off 8 then throw .poison
          modS fun s => s.applyDec s.core l off amount t.tag
          return 0#64
        else
          let m := { s.msgOf s.core s.slot 0 l (wordCore d) [] with jdec := some (off, amount) }
          match (if s.ownWord d then s.sendOwn s.core m else s.deliver m (t.member && l == t.lease)) with
          | (s', true) =>
            modS fun _ => s'
            return 0#64
          | (_, false) => throw (.block (.on instr))
    else if s.routed t.lease (wordNode d) then
      let (s', room) := s.askPort
      modS fun _ => s'
      if room then
        modS fun s => s.sendAway s.core s.slot d 256 [BitVec.ofNat 64 off, BitVec.ofNat 64 amount]
        return 0#64
      else throw (.block (.on instr))
    else return 5#64

/-- JDEC, again when a blocked one completes. -/
def jdecForm (d a b : BitVec 5) : M Flow := do
  let st ← jdecM (.jdec d a b) a b
  setXM d st
  return .seq

/-- JDEC (R328). -/
def execJdec (d a b : BitVec 5) (s : State) : Host.Outcome State Fault Refusal := runSlot (jdecForm d a b) s

/-! ### LNCH (R94) -/

/-- The distributor's decision on a header from LNCH, steps 1 to 4 of R80: the result of LNCH (R94). -/
def State.decideLaunch (s : State) (lease : Nat) (h : List Byte) (dva : Nat) : State × Nat :=
  match s.judgeHeader lease h with
  | (s', 0) =>
    (match s'.openLaunch lease none h dva with
     | some (s'', tag) => (s'', tag * 256)
     | none => (s'.refuseHeader lease none h 4, 4))
  | (s', st) => (s'.refuseHeader lease none h st, st)

/-- A blocked LNCH completes once the distributor has decided (R94, R98). -/
def launchedM (d : BitVec 5) (h : List Byte) (dva : Nat) : M Flow := do
  let t ← curM
  let s ← getS
  let r := s.decideLaunch t.lease h dva
  modS fun _ => r.1
  setXM d (BitVec.ofNat 64 r.2)
  return .seq

/-- LNCH (R94): the header is read, and the slot is BLOCKED until the distributor has decided. -/
def execLnch (d a : BitVec 5) (s : State) : Host.Outcome State Fault Refusal :=
  runSlot (do
    let t ← curM
    let ea := t.getX a
    if ea.extractLsb' 0 6 != 0#6 then addrFault causeAlign ea
    let pl ← accessM ea 64 false
    let s ← getS
    let h ← loadM s.core s.slot pl 64
    throw (.block (.launch d h ea.toNat))) s

/-! ### WAITA and WAKE -/

/-- The place of a word that WAITA and WAKE may watch (R322). -/
def watchWord (ea : Word) (write : Bool) : M (Nat × Xlat) := accessing { write := write, fetch := false } do
  let pl ← accessM ea 8 write
  match pl with
  | .spad _ => addrFault causeWkind ea
  | .mem dva x =>
    if hasFe (x.paOf dva) && (x.kind == 0 || x.kind == 1 || x.kind == 4) then return (dva, x) else addrFault causeWkind ea

/-- WAITA (R322): the compare and the record are one step at home; a park ends the task. -/
def execWaita (d a b : BitVec 5) (s : State) : Host.Outcome State Fault Refusal :=
  runSlot (do
    let t ← curM
    if t.frames.length != 0 then throw .illop
    if 0xF0 ≤ t.ctype.toNat then faultM causeDesc
    let (dva, x) ← watchWord (t.getX a) false
    goHome dva x true
    let pa := x.paOf dva
    let bs ← readHome x pa 8
    let v := BitVec.ofNat 64 (leNat bs)
    if v = t.getX b then
      modS fun s =>
        let (s, counted) := if t.member then s.countOpen t.lease t.tag else (s, false)
        s.recordWait (homeOf pa)
          { isLdf := false, pa := pa, lease := t.lease, tag := t.tag, type := t.ctype.toNat, sid := 0, core := s.core,
            arg0 := t.getX 10#5, arg1 := t.getX 11#5, wid := t.wid, counted := counted, d := 0, n := 0, dva := dva, inc := 0 }
      endM
    else
      setXM d v
      return .seq) s

/-- WAKE at the home of a line: its WAITA entries send their continuations, its LDF entries answer "retry" (R318, R323). -/
def State.wakeAll (s : State) (pa : Nat) : State :=
  let s := s.wakeLine pa
  let v := s.homeAt (homeOf pa)
  let hit := fun (w : WaitEntry) => w.isLdf && w.pa / 64 == pa / 64
  let note := fun (w : WaitEntry) =>
    ({ who := w.asker,
       val := 0, ab := false, acq := false, retry := true } : Notice)
  ({ s.setHome (homeOf pa) { v with waits := v.waits.filter fun w => !hit w } with
      notices := s.notices ++ ((v.waits.filter hit).filter fun w => !w.poison).map note } : State).consumed (badWaits (v.waits.filter hit))

/-- WAKE (R323). -/
def execWake (d a : BitVec 5) (s : State) : Host.Outcome State Fault Refusal :=
  runSlot (do
    let t ← curM
    let (dva, x) ← watchWord (t.getX a) true
    drainM
    let pa := x.paOf dva
    let s ← getS
    let n := ((s.homeAt (homeOf pa)).waits.filter fun w => !w.isLdf && w.pa / 64 == pa / 64).length
    modS fun s => s.wakeAll pa
    setXM d (BitVec.ofNat 64 n)
    return .seq) s

end Sys2Proof.Machine
end

