-- ==== Sys2Proof/Machine/Gathers.lean ====
section
/-! DEFINITION. The gather forms at issue (R261 to R268, R271, R272, R278); the engine's decisions are in HomeOps.lean. -/

namespace Sys2Proof.Machine

/-! ### Charges (R68) -/

/-- Credits charged to an account, on their way to it, and the clk since the oldest of them (R69). -/
def State.charge (s : State) (account n : Nat) : State :=
  if n = 0 then s
  else { s with pending := tabPut s.pending account (tabGet 0 s.pending account + n),
                pendAge := if (tabFind s.pendAge account).isSome then s.pendAge else tabPut s.pendAge account 0 }

/-! ### Where a gather may stand (R261, R262) -/

/-- Kinds and windows of a page that may hold a gather. -/
def gatherPage (x : Xlat) : Bool := (x.kind == 0 || x.kind == 4) && decide (windowOf x.pa ≤ 8)

/-- The address checks of a header (R143, R261); the fabric aperture where the form takes it. -/
def checkHeader (ea : Word) (aperture : Bool) : M Unit := do
  let a := ea.toNat
  if a % 64 != 0 then addrFault causeAlign ea
  if 2 ^ 48 ≤ a then addrFault causeDaddr ea
  if 2 ^ 47 ≤ a && !aperture then addrFault causeAper ea
  if inLocal a then addrFault causeGspan ea

/-- The translation of one page of a span, its rights checked before. -/
def gatherXlat (ea dva : Nat) (write : Bool) : M Xlat := do
  let p ← partyM
  let x ← translateHeld p dva { write := write, fetch := false }
  if gatherPage x then return x else addrFault causeGspan (BitVec.ofNat 64 ea)

/-- The header's translation in the forms other than GINIT (R262): its physical address. -/
def gatherPlace (ea : Word) (write : Bool) : M Nat := accessing { write := write, fetch := false } do
  settleM
  checkHeader ea false
  let p ← partyM
  checkRights p.core p.lease p.dom ea.toNat { write := write, fetch := false }
  let x ← gatherXlat ea.toNat ea.toNat write
  return x.paOf ea.toNat

/-- First bytes of the pages of a span of n bytes. -/
def spanPages (a n : Nat) : List Nat :=
  (List.range ((a + n - 1) / 4096 - a / 4096 + 1)).map fun i => (a / 4096 + i) * 4096

/-- The segments of a span each need W. -/
def spanRights (a : Nat) : List Nat → M Unit
  | [] => return ()
  | pg :: rest => do
    let p ← partyM
    checkRights p.core p.lease p.dom (max a pg) { write := true, fetch := false }
    spanRights a rest

/-- The physical addresses of the pages of a span, translated in order. -/
def spanXlats (a : Nat) : List Nat → M (List Nat)
  | [] => return []
  | pg :: rest => do
    if inLocal pg then addrFault causeGspan (BitVec.ofNat 64 a)
    let x ← gatherXlat a (max a pg) true
    let xs ← spanXlats a rest
    return x.paOf pg :: xs

/-- Whether the pages of a span, by their physical addresses, stand as R261 asks: all in one local window in a row, or one page of window 0. -/
def spanOk (xs : List Nat) : Bool :=
  match xs with
  | [] => false
  | x :: rest =>
    if windowOf x = 0 then rest.isEmpty
    else (List.range xs.length).all fun i => match xs[i]? with
      | some y => y == x + 4096 * i
      | none => false

/-- GINIT's span under R261: the header's physical address. -/
def ginitPlace (ea : Word) (shape : Nat) : M Nat := do
  settleM
  checkHeader ea false
  let a := ea.toNat
  let pages := spanPages a (64 + 8 * gDataWords shape)
  if pages.any fun pg => decide (2 ^ 47 ≤ pg) then addrFault causeGspan ea
  spanRights a pages
  let xs ← spanXlats a pages
  if !spanOk xs then addrFault causeGspan ea
  return xs.headD 0 + a % 4096

/-! ### Sending (R265) -/

/-- The request goes to the gather's home and the slot is BLOCKED until the answer. -/
def gatherSend (d : BitVec 5) (pa : Nat) (op : GatherOp) : M Flow := do
  let who ← askerM d
  requestM pa (.gather who pa op)
  throw (.block (.answer d))

/-- The release of R265 at pkg scope. -/
def gatherRelease : M Unit := do
  drainM
  releaseM 2

/-- GINIT (R265, R266). A header address that fails R143 faults before the shape word is looked at: R266 answers SHAPE with no fault, and gives
no order of the two (DESIGN CHOICE; log entry 69). -/
def execGinit (d a b : BitVec 5) (s : State) : Host.Outcome State Fault Refusal :=
  runSlot (do
    let t ← curM
    checkHeader (t.getX a) false
    let w := (t.getX b).toNat
    if w >>> 38 != 0 || 1 < gFmt w || gK w == 0 || 31 < w % 64 then
      setXM d 5#64
      return .seq
    else
      let pa ← ginitPlace (t.getX a) w
      gatherSend d pa (.init w)) s

/-- The captured tile of GADD: rows 0 to 31, columns 0 to 63, in row order. -/
def captureTile (vis : Bool) (tl : Nat) (l : LCore) : List Lane :=
  (List.range 2048).map fun i => l.elem vis tl (i / 64) (i % 64)

/-- The header of an admitted contribution, translated in its lease with the rights of domain 0 (R278). -/
def remoteHeader (c l dva : Nat) : M Nat := accessing { write := true, fetch := false } do
  let ea := BitVec.ofNat 64 dva
  checkHeader ea false
  checkRights c l 0 dva { write := true, fetch := false }
  let x ← translate (dieOf c) l dva { write := true, fetch := false }
  if gatherPage x then return x.paOf dva else addrFault causeGspan ea

/-- An admitted contribution joins the requests of its header's home; a failure answers STATE and is lease event 8 (R278, R376). -/
def State.admitGather (s : State) (l : Nat) (o : Origin) (dva : Nat) (op : GatherOp) : State :=
  match remoteHeader (s.distCore l) l dva s with
  | .ok pa s' => s'.enqueueReq (homeOf pa) (.remoteGather o l pa op)
  | .error .poison s' => (s'.poisoned l).respond o 6
  | .error (.fault f) s' =>
    (s'.leaseEvent l [8, BitVec.ofNat 64 dva, BitVec.ofNat 64 f.cause, BitVec.ofNat 64 o.node]).respond o 4
  | .error _ s' => s'.respond o 4

/-- The contribution of a slot to a node: it leaves through the fabric, or, to this device's own node, is admitted at once (R401, R403);
where it finds no lease it is refused, which answers LEASE (R400). -/
def State.contributeAt (s : State) (r : FabReq) (node dva : Nat) (op : GatherOp) : State :=
  let own := node == s.node
  let s' := s.sendFabric { r with there := own }
  if own then
    match s.admitted node r.lease with
    | some l => s'.admitGather l { node := node, id := s.fabNext, inc := r.inc } dva op
    | none => s'.answerOwn s.fabNext 6
  else s'

/-- A contribution of GADD through the fabric aperture (R169, R278): a release at sys scope, then the request leaves. -/
def gaddAway (d : BitVec 5) (ea : Word) (a b c0 : Nat) (tile : M (List Lane)) : M Flow := do
  let t ← curM
  let s ← getS
  match tabFind (s.leaseD t.lease).apertures (bitsOf ea.toNat 46 40) with
  | some (true, node, base) =>
    drainM
    releaseM 3
    let data ← tile
    let dva := base + bitsOf ea.toNat 39 0
    modS fun s => (s.charge t.account (2 * (64 - c0))).contributeAt
      { id := 0, core := s.core, slot := s.slot, gen := t.gen, lease := t.lease, tag := t.tag, kind := 1, counted := false,
        dest := node * 8192, copyId := 0, d := d, inc := (s.dieAt (dieOf s.core)).inc, type := 0, unwound := t.unwound,
        data := [BitVec.ofNat 64 dva, BitVec.ofNat 64 a, BitVec.ofNat 64 b, BitVec.ofNat 64 c0] ++ data.map fun x => x.zeroExtend 64 }
      node dva (.contribute true a b c0 data)
    throw (.block (.answer d))
  | _ => addrFault causeAper ea

/-- GADD (R265, R267, R278). MOPND is taken after the address checks of R143 and before rights, translation and the aperture entry: R265 and R267
give no order (DESIGN CHOICE; log entry 68). -/
def execGadd (d a b : BitVec 5) (s : State) : Host.Outcome State Fault Refusal :=
  runSlot (do
    let t ← curM
    let ea := t.getX a
    let w := (t.getX b).toNat
    let tl := w % 8
    let vis := w.testBit 3
    let lo := bitsOf w 28 5
    let hi := bitsOf w 52 29
    let c0 := bitsOf w 58 53
    checkHeader ea true
    if w >>> 59 != 0 || w.testBit 4 then faultM causeMopnd
    let tile : M (List Lane) := do
      vecDoneM
      if !vis then modS fun s => s.finishTile s.cur.lease s.core tl s.passFuel
      let l ← curL
      if l.accPoison.any fun k => k / 2048 == tl + (if vis then 8 else 0) && decide (c0 ≤ k % 64) then throw .poison
      return captureTile vis tl l
    if 2 ^ 47 ≤ ea.toNat then
      settleM
      gaddAway d ea lo hi c0 tile
    else
      let pa ← gatherPlace ea true
      gatherRelease
      let data ← tile
      modS fun s => s.charge t.account (2 * (64 - c0))
      gatherSend d pa (.contribute true lo hi c0 data)) s

/-- GADDV (R265, R268). MOPND is taken after the address checks of R143 and before rights and translation: R265 and R268 give no order (DESIGN
CHOICE; log entry 69). -/
def execGaddv (d a b : BitVec 5) (s : State) : Host.Outcome State Fault Refusal :=
  runSlot (do
    needVec
    let t ← curM
    let ea := t.getX a
    let w := (t.getX b).toNat
    checkHeader ea false
    if w >>> 53 != 0 then faultM causeMopnd
    let pa ← gatherPlace ea true
    gatherRelease
    vecDoneM
    let u ← curM
    modS fun s => s.charge t.account 1
    gatherSend d pa (.contribute false (bitsOf w 28 5) (bitsOf w 52 29) 0 ((List.range 16).map (laneOf (u.getV (w % 32)))))) s

/-- GABAND (R265, R271). -/
def execGaband (d a : BitVec 5) (s : State) : Host.Outcome State Fault Refusal :=
  runSlot (do
    let t ← curM
    let pa ← gatherPlace (t.getX a) true
    gatherRelease
    gatherSend d pa .abandon) s

/-- GSTAT (R272). -/
def execGstat (d a : BitVec 5) (s : State) : Host.Outcome State Fault Refusal :=
  runSlot (do
    let t ← curM
    let pa ← gatherPlace (t.getX a) false
    gatherSend d pa .stat) s

/-- GREC (R272): a selector with a reserved bit set, or above 8, is answered without the engine. -/
def execGrec (d a b : BitVec 5) (s : State) : Host.Outcome State Fault Refusal :=
  runSlot (do
    let t ← curM
    let pa ← gatherPlace (t.getX a) false
    gatherSend d pa (.record (min (t.getX b).toNat 9))) s

end Sys2Proof.Machine
end

