-- ==== Sys2Proof/Machine/Copy.lean ====
section
/-! DEFINITION. The copy engine and the collective engine (R160 to R166, R291, R373, R402, R404): the copy forms, their
moves, completions and faults. -/

namespace Sys2Proof.Machine

/-! ### Descriptors (R160, R166) -/

def dNat (d : List Byte) (i n : Nat) : Nat := leNat ((d.drop i).take n)
def dWord (d : List Byte) (i : Nat) : Word := BitVec.ofNat 64 (dNat d i 8)
def cSrc (d : List Byte) : Word := dWord d 0
def cDst (d : List Byte) : Word := dWord d 8
def cLen (d : List Byte) : Nat := dNat d 16 4
def cRows (d : List Byte) : Nat := dNat d 20 2
def cMode (d : List Byte) : Nat := dNat d 22 1
def cType (d : List Byte) : Nat := dNat d 23 1
def cSstride (d : List Byte) : Word := dWord d 24
def cDstride (d : List Byte) : Word := dWord d 32
def cPeer (d : List Byte) : Word := dWord d 40
def cTarget (d : List Byte) : Word := dWord d 48
def cToken (d : List Byte) : Word := dWord d 56

/-- Fields of a collective descriptor (R166). -/
def kOp (d : List Byte) : Nat := dNat d 0 1
def kFmt (d : List Byte) : Nat := dNat d 1 1
def kRoot (d : List Byte) : Nat := dNat d 2 2
def kGroup (d : List Byte) : Nat := dNat d 4 4
def kSrc (d : List Byte) : Word := dWord d 8
def kDst (d : List Byte) : Word := dWord d 16
def kCount (d : List Byte) : Nat := dNat d 24 8
def kMode (d : List Byte) : Nat := dNat d 32 1
def kType (d : List Byte) : Nat := dNat d 33 1
def kElem (d : List Byte) : Nat := if kFmt d = 1 then 2 else 4

/-- Completion fields that agree with a mode (R160). -/
def completionOk (mode type : Nat) (target token : Word) : Bool :=
  (if mode = 2 then decide (type < 0xF0) && target >>> 32 == 0#64 else type == 0) &&
  (if mode = 1 then target >>> 3 == 0#64 else true) &&
  (if mode = 0 ∨ mode = 3 then target == 0#64 && token == 0#64 else true)

def isLocal (a : Word) : Bool := inLocal a.toNat

/-- Whether rows of a descriptor stay on the side of the window's edge that their base is on, and inside the window below
the protected offsets and inside a callee's window (R162, R366). -/
def rowsOk (win : Option (Nat × Nat)) (base stride : Word) (len rows : Nat) : Bool :=
  (List.range rows).all fun r =>
    let a := (base + BitVec.ofNat 64 r * stride).toNat
    if isLocal base then
      let off := a - Config.localBase
      inLocal a && decide (off + len ≤ Config.protectedOff) &&
        (match win with
         | some (b, n) => decide (b ≤ off) && decide (off + len ≤ b + n)
         | none => true)
    else decide (a + len ≤ Config.localBase) || (decide (2 ^ 47 ≤ a) && decide (a + len ≤ 2 ^ 64))

/-- A PEER that a copy may name: the issuing core, a core of this device, or one of a routed node (R162). -/
def State.peerOk (s : State) (lease : Nat) (p : Word) : Bool :=
  p == 0#64 || (p >>> 32 == 0#64 && (s.localWord p || s.routed lease (wordNode p)))
/-- Whether a PEER names a core other than the issuing one. -/
def State.peerAway (s : State) (c : Nat) (p : Word) : Bool := p != 0#64 && !(s.localWord p && wordCore p == c)

/-- The four copy forms. -/
inductive CopyKind where
  | read
  | write
  | move
  | fill
deriving DecidableEq, Repr

/-- The descriptor requirements of a form (R161). -/
def kindOk (k : CopyKind) (d : List Byte) : Bool :=
  match k with
  | .read => !isLocal (cSrc d) && isLocal (cDst d) && cPeer d == 0#64
  | .write => isLocal (cSrc d) && (!isLocal (cDst d) || cPeer d != 0#64)
  | .move => true
  | .fill => cSrc d == 0#64 && cSstride d == 0#64

/-- Multiples of 8 that fills ask for (R161, R162). -/
def eights (d : List Byte) : Bool := (cDst d).toNat % 8 == 0 && cLen d % 8 == 0 && (cDstride d).toNat % 8 == 0

/-- The check of step 3 of R162. -/
def State.descOk (s : State) (c lease : Nat) (win : Option (Nat × Nat)) (k : CopyKind) (d : List Byte) : Bool :=
  let len := cLen d
  let rows := cRows d
  len != 0 && rows != 0 && decide (len * rows ≤ 2 ^ 32) && decide (cMode d < 4) &&
  completionOk (cMode d) (cType d) (cTarget d) (cToken d) && s.peerOk lease (cPeer d) && kindOk k d &&
  (if k == .fill || cMode d == 3 then eights d else true) &&
  (if isLocal (cDst d) && s.peerAway c (cPeer d) then cMode d == 2 && cTarget d == cPeer d else true) &&
  (k == .fill || rowsOk win (cSrc d) (cSstride d) len rows) && rowsOk win (cDst d) (cDstride d) len rows

/-- A complete group of the lease's partition that lists a member, and the member's rank (R402). -/
def groupRank (g : Nat × Tab (Nat × Nat)) (node lease : Nat) : Option Nat :=
  if g.2.length = g.1 then (g.2.find? fun m => m.2 == (node, lease)).map (·.1) else none
def State.groupOf (s : State) (lease n : Nat) : Option (Nat × Tab (Nat × Nat)) :=
  (s.partAt (s.leaseD lease).part).bind fun p => tabFind p.groups n

/-- Elements at SRC and DST of a rank (R166; log entry 21). -/
def kSrcCount (d : List Byte) : Nat := kCount d
def kChunk (d : List Byte) (ranks : Nat) : Nat := (kCount d + ranks - 1) / ranks
def kDstCount (d : List Byte) (ranks : Nat) : Nat :=
  match kOp d with
  | 1 => kChunk d ranks
  | 2 => kCount d * ranks
  | _ => kCount d

/-- The check of a collective descriptor (R162, R166, R402). -/
def State.collOk (s : State) (lease : Nat) (win : Option (Nat × Nat)) (d : List Byte) : Bool :=
  match s.groupOf lease (kGroup d) with
  | none => false
  | some g =>
    (groupRank g s.node lease).isSome && decide (kOp d < 4) && decide (kFmt d < 3) &&
    (if kOp d = 3 then decide (kRoot d < g.1) else kRoot d == 0) && kCount d != 0 && decide (kCount d < 2 ^ 32) &&
    (kMode d == 1 || kMode d == 2) && completionOk (kMode d) (kType d) (cTarget d) (cToken d) &&
    (d.drop 34).take 14 == List.replicate 14 0#8 &&
    rowsOk win (kSrc d) 0 (kSrcCount d * kElem d) 1 && rowsOk win (kDst d) 0 (kDstCount d g.1 * kElem d) 1

/-! ### Issue (R162) -/

/-- The n-th copy ID of a lease on a core: they wrap modulo 2^32 and skip 0. -/
def copyIdOf (n : Nat) : Nat := (n - 1) % (2 ^ 32 - 1) + 1
/-- Statuses kept: those of the latest 65 IDs. -/
def keepStatus (n : Nat) (t : Tab Nat) : Tab Nat := if n ≤ 65 then t else tabDel t (copyIdOf (n - 65))

/-- The descriptor at an address: its checks, and its bytes read in one step (R162). -/
def readDesc (ea : Word) : M (List Byte) := do
  if ea.extractLsb' 0 6 != 0#6 then addrFault causeAlign ea
  if !isLocal ea then addrFault causeSpad ea
  let s ← getS
  if Config.engineQueue ≤ (s.coreAt s.core).copyq.length then throw .stall
  let pl ← accessM ea 64 false
  loadM s.core s.slot pl 64

/-- Accept a command: its ID, its queue entry, its charge, x[rd] (R162, R68). -/
def acceptCopy (d : BitVec 5) (desc : List Byte) (fill : Option Word) (coll : Bool) (bytes : Nat) : M Flow := do
  let t ← curM
  let l ← curL
  let n := l.copyId + 1
  let id := copyIdOf n
  modL fun l => { l with copyId := n, copySt := tabPut (keepStatus n l.copySt) id 0 }
  modS fun s =>
    let q := s.coreAt s.core
    let cmd : CopyCmd := { id := id, slot := s.slot, gen := t.gen, lease := t.lease, tag := t.tag, account := t.account, dom := t.dom,
                           depth := t.queueDepth, wid := t.wid, epoch := t.epoch, member := t.member, fillPat := fill, coll := coll,
                           n := if coll then tabGet 0 (s.leaseD t.lease).collN (kGroup desc) + 1 else 0, desc := desc,
                           active := false, done := 0, window := t.window }
    let s := (s.setCore s.core { q with copyq := q.copyq ++ [cmd] }).charge t.account ((bytes + 63) / 64)
    if coll then s.countLease t.lease fun v => { v with collN := tabPut v.collN (kGroup desc) cmd.n } else s
  setXM d (BitVec.ofNat 64 id)
  return .seq

/-- A copy form (R162). -/
def copyForm (k : CopyKind) (d a : BitVec 5) (fill : Option (BitVec 5)) : M Flow := do
  let t ← curM
  let desc ← readDesc (t.getX a)
  let s ← getS
  if !s.descOk s.core t.lease t.window k desc then addrFault causeDesc (t.getX a)
  acceptCopy d desc (fill.map t.getX) false (cLen desc * cRows desc)

/-- CRD (R161, R162). -/
def execCrd (d a : BitVec 5) (s : State) : Host.Outcome State Fault Refusal := runSlot (copyForm .read d a none) s
/-- CWR (R161, R162). -/
def execCwr (d a : BitVec 5) (s : State) : Host.Outcome State Fault Refusal := runSlot (copyForm .write d a none) s
/-- CMOV (R161, R162). -/
def execCmov (d a : BitVec 5) (s : State) : Host.Outcome State Fault Refusal := runSlot (copyForm .move d a none) s
/-- CFILL (R161, R162). -/
def execCfill (d a b : BitVec 5) (s : State) : Host.Outcome State Fault Refusal := runSlot (copyForm .fill d a (some b)) s

/-- COLL (R166, R402). -/
def execColl (d a : BitVec 5) (s : State) : Host.Outcome State Fault Refusal :=
  runSlot (do
    let t ← curM
    let desc ← readDesc (t.getX a)
    let s ← getS
    if !s.collOk t.lease t.window desc then addrFault causeDesc (t.getX a)
    acceptCopy d desc none true (kCount desc * kElem desc)) s

/-! ### Statuses (R165) -/

/-- The status of a copy ID: 4 where it was never given out, 3 where it is more than 64 behind the latest, or where the reset of the lease
has dropped its command (log entry 57). -/
def LCore.copyStatus (l : LCore) (i : Nat) : Nat :=
  let behind := (copyIdOf l.copyId + (2 ^ 32 - 1) - i) % (2 ^ 32 - 1)
  if i = 0 ∨ l.copyId ≤ behind then 4
  else if 64 < behind then 3
  else tabGet 3 l.copySt i

/-- CWAIT, again when a blocked one completes (R165). -/
def cwaitM (d a : BitVec 5) : M Flow := do
  let t ← curM
  let l ← curL
  let st := l.copyStatus ((t.getX a).toNat % 2 ^ 32)
  if st = 0 then throw (.block (.on (.cwait d a)))
  setXM d (BitVec.ofNat 64 st)
  return .seq

/-- CWAIT (R165). -/
def execCwait (d a : BitVec 5) (s : State) : Host.Outcome State Fault Refusal := runSlot (cwaitM d a) s
/-- CSTAT (R165). -/
def execCstat (d a : BitVec 5) (s : State) : Host.Outcome State Fault Refusal :=
  runSlot (do
    let t ← curM
    let l ← curL
    setXM d (BitVec.ofNat 64 (l.copyStatus ((t.getX a).toNat % 2 ^ 32)))
    return .seq) s

/-! ### Accesses of the engines (R163, R291) -/

def CopyCmd.party (q : CopyCmd) (c : Nat) : Party := { core := c, lease := q.lease, dom := q.dom.toNat, win := q.window, slot := none }

/-- The place of an engine's access: never a remote copy (R291). -/
def engPlace (p : Party) (ea : Word) (write : Bool) : M Place := accessing { write := write, fetch := false } do
  let a := ea.toNat
  let acc : Acc := { write := write, fetch := false }
  if 2 ^ 48 ≤ a then addrFault causeDaddr ea
  if inLocal a then
    checkOffset p ea (a - Config.localBase) 1 write
    checkRights p.core p.lease p.dom a acc
    return .spad (a - Config.localBase)
  else
    checkRights p.core p.lease p.dom a acc
    let x ← translate (dieOf p.core) p.lease a acc
    return .mem a x

/-- An aperture entry in use (R169): node and remote DVA. -/
def aperturePlace (lease : Nat) (ea : Word) : M (Nat × Nat) := do
  let a := ea.toNat
  if 2 ^ 48 ≤ a then addrFault causeDaddr ea
  let s ← getS
  match tabFind (s.leaseD lease).apertures (bitsOf a 46 40) with
  | some (true, node, base) => return (node, base + bitsOf a 39 0)
  | _ => addrFault causeAper ea

def inAperture (a : Word) : Bool := decide (2 ^ 47 ≤ a.toNat)

/-- Bytes left in the 64-byte line of an address. -/
def lineLeft (a : Word) : Nat := 64 - a.toNat % 64

/-- Read bytes that lie in at most a few lines; poison is consumed (R381). -/
def engRead (p : Party) : Nat → Word → Nat → M (List Byte)
  | 0, _, _ => return []
  | f + 1, a, n => do
    if n = 0 then return []
    let k := min n (lineLeft a)
    let pl ← engPlace p a false
    let s ← getS
    let bs ← match pl with
      | .spad off => do
        let l := s.lcoreAt p.lease p.core
        if l.spadPoisoned off k then throw .poison
        pure (l.spadBytes off k)
      | .mem dva x => readHome x (x.paOf dva) k
    let rest ← engRead p f (a + BitVec.ofNat 64 k) (n - k)
    return bs ++ rest

/-- Write bytes of one line of memory as a command's slot: a persistent store makes a record (R351, R357); in fill mode the
word is set FULL (R142, R163). -/
def engStore (q : CopyCmd) (c : Nat) (ea : Word) (dva : Nat) (x : Xlat) (fill : Bool) (bytes : List Byte) : M Unit :=
  accessing { write := true, fetch := false } do
  let pa := x.paOf dva
  if fill && (!hasFe pa || x.kind == 2 || x.kind == 5) then addrFault causeFekind ea
  modS fun s =>
    let s := s.storeHome x pa bytes
    let s := if fill then s.setFe pa 1 else s
    if x.kind = 3 then s.record c q.slot q.gen q.epoch pa bytes else s

/-- Copy bytes for another device: 0 for a DVA there, 2 in fill mode, 1 for a scratchpad offset of core `dest` (R403); `ea` is their address in
the command's own lease. -/
def CopyCmd.request (q : CopyCmd) (c : Nat) (s : State) (dest type : Nat) (ea at_ : Word) (bytes : List Byte) : FabReq :=
  { id := 0, addr := ea, core := c, slot := q.slot, gen := q.gen, lease := q.lease, tag := q.tag, kind := 2, counted := false, dest := dest,
    copyId := q.id, d := 0, inc := (s.dieAt (dieOf c)).inc, type := type, data := at_ :: bytes.map fun b => b.zeroExtend 64 }

/-- The core on whose behalf another device's copy writes here: none of the package's, for its persist records (log entry 46). -/
def CopyCmd.foreign (l : Nat) : CopyCmd :=
  { id := 0, slot := 0, gen := 0, lease := l, tag := 0, account := 0, dom := 0, depth := 0, wid := 0, epoch := 0, member := false,
    fillPat := none, coll := false, n := 0, desc := [], active := true, done := 0, window := none }

/-- Copy bytes admitted to a lease: each line is performed at its home with the rights of domain 0, with FULL in fill mode, as a command's
store (R164, R310, R351, R403). -/
def admitBytesM (q : CopyCmd) (c l : Nat) (fill : Bool) : Nat → Nat → List Byte → M Unit
  | 0, _, _ => return ()
  | n + 1, dva, bytes =>
    if bytes.isEmpty then return ()
    else do
      let ea := BitVec.ofNat 64 dva
      let k := min (64 - dva % 64) (if fill then 8 else bytes.length)
      let x ← accessing { write := true, fetch := false } do
        if 2 ^ 47 ≤ dva || inLocal dva then addrFault causeAper ea
        let s ← getS
        checkRights (s.distCore l) l 0 dva { write := true, fetch := false }
        if fill && dva % 8 != 0 then addrFault causeFekind ea
        translate (dieOf (s.distCore l)) l dva { write := true, fetch := false }
      engStore q c ea dva x fill (bytes.take k)
      admitBytesM q c l fill n (dva + k) (bytes.drop k)

/-- Bytes that a copy reads at a DVA of the lease it is admitted to (R163, R403); poison is consumed (R381). -/
def admitReadM (l : Nat) : Nat → Nat → Nat → M (List Byte)
  | 0, _, _ => return []
  | f + 1, dva, n =>
    if n = 0 then return []
    else do
      let ea := BitVec.ofNat 64 dva
      let k := min (64 - dva % 64) n
      let x ← accessing { write := false, fetch := false } do
        if 2 ^ 47 ≤ dva || inLocal dva then addrFault causeAper ea
        let s ← getS
        checkRights (s.distCore l) l 0 dva { write := false, fetch := false }
        translate (dieOf (s.distCore l)) l dva { write := false, fetch := false }
      let bs ← readHome x (x.paOf dva) k
      let rest ← admitReadM l f (dva + k) (n - k)
      return bs ++ rest

/-- Why admitted bytes for a scratchpad are not written: the lease does not hold the core, or they pass the protected offsets (R403). -/
def State.peerCause (s : State) (l c off n : Nat) : Option Nat :=
  if s.holderOf c != some l then some causePeerq else if Config.protectedOff < off + n then some causeAper else none

/-- The lease that a command's own traffic to this device's own node is admitted to; where there is none it is refused (R400, R401). -/
def CopyCmd.ownLease (q : CopyCmd) (ea : Word) : M Nat := do
  let s ← getS
  match s.admitted s.node q.lease with
  | some l => return l
  | none => addrFault causeAper ea

/-- Write bytes of one line at a destination address (R163). -/
def engWrite (q : CopyCmd) (c : Nat) (ea : Word) (peer : Word) (fill : Bool) (bytes : List Byte) : M Unit :=
  accessing { write := true, fetch := false } do
    let p := q.party c
    if inAperture ea then
      let (node, dva) ← aperturePlace q.lease ea
      let s ← getS
      if node = s.node then
        let l ← q.ownLease ea
        admitBytesM q c l fill (bytes.length + 1) dva bytes
      else modS fun s => s.sendFabric (q.request c s (node * 8192) (if fill then 2 else 0) ea (BitVec.ofNat 64 dva) bytes)
    else
      let pl ← engPlace p ea true
      match pl with
      | .mem dva x => engStore q c ea dva x fill bytes
      | .spad off =>
        if fill then addrFault causeFekind ea
        let s ← getS
        if peer = 0#64 || (s.localWord peer && wordCore peer == c) then
          modS fun s => s.setLCore q.lease c ((s.lcoreAt q.lease c).writeSpad off bytes)
        else if s.localWord peer then
          let l ← if s.ownWord peer then q.ownLease ea else pure q.lease
          match s.peerCause l (wordCore peer) off bytes.length with
          | some cause => addrFault cause ea
          | none => modS fun s => s.setLCore l (wordCore peer) ((s.lcoreAt l (wordCore peer)).writeSpad off bytes)
        else modS fun s => s.sendFabric (q.request c s peer.toNat 1 ea (BitVec.ofNat 64 off) bytes)

/-! ### Ends of commands (R163, R164, R373) -/

def State.setCopyStatus (s : State) (lease c id st : Nat) : State :=
  let l := s.lcoreAt lease c
  if (tabFind l.copySt id).isSome then s.setLCore lease c { l with copySt := tabPut l.copySt id st } else s

/-- An engine-fault upcall takes the 0xF1 entry of its slot where that is free and the lease holds the core (R95). -/
def State.placeUpcall (s : State) (c slot : Nat) (m : Msg) : State × Bool :=
  let k := s.coreAt c
  if s.holderOf c = some m.lease ∧ tabFind k.reserve slot = none then (s.setCore c { k with reserve := tabPut k.reserve slot { m with fresh := true } }, true)
  else (s, false)

/-- The upcall of a command's fault (R163, R373); the house receives a stage-2 fault as well, which is its own (R70, R371; log entry 37). -/
def State.engineFault (s : State) (c : Nat) (q : CopyCmd) (f : FaultInfo) : State :=
  let sid := q.gen.toNat * 256 + q.slot
  let a := freeArg s f.addr
  let lv := f.levelIn s ||| 0x400#64
  let s : State := { s with free := s.free + 2 }
  let s := if f.stage2 then s.ownerEvent ⟨0, f.cause, sid * 4096 + c, a.toNat, lv.toNat, q.lease⟩ else s
  let s := s.setCopyStatus q.lease c q.id 2
  let l := s.lcoreAt q.lease c
  let s := s.setLCore q.lease c { l with fca := BitVec.ofNat 16 f.cause, fad := a, fsl := BitVec.ofNat 16 sid }
  let m := Msg.hw 0xF1 q.lease c s.node
    [BitVec.ofNat 64 sid, BitVec.ofNat 64 f.cause, a, BitVec.ofNat 64 q.id, lv, 0] q.wid q.tag
  match s.placeUpcall c q.slot m with
  | (s', true) => s'
  | (s', false) =>
    let k := s'.coreAt c
    s'.setCore c { k with heldUp := k.heldUp ++ [.upcall q.slot m] }

/-- What a stop makes of a command that is no longer queued. -/
def State.engineStop (s : State) (c : Nat) (q : CopyCmd) : Stop → State
  | .fault f => s.engineFault c q f
  | .poison => (s.setCopyStatus q.lease c q.id 2).poisoned q.lease
  | _ => s

/-- The lease of this device that a completion message goes to, as SEND would find it; `none` is NOPART (R43, R154, R164, R403). -/
def State.completionTo (s : State) (lease : Nat) (target : Word) : Option Nat :=
  if s.ownWord target then (s.admitted s.node lease).filter fun a => (s.destLease a (wordCore target)).isSome
  else s.destLease lease (wordCore target)

/-- A completion message to a lease of this device, counted where R89 counts it: to the own node by its node alone, as a message of the lease that
it is admitted to (R89, R401, R403). -/
def State.completionAs (s : State) (m : Msg) (lease : Nat) (member : Bool) (target : Word) (l : Nat) : State × Msg :=
  let own := s.ownWord target
  let (s, counted) := if own || (member && l == lease) then s.countOpen l m.tag else (s, false)
  (s, { m with lease := l, srcLease := if own then l else lease, counted := counted })

/-- A completion message that SEND would refuse is dropped, counted and reported (R164). -/
def State.completionDropped (s : State) (lease c type tag : Nat) : State :=
  (s.countLease lease fun l => { l with dropped := l.dropped + 1 }).raiseEvent lease c
    [2, BitVec.ofNat 64 type, hwSender s.node c, BitVec.ofNat 64 tag] tag

/-- Deliver what an engine holds; `none` where it is held on (R95, R116, R154): a token whose q registers are another depth's, or full; a
message for which there is no room. The status of a completion message is decided again as it is sent (R164), with the lease it goes to then.
A token of an incarnation that its core's die has left is dropped and counted there (R311, R312). -/
def State.deliverHeld (s : State) : Held → Option State
  | .token c k gen depth q v lease inc =>
    let t := s.slotAt c k
    if inc != (s.dieAt (dieOf c)).inc then some (s.staleResponse (dieOf c))
    else if !(t.isLive && t.gen == gen && t.lease == lease) then some (s.countLease lease fun l => { l with stale := l.stale + 1 })
    else if t.queueDepth != depth || decide (4 ≤ (t.getQ q).length) then none
    else some (s.setSlot c k (t.setQ q (t.getQ q ++ [v])))
  | .message m lease member target => match s.completionTo lease target with
    | none => some ((if m.counted then s.addOpen m.tag (-1) else s).completionDropped lease (wordCore m.sender) m.type m.tag)
    | some l =>
      let (s, m) := if l = m.lease then (s, m) else (if m.counted then s.addOpen m.tag (-1) else s).completionAs m lease member target l
      if s.ownWord target && s.stray m then some (s.dropMsg m)
      else match s.arrive m with
        | (s', true) => some s'
        | (_, false) => none
  | .upcall k m => match s.placeUpcall m.core k m with
    | (s', true) => some s'
    | (_, false) => none
  | .away r =>
    if !s.routed r.lease (wordNode (BitVec.ofNat 64 r.dest)) then
      some ((if r.counted then s.addOpen r.tag (-1) else s).completionDropped r.lease r.core r.type r.tag)
    else
      let (s', room) := s.askPort
      if room then some (s'.sendFabric r) else none

/-- What is held on: the port that had no room is asked again later. -/
def State.heldOn (s : State) : Held → State
  | .away _ => { s with free := s.free + 1 }
  | _ => s

/-- A completion: taken at once where nothing is held before it and there is room, else held. The core's copy engine
holds it, or the collective engine of home die `h`. -/
def State.hold (s : State) (c : Nat) (h : Option Nat) (x : Held) : State :=
  match h with
  | none =>
    let k := s.coreAt c
    if k.held.isEmpty then (match s.deliverHeld x with
      | some s' => s'
      | none => (s.heldOn x).setCore c { k with held := [x] })
    else s.setCore c { k with held := k.held ++ [x] }
  | some h =>
    let v := s.homeAt h
    if v.held.isEmpty then (match s.deliverHeld x with
      | some s' => s'
      | none => (s.heldOn x).setHome h { v with held := [x] })
    else s.setHome h { v with held := v.held ++ [x] }

/-- The completion message of MODE 2, sent as SEND would (R164): to this device's own node it is admitted as any message is, and dropped
and counted where it belongs to no live launch (R89, R401, R403). It carries the incarnation of the issuing core's die (R311). -/
def State.completionMsg (s : State) (c : Nat) (q : CopyCmd) (h : Option Nat) (type : Nat) (target token : Word) : State :=
  let inc := (s.dieAt (dieOf c)).inc
  let drop := s.completionDropped q.lease c type q.tag
  if s.localWord target then
    match s.completionTo q.lease target with
    | none => drop
    | some l =>
      let (t, m) := s.completionAs { Msg.hw type l (wordCore target) s.node [token] q.wid q.tag with sender := hwSender s.node c, inc := inc }
        q.lease q.member target l
      if s.ownWord target && s.stray m then s.dropMsg m else t.hold c h (.message m q.lease q.member target)
  else if s.routed q.lease (wordNode target) then
    let (s, counted) := if q.member then s.countOpen q.lease q.tag else (s, false)
    s.hold c h (.away { id := 0, core := c, slot := q.slot, gen := q.gen, lease := q.lease, tag := q.tag, kind := 0, counted := counted,
                        dest := target.toNat, copyId := 0, d := 0, inc := inc, type := type, data := [token],
                        sender := awaySender (hwSender s.node c), wid := q.wid })
  else drop

/-- The completion action of a mode (R164, R166). -/
def State.completionAction (s : State) (c : Nat) (q : CopyCmd) (h : Option Nat) (mode type : Nat) : State :=
  match mode with
  | 1 => s.hold c h (.token c q.slot q.gen q.depth ((cTarget q.desc).toNat % 8) (cToken q.desc) q.lease (s.dieAt (dieOf c)).inc)
  | 2 => s.completionMsg c q h type (cTarget q.desc) (cToken q.desc)
  | _ => s

/-! ### The moves of the copy engine -/

def State.setCopyq (s : State) (c : Nat) (l : List CopyCmd) : State :=
  let k := s.coreAt c
  s.setCore c { k with copyq := l }

/-- Whether a command starts and completes at sys scope (R163). -/
def State.copySys (s : State) (q : CopyCmd) : Bool :=
  if q.coll then inAperture (kSrc q.desc) || inAperture (kDst q.desc)
  else inAperture (cSrc q.desc) || inAperture (cDst q.desc) ||
    (isLocal (cDst q.desc) && cPeer q.desc != 0#64 && !s.localWord (cPeer q.desc))

/-- What START waits for: the slot's vector memory commands and store-buffer entries, and a release; `none` where a
release at sys scope still waits. -/
def State.engineRelease (s : State) (c : Nat) (q : CopyCmd) : Option State :=
  let s := ((s.finishVecMem c q.slot).drainSlot c q.slot).writebackAll (dieOf c)
  if s.copySys q && s.fabric.any (fun r => r.core == c && r.slot == q.slot && r.gen == q.gen && r.released) then none
  else some s

def CopyCmd.total (q : CopyCmd) : Nat := cLen q.desc * cRows q.desc
/-- Whether a request over the fabric is one of a command: bytes it wrote, or asked for. -/
def FabReq.ofCopy (r : FabReq) (c lease id : Nat) : Bool := decide (2 ≤ r.kind) && r.core == c && r.lease == lease && r.copyId == id
/-- Whether bytes of a command on another device are unacknowledged. -/
def State.copyOnFabric (s : State) (c : Nat) (q : CopyCmd) : Bool := s.fabric.any fun r => r.ofCopy c q.lease q.id
/-- A command whose bytes are all written, and acknowledged where they left the device: only its completion is left. -/
def State.copyWritten (s : State) (c : Nat) (q : CopyCmd) : Bool :=
  q.active && !q.coll && decide (q.total ≤ q.done) && !s.copyOnFabric c q

/-- The queue, split before the command that the engine executes: those that wait to complete behind a completion that the
engine holds come first (R116, R163). -/
def State.copyNow (s : State) (c : Nat) : List CopyCmd × List CopyCmd :=
  let k := s.coreAt c
  if k.held.isEmpty then ([], k.copyq) else k.copyq.span (s.copyWritten c)

/-- START (R291). -/
def State.copyStart (s : State) (c : Nat) : State :=
  match s.copyNow c with
  | (w, q :: rest) =>
    if q.active || q.coll then s
    else if q.poison then (s.setCopyq c (w ++ rest)).engineStop c q .poison
    else match s.engineRelease c q with
      | some s' => s'.setCopyq c (w ++ { q with active := true } :: rest)
      | none => s
  | (_, []) => s

/-- Row and position in it of the next byte. -/
def CopyCmd.srcAt (q : CopyCmd) : Word :=
  cSrc q.desc + BitVec.ofNat 64 (q.done / cLen q.desc) * cSstride q.desc + BitVec.ofNat 64 (q.done % cLen q.desc)
def CopyCmd.dstAt (q : CopyCmd) : Word :=
  cDst q.desc + BitVec.ofNat 64 (q.done / cLen q.desc) * cDstride q.desc + BitVec.ofNat 64 (q.done % cLen q.desc)
/-- Bytes of the next ECOPY: within the row and the destination's line; one word in fill mode. -/
def CopyCmd.chunk (q : CopyCmd) : Nat :=
  if cMode q.desc = 3 then 8 else min (cLen q.desc - q.done % cLen q.desc) (lineLeft q.dstAt)

/-- Whether the port through which traffic of a node goes is down (R309, R399). -/
def State.cutOff (s : State) (node : Nat) : Bool := s.portsDown.contains (Config.routePort node % Config.fabricPorts)

/-- The next arrival on a channel from a node has a sequence number: it is taken in its turn, and not through a port that is down (R309,
R384, R399). -/
def State.inTurn (s : State) (node : Nat) (vc : VirtChan) (seq : Nat) : Bool := !s.cutOff node && seq == tabGet 0 s.fabSeq (4 * node + vc.code)
/-- An arrival is taken: the port returns a link credit for its channel, which crosses the link on the control channel (R308, R399; log entry
55). -/
def State.taken (s : State) (node : Nat) (vc : VirtChan) (seq : Nat) : State :=
  { s with fabSeq := tabPut s.fabSeq (4 * node + vc.code) ((seq + 1) % 65536),
           fabOut := s.fabOut ++ [{ vc := .control, node := s.node, id := 0, inc := 0, status := vc.code,
                                    link := some (Config.routePort node % Config.fabricPorts), credit := true }] }

/-- An answer of another device to a read: its bytes, the incarnation that it carries back, and its place on the data channel (R309, R311). -/
structure Answer where
  bytes : List Byte
  inc : BitVec 3
  seq : Nat

/-- The source bytes of the next ECOPY from an aperture: this device's own node gives them at once (R401); another device is asked for
them, and `given` is what it answers; `none` while it has not answered (R163, R400). An answer that carries an older incarnation is dropped and
counted (R312). -/
def apertureBytes (c : Nat) (q : CopyCmd) (n : Nat) (given : Answer) : M (Option (List Byte)) := do
  let (node, dva) ← aperturePlace q.lease q.srcAt
  let s ← getS
  if node = s.node then
    let l ← q.ownLease q.srcAt
    let bs ← admitReadM l (n + 1) dva n
    return some bs
  else if s.fabric.any fun r => r.kind == 3 && r.ofCopy c q.lease q.id then
    if given.bytes.isEmpty || !s.inTurn node .data given.seq then return none
    else
      modS fun s => s.taken node .data given.seq
      if given.inc != (s.dieAt (dieOf c)).inc then
        modS fun s => s.staleResponse (dieOf c)
        return none
      else if n ≤ given.bytes.length then
        modS fun s => { s with fabric := s.fabric.filter fun r => !(r.kind == 3 && r.ofCopy c q.lease q.id) }
        return some (given.bytes.take n)
      else return none
  else
    modS fun s => s.sendFabric { q.request c s (node * 8192) 0 q.srcAt (BitVec.ofNat 64 dva) [] with
      kind := 3, data := [BitVec.ofNat 64 dva, BitVec.ofNat 64 n] }
    return none

/-- The bytes that the next ECOPY writes: the pattern, bytes another device gives, or the source's. -/
def ecopyBytes (c : Nat) (q : CopyCmd) (given : Answer) : M (Option (List Byte)) :=
  let n := q.chunk
  match q.fillPat with
  | some p => pure (some ((List.range n).map fun i => p.extractLsb' (8 * ((q.dstAt.toNat + i) % 8)) 8))
  | none =>
    if inAperture q.srcAt then apertureBytes c q n given
    else do
      let bs ← engRead (q.party c) 65 q.srcAt n
      return some bs

/-- Whether the next ECOPY of a CFILL writes the last word of a line of which its row writes every word: the line is scrubbed, and its
poison is cleared (R192, R380). -/
def CopyCmd.scrubs (q : CopyCmd) : Bool :=
  q.fillPat.isSome && decide (lineLeft q.dstAt ≤ q.chunk) && decide (64 ≤ q.done % cLen q.desc + q.chunk) &&
  !inAperture q.dstAt && !isLocal q.dstAt

/-- What a scrubbed line loses: its poison, and, where it is the house's own fill, a gather that stood there (R192, R380; log entry 62). -/
def CopyCmd.scrubM (q : CopyCmd) (c : Nat) : M Unit := do
  if q.scrubs then
    let pl ← engPlace (q.party c) q.dstAt true
    match pl with
    | .spad _ => return ()
    | .mem dva x =>
      modS fun s => { s with poison := s.poison.filter fun l => l != x.paOf dva / 64,
                             gathers := if q.lease = 0 then s.gathers.filter fun g => g.1 / 64 != x.paOf dva / 64 else s.gathers }

/-- ECOPY (R291): the next bytes. `given` is what another device answers for a source in the aperture. -/
def State.ecopy (s : State) (c : Nat) (given : Answer) : State :=
  match s.copyNow c with
  | (w, q :: rest) =>
    if !q.active || q.coll || decide (q.total ≤ q.done) then s
    else
      let body : M Nat := do
        if q.poison then throw .poison
        match (← ecopyBytes c q given) with
        | none => return 0
        | some bs =>
          engWrite q c q.dstAt (cPeer q.desc) (cMode q.desc == 3) bs
          q.scrubM c
          return q.chunk
      match body s with
      | .ok n s' => s'.setCopyq c (w ++ { q with done := q.done + n } :: rest)
      | .error .stall _ => s
      | .error e s' => (s'.setCopyq c (w ++ rest)).engineStop c q e
  | (_, []) => s

/-- COMPLETE (R164), where the engine holds no earlier completion (R116). -/
def State.copyComplete (s : State) (c : Nat) : State :=
  let k := s.coreAt c
  match k.copyq with
  | q :: rest =>
    if !s.copyWritten c q || !k.held.isEmpty then s
    else
      let s := (s.setCopyq c rest).setCopyStatus q.lease c q.id 1
      s.completionAction c q none (cMode q.desc) (cType q.desc)
  | [] => s

/-- COPY_START (R291): the core `a`. -/
def execCopyStart (s : State) : Host.Outcome State Fault Refusal := runEvent (fun s => s.copyStart s.ev.a) s
/-- ECOPY (R291): the core `a`; `bytes` from another device where the source lies in the aperture, with the incarnation `finc` and the
sequence number `fseq` (R309, R311). -/
def execEcopy (s : State) : Host.Outcome State Fault Refusal :=
  runEvent (fun s => s.ecopy s.ev.a { bytes := s.ev.bytes, inc := s.ev.finc, seq := s.ev.fseq }) s
/-- COPY_COMPLETE (R164): the core `a`. -/
def execCopyComplete (s : State) : Host.Outcome State Fault Refusal := runEvent (fun s => s.copyComplete s.ev.a) s

/-! ### What the engines hold -/

/-- The oldest completion that an engine holds is delivered where it can be (R95, R116). -/
def State.heldStep (s : State) (c : Nat) : State :=
  let k := s.coreAt c
  match k.held with
  | [] => s
  | x :: rest => (match (s.setCore c { k with held := rest }).deliverHeld x with
    | some s' => s'
    | none => s.heldOn x)
def State.heldHome (s : State) (h : Nat) : State :=
  let v := s.homeAt h
  match v.held with
  | [] => s
  | x :: rest => (match (s.setHome h { v with held := rest }).deliverHeld x with
    | some s' => s'
    | none => s.heldOn x)

/-- The first held engine-fault upcall whose entry is free takes it (R95). -/
def State.heldUpcall (s : State) (c : Nat) : Nat → State
  | 0 => s
  | n + 1 =>
    let k := s.coreAt c
    let i := k.heldUp.length - (n + 1)
    match k.heldUp[i]? with
    | none => s
    | some x => (match (s.setCore c { k with heldUp := listDrop k.heldUp i }).deliverHeld x with
      | some s' => s'
      | none => s.heldUpcall c n)

/-- ENGINE_HELD_DELIVERY (R95, R116): the copy engine of core `a`, or, with `flag`, the collective engine of home die `a`. -/
def execEngineHeldDelivery (s : State) : Host.Outcome State Fault Refusal :=
  runEvent (fun s => if s.ev.flag then s.heldHome s.ev.a else s.heldStep s.ev.a) s
/-- ENGINE_FAULT_UPCALL (R95, R373): the core `a`. -/
def execEngineFaultUpcall (s : State) : Host.Outcome State Fault Refusal :=
  runEvent (fun s => s.heldUpcall s.ev.a (s.coreAt s.ev.a).heldUp.length) s

/-! ### Collectives (R166, R404) -/

/-- Whether the collective engine of a member's home die holds a completion, which later ones wait behind (R116, R164). -/
def State.collHeld (s : State) (x : Coll) : Bool := !(s.homeAt (dieOf x.core)).held.isEmpty

/-- Whether two commands of this device take part in one collective. -/
def State.sameColl (s : State) (a b : Coll) : Bool :=
  (s.leaseD a.cmd.lease).part == (s.leaseD b.cmd.lease).part && kGroup a.cmd.desc == kGroup b.cmd.desc && a.cmd.n == b.cmd.n &&
  a.written == b.written

/-- OP, FMT, COUNT and ROOT, which every member gives alike (R404). -/
def collKey (d : List Byte) : Nat × Nat × Nat × Nat := (kOp d, kFmt d, kCount d, kRoot d)

/-- Addition of two elements of a format (R166). -/
def elemAdd (fmt : Nat) (a b : Nat) : Nat :=
  match fmt with
  | 0 => (fpAddNe (BitVec.ofNat 32 a) (BitVec.ofNat 32 b)).toNat
  | 1 => (fpToH16 0 (fpAddNe (fpOfH16 (BitVec.ofNat 16 a)) (fpOfH16 (BitVec.ofNat 16 b)))).1.toNat
  | _ => (a + b) % 2 ^ 32

/-- The elements of a rank's bytes. -/
def elemsOf (n : Nat) (bs : List Byte) : List Nat := (List.range (bs.length / n)).map fun i => dNat bs (n * i) n
def sumElems (fmt : Nat) (a b : List Nat) : List Nat := (a.zip b).map fun e => elemAdd fmt e.1 e.2
/-- The sum of the ranks in the order of a tree. -/
def treeSum (fmt : Nat) (ranks : List (List Nat)) : SumTree → List Nat
  | .rank r => ranks.getD r []
  | .join l r => sumElems fmt (treeSum fmt ranks l) (treeSum fmt ranks r)
def treeRanks : SumTree → List Nat
  | .rank r => [r]
  | .join l r => treeRanks l ++ treeRanks r
/-- A tree that takes each of n ranks once. -/
def treeOk (n : Nat) (t : SumTree) : Bool :=
  (treeRanks t).length == n && (List.range n).all fun r => (treeRanks t).contains r

/-- What a collective leaves at the DST of a rank (R166; log entry 21). -/
def collResult (d : List Byte) (ranks : List (List Nat)) (t : SumTree) (r : Nat) : List Nat :=
  match kOp d with
  | 0 => treeSum (kFmt d) ranks t
  | 1 => ((treeSum (kFmt d) ranks t).drop (r * kChunk d ranks.length)).take (kChunk d ranks.length)
  | 2 => ranks.flatten
  | _ => ranks.getD (kRoot d) []

/-- Write bytes line by line. -/
def engWriteAll (q : CopyCmd) (c : Nat) : Nat → Word → List Byte → M Unit
  | 0, _, _ => return ()
  | f + 1, a, bs => do
    if bs.isEmpty then return ()
    let k := lineLeft a
    engWrite q c a 0#64 false (bs.take k)
    engWriteAll q c f (a + BitVec.ofNat 64 k) (bs.drop k)

/-- The end of a collective reaches the core that issued it, with the incarnation that its command took to the home die: where the core's die
has been reset since, it is dropped and counted there, and the command keeps no status (R311, R312; log entry 57). -/
def State.collEnds (s : State) (x : Coll) (f : State → State) : State :=
  if x.inc == (s.dieAt (dieOf x.core)).inc then f s
  else
    let l := s.lcoreAt x.cmd.lease x.core
    (s.setLCore x.cmd.lease x.core { l with copySt := tabDel l.copySt x.cmd.id }).staleResponse (dieOf x.core)

/-- A command of the collective engine ends with a status; its completion action is taken unless it faulted or its lease
was reset. -/
def State.endColl (s : State) (x : Coll) (st : Nat) : State :=
  s.collEnds x fun s => (s.setCopyStatus x.cmd.lease x.core x.cmd.id st).completionAction x.core x.cmd (some (dieOf x.core))
    (kMode x.cmd.desc) (kType x.cmd.desc)

/-- A command of the collective engine stops with a fault, or at poison, which resets its lease wherever its core's die stands (R373, R381). -/
def State.stopColl (s : State) (x : Coll) : Stop → State
  | .poison => (s.collEnds x fun s => s.setCopyStatus x.cmd.lease x.core x.cmd.id 2).poisoned x.cmd.lease
  | e => s.collEnds x fun s => s.engineStop x.core x.cmd e

/-- Collectives have made progress: their time of R400 begins anew (R404). -/
def State.collProgress (s : State) (p : Coll → Bool) : State := { s with colls := listMapIf p (fun x => { x with age := 0 }) s.colls }

/-- Source bytes that have come from other devices are gone, with nothing made of them: they are answered as refused, with a cause (R310, R403). -/
def State.peerGone (s : State) (p : PeerBytes → Bool) (cause : Nat) : State :=
  (s.peerBytes.filter p).foldl (fun s b => s.respond b.origin cause true) { s with peerBytes := s.peerBytes.filter fun b => !p b }

/-- The place on another device of a member's source in an aperture. -/
def State.collSource (s : State) (x : Coll) : Option (Nat × Nat) :=
  if inAperture (kSrc x.cmd.desc) then
    match aperturePlace x.cmd.lease (kSrc x.cmd.desc) s with
    | .ok (node, dva) _ => if node = s.node then none else some (node, dva)
    | .error _ _ => none
  else none

/-- Bytes at a member's SRC. -/
def Coll.srcBytes (x : Coll) : Nat := kSrcCount x.cmd.desc * kElem x.cmd.desc

/-- One member of this device: its source read, or as it was given to the members on other devices; a poisoned command is consumed
(R381, R384). -/
def State.collRead (s : State) (x : Coll) : State × Except Stop (List Byte) :=
  let n := x.srcBytes
  let body : M (List Byte) := do
    if x.cmd.poison then throw .poison
    match x.given with
    | some bs => return bs
    | none =>
      if inAperture (kSrc x.cmd.desc) then
        let (_, dva) ← aperturePlace x.cmd.lease (kSrc x.cmd.desc)
        let l ← x.cmd.ownLease (kSrc x.cmd.desc)
        admitReadM l (n + 1) dva n
      else engRead (x.cmd.party x.core) (n + 1) (kSrc x.cmd.desc) n
  match body s with
  | .ok bs s' => (s', .ok bs)
  | .error e s' => (s', .error e)

/-- The members of a command's group on other devices. -/
def State.collAway (s : State) (x : Coll) : List (Nat × Nat) :=
  (((s.groupOf x.cmd.lease (kGroup x.cmd.desc)).map (·.2)).getD []).filterMap fun m => if m.2.1 = s.node then none else some m.2

/-- A member's source bytes leave on the data channel for the members of its group on other devices (R308, R404). -/
def State.collGive (s : State) (x : Coll) (bs : List Byte) : State :=
  (s.collAway x).foldl (fun s m => s.sendFabric { x.cmd.request x.core s (m.1 * 8192) 0 (kSrc x.cmd.desc) (BitVec.ofNat 64 (kGroup x.cmd.desc)) [] with
    kind := 4, type := x.cmd.n, data := [BitVec.ofNat 64 (kGroup x.cmd.desc), BitVec.ofNat 64 x.cmd.n] ++ bs.map fun b => b.zeroExtend 64 }) s

/-- A command enters its collective engine, which is progress of the collective (R404). Where its group has members on other devices its source
is read for them; a source on another device is asked for (R163, R308). A source that cannot be read stops the collective when it is its turn. -/
def State.collEnter (s : State) (x : Coll) : State :=
  let s := s.collProgress (s.sameColl x)
  match s.collSource x with
  | some (node, dva) =>
    { s.sendFabric { x.cmd.request x.core s (node * 8192) 0 (kSrc x.cmd.desc) (BitVec.ofNat 64 dva) [] with
        kind := 3, data := [BitVec.ofNat 64 dva, BitVec.ofNat 64 x.srcBytes] } with colls := s.colls ++ [x] }
  | none =>
    if (s.collAway x).isEmpty then { s with colls := s.colls ++ [x] }
    else match s.collRead x with
      | (s', .ok bs) => { s'.collGive x bs with colls := s'.colls ++ [{ x with given := some bs }] }
      | (_, .error _) => { s with colls := s.colls ++ [x] }

/-- The head COLL is handed to the collective engine of the paired home die. -/
def State.collectiveStart (s : State) (c : Nat) : State :=
  match s.copyNow c with
  | (w, q :: rest) =>
    if !q.coll then s
    else if q.poison then (s.setCopyq c (w ++ rest)).engineStop c q .poison
    else match s.engineRelease c q with
      | none => s
      | some s' => (s'.setCopyq c (w ++ rest)).collEnter { core := c, cmd := { q with active := true }, inc := (s.dieAt (dieOf c)).inc }
  | (_, []) => s

/-- The bytes of a member's source on another device arrive, which is progress (R404): they are the collective's, and go on to the members on
other devices. -/
def State.collAnswer (s : State) (c lease id : Nat) (bs : List Byte) : State :=
  let hit := fun (x : Coll) => x.core == c && x.cmd.lease == lease && x.cmd.id == id
  match s.colls.find? hit with
  | some x =>
    let bs := bs.take x.srcBytes
    (({ s with colls := listMapIf hit (fun x => { x with given := some bs }) s.colls } : State).collProgress (s.sameColl x)).collGive x bs
  | none => s

/-- Whether source bytes are of a collective. -/
def State.peerOf (s : State) (x : Coll) (p : PeerBytes) : Bool :=
  p.group == kGroup x.cmd.desc && p.n == x.cmd.n && (s.leaseD p.holder).part == (s.leaseD x.cmd.lease).part

/-- What was made of the source bytes of a collective's members on other devices is written, `failed` where a part of it is not. They are acknowledged
as performed when all of it is performed at its home, on this device and on others; where a part failed, they are answered as refused (R310; log
entry 56). -/
def State.peerDone (s : State) (x : Coll) (failed : Bool) : State :=
  let s : State := { s with peerBytes := listMapIf (s.peerOf x) (fun p => { p with made := some (failed || p.made.getD false) }) s.peerBytes }
  if s.colls.any fun y => y.written && s.sameColl { x with written := true } y then s
  else (s.peerBytes.filter (s.peerOf x)).foldl
    (fun s b => s.respond b.origin (if b.made.getD true then causeAper else 0) (b.made.getD true))
    { s with peerBytes := s.peerBytes.filter fun b => !s.peerOf x b }

/-- A member leaves its collective before what it wrote on other devices is acknowledged. -/
def State.peerFailed (s : State) (x : Coll) : State := if x.written then s.peerDone x true else s

/-- The source bytes of a rank of a collective on another device, where they have arrived. -/
def State.peerSource (s : State) (x : Coll) (node lease : Nat) : Option (List Byte) :=
  (s.peerBytes.find? fun p => p.node == node && p.lease == lease && s.peerOf x p).map (·.bytes)

/-- Copy bytes of a command or a collective are refused or time out on another device (R400, R403): a copy ends FAULT, with the address `addr`
of those bytes; `write` says whether they were written there or asked for. A collective ends PEER_ABORT, or, where its members were found to
differ, FAULT with cause DESC (R404). -/
def State.copyRefused (s : State) (c lease id cause : Nat) (addr : Word) (write : Bool) : State :=
  let dropped : State := { s with fabric := s.fabric.filter fun r => !r.ofCopy c lease id }
  let hit := fun (x : Coll) => x.core == c && x.cmd.lease == lease && x.cmd.id == id
  match s.colls.find? hit with
  | some x =>
    let t : State := { dropped with colls := s.colls.filter fun y => !hit y }
    (if cause = causeDesc then t.stopColl x (.fault { cause := causeDesc }) else t.endColl x 5).peerFailed x
  | none =>
    match s.copyNow c with
    | (w, q :: rest) =>
      if q.id = id ∧ q.lease = lease ∧ q.coll = false then
        (dropped.setCopyq c (w ++ rest)).engineFault c q { cause := cause, addr := some addr, write := write }
      else s
    | (_, []) => s

/-- A member's result is written; it ends DONE, or, where bytes of it went to another device, waits for their acknowledgement (R164, R310). Whether
the write failed. -/
def State.collWrite (s : State) (x : Coll) (bs : List Byte) : State × Bool :=
  match engWriteAll x.cmd x.core (bs.length + 1) (kDst x.cmd.desc) bs s with
  | .ok _ s' =>
    (if s'.copyOnFabric x.core x.cmd then { s' with colls := s'.colls ++ [{ x with written := true, age := 0 }] } else s'.endColl x 1, false)
  | .error e s' => (s'.stopColl x e, true)

/-- COLLECTIVE_COMPLETE (R166, R404): a collective whose members of this device have all been handed over, and for which the source bytes of
the others have arrived, which are acknowledged when the results are performed, and answered as refused where they are not (R310). `differ` says that one of those gives other values of OP,
FMT, COUNT or ROOT, and `order` is the order of the additions. -/
def State.collectiveComplete (s : State) (i : Nat) (order : SumTree) (differ : Bool) : State :=
  match s.colls[i]? with
  | none => s
  | some x =>
    if x.written then
      (if s.copyOnFabric x.core x.cmd || s.collHeld x then s
       else (({ s with colls := listDrop s.colls i } : State).endColl x 1).peerDone x false)
    else match s.groupOf x.cmd.lease (kGroup x.cmd.desc) with
    | none => s
    | some g =>
      let mine := s.colls.filter (s.sameColl x)
      let locals := g.2.filter fun m => m.2.1 == s.node
      let find := fun (l : Nat) => mine.find? fun y => y.cmd.lease == l
      let ofIt := s.peerOf x
      if (locals.any fun m => (find m.2.2).isNone) || mine.any s.collHeld then s
      else
        let s0 := s
        let s : State := { s with colls := s.colls.filter fun y => !s.sameColl x y }
        if differ || mine.any fun y => collKey y.cmd.desc != collKey x.cmd.desc then
          (mine.foldl (fun s y => s.stopColl y (.fault { cause := causeDesc })) s).peerGone ofIt causeDesc
        else if mine.any (fun y => y.given.isNone && (s0.collSource y).isSome) then s0
        else
          let reads : State × List (Nat × Except Stop (List Byte)) := mine.foldl (fun st y =>
            let (s', r) := st.1.collRead y
            (s', st.2 ++ [(y.cmd.lease, r)])) (s, [])
          let bad := reads.2.filterMap fun e => match e.2 with
            | .error v => some (e.1, v)
            | .ok _ => none
          if !bad.isEmpty then
            (mine.foldl (fun s y => match bad.find? fun e => e.1 == y.cmd.lease with
              | some (_, e) => s.stopColl y e
              | none => s.endColl y 5) reads.1).peerGone ofIt causeAper
          else
            let n := kElem x.cmd.desc
            let bytesOf := fun (r : Nat) =>
              match tabFind g.2 r with
              | some (node, lease) =>
                if node = s.node then
                  (match reads.2.find? fun e => e.1 == lease with
                   | some (_, .ok bs) => bs
                   | _ => [])
                else ((s0.peerSource x node lease).getD []).take x.srcBytes
              | none => []
            let ranks := (List.range g.1).map fun r => elemsOf n (bytesOf r)
            if !treeOk g.1 order || ranks.any fun e => e.length != kSrcCount x.cmd.desc then s0
            else
              let done := mine.foldl (fun (st : State × Bool) y =>
                let r := (groupRank g st.1.node y.cmd.lease).getD 0
                let (s', failed) := st.1.collWrite y ((collResult x.cmd.desc ranks order r).flatMap (leBytes n))
                (s', st.2 || failed)) (reads.1, false)
              done.1.peerDone x done.2

/-- Clk after which a request over the fabric, or a collective with no progress, times out (R400, R404). -/
def fabricLimit : Nat := 4000000

/-- A collective ends PEER_ABORT, its completion action taken (R166): a peer's ABORT has come over the control channel (`abort`), or it has
made no progress for the time of R400 (R404). -/
def State.collectiveAbort (s : State) (i : Nat) (abort : Bool) : State :=
  match s.colls[i]? with
  | none => s
  | some x => if s.collHeld x || !(abort || decide (fabricLimit ≤ x.age)) then s
              else (({ s with colls := listDrop s.colls i } : State).endColl x 5).peerFailed x

/-- A peer's ABORT comes over the control channel, in its turn, and waits where the engine holds a completion (R116, R308, R309). -/
def State.peerAbort (s : State) (i node seq : Nat) : State :=
  if !s.inTurn node .control seq || (s.colls[i]?).any s.collHeld then s else (s.taken node .control seq).collectiveAbort i true

/-- COLLECTIVE_START (R166): the core `a`. -/
def execCollectiveStart (s : State) : Host.Outcome State Fault Refusal := runEvent (fun s => s.collectiveStart s.ev.a) s
/-- COLLECTIVE_COMPLETE (R166): the collective `a`, with `order` and `flag`. -/
def execCollectiveComplete (s : State) : Host.Outcome State Fault Refusal :=
  runEvent (fun s => s.collectiveComplete s.ev.a s.ev.order s.ev.flag) s
/-- COLLECTIVE_ABORT (R166, R379, R404): the collective `a`; `flag` where a peer on the node `fid` has sent ABORT, with the sequence number
`fseq`. -/
def execCollectiveAbort (s : State) : Host.Outcome State Fault Refusal :=
  runEvent (fun s => if s.ev.flag then s.peerAbort s.ev.a s.ev.fid s.ev.fseq else s.collectiveAbort s.ev.a false) s

end Sys2Proof.Machine
end

