-- ==== Sys2Proof/Machine/System.lean ====
section
/-! DEFINITION. TRAP and BKPT (R374), the forms on other slots (R187, R188), lookaside and translation invalidation (R184, R189,
R190), and MGMT (R72, R73). -/

namespace Sys2Proof.Machine

/-! ### TRAP and BKPT -/

/-- TRAP and BKPT complete, then raise their fault; the slot continues behind them when it is resumed (R374). -/
def trapM (cause : Nat) : M Flow := do
  vecDoneM
  let t ← curM
  modCur fun t => t.complete .seq
  modS fun s => s.takeFaultAt s.core s.slot { cause := cause, addr := some (t.getX 10#5), level := some 0#64 }
    (t.pc.zeroExtend 64) 0#64 .trap
  return .stay

/-- TRAP (R374). -/
def execTrap (s : State) : Host.Outcome State Fault Refusal := runSlot (trapM causeTrap) s
/-- BKPT (R374). -/
def execBkpt (s : State) : Host.Outcome State Fault Refusal := runSlot (trapM causeBkpt) s

/-! ### The slot forms -/

/-- Only the runtime class may go on (R187). -/
def runtimeOnly : M Unit := do
  let t ← curM
  if t.cls != 2 then faultM causePriv

/-- Slot number and generation of a `sid`, where its reserved bits are zero (R32). -/
def sidFields (w : Word) : Option (Nat × BitVec 8) :=
  if w.extractLsb' 3 5 = 0#5 then some ((w.extractLsb' 0 3).toNat, w.extractLsb' 8 8) else none

def Slot.parkedAs (t : Slot) (g : BitVec 8) : Bool :=
  match t.st with
  | .parked _ => t.gen == g
  | _ => false

/-- RESUME (R187): 0 DONE, 1 STALE, 3 BADSEL. -/
def execResume (d a : BitVec 5) (s : State) : Host.Outcome State Fault Refusal :=
  runSlot (do
    runtimeOnly
    let t ← curM
    let w := t.getX a
    let s ← getS
    let st ← match (if w >>> 16 = 0#64 then sidFields w else none) with
      | none => pure 3#64
      | some (k, g) =>
        if (s.slotAt s.core k).parkedAs g then do
          modS fun s => s.setSlot s.core k (s.slotAt s.core k).resumed
          pure 0#64
        else do
          modS fun s => s.countStale t.lease
          pure 1#64
    setXM d st
    return .seq) s

/-- KILL (R187): 0 DONE, 1 STALE, 2 SELF, 3 BADSEL. -/
def execKill (d a : BitVec 5) (s : State) : Host.Outcome State Fault Refusal :=
  runSlot (do
    runtimeOnly
    let t ← curM
    let w := t.getX a
    let s ← getS
    let st ← match (if w >>> 16 = 0#64 then sidFields w else none) with
      | none => pure 3#64
      | some (k, g) =>
        let v := s.slotAt s.core k
        if k = s.slot ∧ g = t.gen then pure 2#64
        else if v.isLive ∧ v.gen = g then do
          modS fun s => s.killReport s.core k 2 0
          pure 0#64
        else do
          modS fun s => s.countStale t.lease
          pure 1#64
    setXM d st
    return .seq) s

/-- The state code of SLOTRD (R188). -/
def SlotSt.code : SlotSt → Nat
  | .free => 0
  | .ready => 1
  | .blocked _ => 2
  | .parked _ => 3

/-- Selector 0 of SLOTRD (R188). -/
def Slot.summary (t : Slot) (k : Nat) : Word :=
  BitVec.ofNat 64 (sidOf t k + t.st.code * 2 ^ 16 + if t.warned then 2 ^ 18 else 0)

/-- A selector of a PARKED slot's state, read (R188): 0 for an unassigned one. -/
def Slot.readSel (t : Slot) (k sel : Nat) : Word :=
  if sel = 1 then t.pc.zeroExtend 64
  else if 0x20 ≤ sel ∧ sel ≤ 0x3F then t.getX (BitVec.ofNat 5 (sel - 0x20))
  else if 0x100 ≤ sel ∧ sel ≤ 0x1FF then (t.csr k (sel - 0x100)).getD 0#64
  else if 0x200 ≤ sel ∧ sel ≤ 0x3FF then (laneOf (t.getV ((sel - 0x200) / 16)) (sel % 16)).zeroExtend 64
  else if 0x400 ≤ sel ∧ sel ≤ 0x407 then (t.getP (sel - 0x400)).zeroExtend 64
  else 0#64

/-- Per-slot CSRs that the work class may write (R31). -/
def slotCsrWritable (n : Nat) : Bool :=
  n == 0x005 || n == 0x006 || n == 0x009 || n == 0x00A || (decide (0x010 ≤ n) && decide (n ≤ 0x015))

/-- A vector register with one lane replaced. -/
def setLane (v : VecReg) (i : Nat) (x : Lane) : VecReg := ofLanes fun j => if j = i then x else laneOf v j

/-- A selector of a slot's state, written; `none` for an unassigned selector or value (R188). -/
def Slot.writeSel (t : Slot) (sel : Nat) (v : Word) : Option Slot :=
  if sel = 1 then
    if v.extractLsb' 0 2 = 0#2 ∧ v.extractLsb' 47 17 = 0#17 then some { t with pc := v.setWidth 48, ahead := [] } else none
  else if 0x21 ≤ sel ∧ sel ≤ 0x3F then some (t.setX (BitVec.ofNat 5 (sel - 0x20)) v)
  else if 0x100 ≤ sel ∧ sel ≤ 0x1FF then (if slotCsrWritable (sel - 0x100) then some (t.setCsr (sel - 0x100) v) else none)
  else if 0x200 ≤ sel ∧ sel ≤ 0x3FF then
    let r := (sel - 0x200) / 16
    some (t.setV r (setLane (t.getV r) (sel % 16) (v.setWidth 32)))
  else if 0x401 ≤ sel ∧ sel ≤ 0x407 then some (t.setP (sel - 0x400) (v.setWidth 16))
  else none

/-- The slot, generation and selector word of SLOTRD and SLOTWR (R188). -/
def selFields (w : Word) : Option (Nat × BitVec 8 × Nat) :=
  match (if w >>> 28 = 0#64 then sidFields w else none) with
  | some (k, g) => some (k, g, (w.extractLsb' 16 12).toNat)
  | none => none

/-- SLOTRD (R188). -/
def execSlotrd (d a : BitVec 5) (s : State) : Host.Outcome State Fault Refusal :=
  runSlot (do
    runtimeOnly
    let t ← curM
    let v ← match selFields (t.getX a) with
      | none => pure 0#64
      | some (k, g, sel) => do
        modS fun s => s.finishVec s.core k
        let s ← getS
        let u := s.slotAt s.core k
        pure (if sel = 0 then u.summary k else if u.parkedAs g then u.readSel k sel else 0#64)
    setXM d v
    return .seq) s

/-- SLOTWR (R188): 0 DONE, 1 STALE, 3 BADSEL, which is decided first (log entry 17). -/
def execSlotwr (d a b : BitVec 5) (s : State) : Host.Outcome State Fault Refusal :=
  runSlot (do
    runtimeOnly
    let t ← curM
    let st ← match selFields (t.getX a) with
      | none => pure 3#64
      | some (k, g, sel) => do
        modS fun s => s.finishVec s.core k
        let s ← getS
        let u := s.slotAt s.core k
        match u.writeSel sel (t.getX b) with
        | none => pure 3#64
        | some u' =>
          if u.parkedAs g then do
            modS fun s => s.setSlot s.core k u'
            pure 0#64
          else pure 1#64
    setXM d st
    return .seq) s

/-! ### Invalidation -/

/-- Accesses of leases checked or translated before are performed: vector commands, store buffers, requests at homes
(R184, R190). -/
def State.quiesceCore (p : Nat → Bool) (s : State) (c : Nat) : State :=
  let s := (List.range 8).foldl (fun s k => if p (s.slotAt c k).lease then s.finishVec c k else s) s
  s.drainWhile c (fun e => p e.lease) (s.coreAt c).sb.length
def State.performAll (s : State) (h : Nat) : Nat → State
  | 0 => s
  | n + 1 => (s.performHead h).performAll h n
def State.quiesce (s : State) (p : Nat → Bool) : State :=
  let s := (s.cores.map (·.1)).foldl (State.quiesceCore p) s
  (List.range 8).foldl (fun s h => s.performAll h (s.homeFuel h)) s

/-- The address and the translation of an access of a blocked slot that was checked before and is still to be made: an LDF in a wait table,
and MGMT's store of return data. -/
def Wait.access : Wait → Option (Nat × Option Xlat)
  | .ldf _ dva _ x => some (dva, some x)
  | .mgmt _ (.mem dva x) => some (dva, some x)
  | .mgmt _ (.spad off) => some (Config.localBase + off, none)
  | _ => none
/-- The access that a slot is blocked in. -/
def Slot.access (t : Slot) : Option (Nat × Option Xlat) :=
  match t.st with
  | .blocked w => w.access
  | _ => none

/-- An LDS.G that a member brought to its gang's barrier with no failed check: its slice is read when the operation is accepted (R237, R247). -/
def Entrant.reads (e : Entrant) (c k : Nat) (gen : BitVec 8) : Bool :=
  e.core == c && e.slot == k && e.gen == gen && e.failed.isNone && (match e.instr with | .ldsG _ => true | _ => false)

/-- The access that was checked before and that a slot still has to make: the one it is blocked in, or that of its LDS.G in the gang barrier. -/
def State.accessOf (s : State) (c k : Nat) : Option (Nat × Option Xlat) :=
  let t := s.slotAt c k
  if t.st = .blocked .gang then
    (s.gangs.findSome? fun g => (g.2.entered ++ g.2.op).find? fun e => e.reads c k t.gen).map fun e => (e.a.toNat, none)
  else t.access

/-- The slots blocked in an access that satisfies a test, with their generations. -/
def State.users (s : State) (p : Slot → Nat → Option Xlat → Bool) : List (Nat × Nat × BitVec 8) :=
  (s.cores.map (·.1)).flatMap fun c => (List.range Config.slots).filterMap fun k =>
    match s.accessOf c k with
    | some (dva, x) => if p (s.slotAt c k) dva x then some (c, k, (s.slotAt c k).gen) else none
    | none => none

/-- Whether a slot of a list is in its access still. -/
def State.inUse (s : State) (users : List (Nat × Nat × BitVec 8)) : Bool :=
  users.any fun u => (s.slotAt u.1 u.2.1).gen == u.2.2 && (s.accessOf u.1 u.2.1).isSome

/-- PLBINV, TLBI1 and TLBI2 complete when no slot of the list is in its access any more (R184, R190). -/
def drainedM (d : BitVec 5) (users : List (Nat × Nat × BitVec 8)) : M Flow := do
  let s ← getS
  if s.inUse users then throw .stall
  setXM d 0#64
  return .seq

/-- After the removal: the slot is BLOCKED while another is in an access that used what is gone (R184, R190; log entry 36). -/
def removedM (d : BitVec 5) (users : List (Nat × Nat × BitVec 8)) : M Flow :=
  if users.isEmpty then drainedM d [] else throw (.block (.drain d users))

/-- Whether a PLB entry is named by PLBINV's operands (R184). -/
def PlbEntry.hit (e : PlbEntry) (lease dom first last : Nat) (allDom allSeg : Bool) : Bool :=
  e.lease == lease && (allDom || e.dom == dom) && (allSeg || (decide (first ≤ e.seg) && decide (e.seg ≤ last)))

/-- Every PLB without the entries that a test names. -/
def State.dropPlb (s : State) (p : PlbEntry → Bool) : State :=
  { s with cores := s.cores.map fun c => (c.1, { c.2 with plb := c.2.plb.filter fun e => !p e }) }

/-- PLBINV (R184): 0 DONE, 3 BADARG. -/
def execPlbinv (d a b : BitVec 5) (s : State) : Host.Outcome State Fault Refusal :=
  runSlot (do
    runtimeOnly
    let t ← curM
    let x := (t.getX a).toNat
    let y := (t.getX b).toNat
    let allDom := x.testBit 8
    let allSeg := y.testBit 52
    let first := bitsOf y 25 0
    let last := bitsOf y 51 26
    if 512 ≤ x || 2 ^ 53 ≤ y || (!allSeg && decide (last < first)) then
      setXM d 3#64
      return .seq
    else
      let hit := fun (e : PlbEntry) => e.hit t.lease (x % 256) first last allDom allSeg
      modS fun s => (s.quiesce (fun l => l == t.lease)).dropPlb hit
      let s ← getS
      removedM d (s.users fun u dva _ =>
        hit { lease := u.lease, dom := u.dom.toNat, seg := dva / 2 ^ 21, r := false, w := false, x := false, g := false })) s

/-- The management level of a task (R55): 0 house, 1 partition, 2 lease. -/
def State.levelOf (s : State) (t : Slot) : Nat :=
  if t.cls = 2 ∧ t.dom = 0#8 then
    if t.lease = 0 then 0
    else if (match tabFind s.parts (s.leaseD t.lease).part with
             | some p => p.control == t.lease
             | none => false) then 1
    else 2
  else 2

/-- Translations and lines that tests name are gone from every die, lines after their write-back (R190). -/
def State.dropXlat (s : State) (px : Xlat → Bool) (pl : Line → Bool) : State :=
  (List.range 8).foldl (fun s die =>
    let s := ((s.dieAt die).lines.filter pl).foldl (fun s l => s.writebackLine die l.x.lease l.line) s
    let d := s.dieAt die
    s.setDie die { d with dtc := d.dtc.filter (fun x => !px x), lines := d.lines.filter fun l => !pl l }) s

/-- Pointers that a test names are gone from every walk cache (R178, R190). -/
def State.dropPointers (s : State) (p : Pointer → Bool) : State :=
  { s with homes := s.homes.map fun h => (h.1, { h.2 with walks := h.2.walks.filter fun w => !p w }) }

/-- Whether the pages that TLBI1 or TLBI2 names, `n` from `start` or every page where `n` is 0, overlap a range of bytes (R190). -/
def inPages (start n base size : Nat) : Bool := n == 0 || (decide (start < base + size) && decide (base < start + 4096 * n))
/-- Whether what a pointer covers overlaps the pages of TLBI1 or TLBI2. -/
def Pointer.overlaps (p : Pointer) (start n : Nat) : Bool := inPages start n (p.upper * levelSize p.level) (levelSize p.level)
/-- Whether the place of a stage-1 pointer was reached through a stage-2 leaf that the pages of TLBI2 overlap (R191). -/
def Pointer.reached (p : Pointer) (start n : Nat) : Bool := inPages start n (p.place / p.via * p.via) p.via

/-- Whether an invalidation of stage 2 removes a translation: of a lease of the partition, its page given by its RA (R190). -/
def State.gone2 (s : State) (part start n : Nat) (x : Xlat) : Bool :=
  x.lease != 0 && (s.leaseD x.lease).part == part && inPages start n x.ra x.span

/-- What an invalidation of stage 2 removes for the leases of a partition, its pages given by their RAs (R190, R191): translations,
lines of the core dies, written back before, and pointers read through a leaf it names. -/
def State.invalidate2 (s : State) (part start n : Nat) : State :=
  let mine := fun (l : Nat) => l != 0 && (s.leaseD l).part == part
  ((s.quiesce mine).dropXlat (s.gone2 part start n) (fun l => mine l.x.lease && inPages start n l.ra 64)).dropPointers
    fun p => (p.second && p.owner == part && p.overlaps start n) || (!p.second && mine p.owner && p.reached start n)

/-- TLBI1 (R189, R190): 0 DONE, 1 NORIGHT, 2 NOTARGET, 3 BADARG. Where several apply the rule gives no order: BADARG is first, then NORIGHT by
the level and the right S1, then NOTARGET, then NORIGHT for another partition's lease (DESIGN CHOICE; log entry 66). -/
def execTlbi1 (d a b : BitVec 5) (s : State) : Host.Outcome State Fault Refusal :=
  runSlot (do
    let t ← curM
    if t.cls != 2 || t.dom != 0#8 then faultM causePriv
    let start := (t.getX a).toNat
    let w := (t.getX b).toNat
    let s ← getS
    let lv := s.levelOf t
    let target := if bitsOf w 39 32 = 0 then t.lease else bitsOf w 39 32
    let st : Nat :=
      if start % 4096 != 0 || 2 ^ 47 ≤ start || 2 ^ 40 ≤ w then 3
      else if lv == 2 && (target != t.lease || !(s.leaseD t.lease).mask.getLsbD 2) then 1
      else if lv == 1 && !((s.partAt t.part).getD Partn.house).mask.getLsbD 2 then 1
      else match s.leaseAt target with
        | none => 2
        | some l => if lv == 1 && l.part != t.part then 1 else 0
    if st = 0 then
      let n := w % 2 ^ 32
      let gone := fun (x : Xlat) => x.lease == target && inPages start n (x.page * x.span) x.span
      modS fun s =>
        ((s.quiesce (fun l => l == target)).dropXlat gone (fun l => l.x.lease == target && inPages start n (l.line * 64) 64)).dropPointers
            fun p => !p.second && p.owner == target && p.overlaps start n
      let s ← getS
      removedM d (s.users fun _ _ x => x.any gone)
    else
      setXM d (BitVec.ofNat 64 st)
      return .seq) s

/-- TLBI2 (R189, R190): 0 DONE, 1 NORIGHT, 2 NOTARGET, 3 BADARG; in the order BADARG, NORIGHT, NOTARGET where several apply (DESIGN CHOICE; log
entry 66). -/
def execTlbi2 (d a b : BitVec 5) (s : State) : Host.Outcome State Fault Refusal :=
  runSlot (do
    let t ← curM
    if t.cls != 2 || t.dom != 0#8 then faultM causePriv
    let start := (t.getX a).toNat
    let w := (t.getX b).toNat
    let s ← getS
    let part := bitsOf w 35 32
    let st : Nat :=
      if start % 4096 != 0 || 12 * 2 ^ 48 ≤ start || 2 ^ 36 ≤ w || part == 0 then 3
      else if s.levelOf t != 0 then 1
      else match s.partAt part with
        | none => 2
        | some _ => 0
    if st = 0 then
      modS fun s => s.invalidate2 part start (w % 2 ^ 32)
      let s ← getS
      removedM d (s.users fun _ _ x => x.any (s.gone2 part start (w % 2 ^ 32)))
    else
      setXM d (BitVec.ofNat 64 st)
      return .seq) s

/-! ### MGMT -/

/-- MGMT (R73): the block is checked for a store and read; the slot is BLOCKED until the gaffer has performed it. -/
def execMgmt (d a : BitVec 5) (s : State) : Host.Outcome State Fault Refusal :=
  runSlot (do
    let t ← curM
    let s ← getS
    if s.levelOf t = 2 then faultM causePriv
    let ea := t.getX a
    let block ← accessM ea 64 true
    let pl ← accessM ea 64 false
    let blk ← loadM s.core s.slot pl 64
    modS fun s => { s with gaffer := s.gaffer ++ [{ level := s.levelOf t, part := t.part, lease := t.lease, blk := blk, fn := none,
                                                    who := some (s.core, s.slot),
                                                    asked := some (dieOf s.core, (s.dieAt (dieOf s.core)).inc) }] }
    throw (.block (.mgmt d block))) s

end Sys2Proof.Machine
end

