-- ==== Sys2Proof/Machine/Reset.lean ====
section
/-! DEFINITION. The end of what a lease holds: rings and queues discarded (R65, R379), the reset of a lease (R379, R349), and
pre-emption's switch of a quadrant (R63, R64, R377, R378). -/

namespace Sys2Proof.Machine

/-! ### Records in rings -/

/-- The record that begins at an entry of the cullet ring, read for the lease; `none` where a read fails. -/
def State.culletRec (s : State) (c lease i : Nat) : State × Option (List Byte) :=
  let l := s.lcoreAt lease c
  match s.runHw lease (hwRead c lease (l.culletDva i) 16) with
  | (s', none) => (s', none)
  | (s', some h) =>
    (List.range (recEntries h - 1)).foldl (fun (st : State × Option (List Byte)) k =>
      match st.2 with
      | none => st
      | some b => (match st.1.runHw lease (hwRead c lease (l.culletDva (i + 1 + k)) 16) with
        | (s2, some e) => (s2, some (b ++ e))
        | (s2, none) => (s2, none))) (s', some h)

/-- The records of the cullet ring, from an entry on: their number where a read fails is one an entry. -/
def State.culletRecs (s : State) (c lease : Nat) : Nat → Nat → Nat → State × List (Option (List Byte))
  | 0, _, _ => (s, [])
  | n + 1, i, left =>
    if left = 0 then (s, [])
    else match s.culletRec c lease i with
      | (s', some r) =>
        let (s2, rest) := s'.culletRecs c lease n (i + r.length / 16) (left - r.length / 16)
        (s2, some r :: rest)
      | (s', none) =>
        let (s2, rest) := s'.culletRecs c lease n (i + 1) (left - 1)
        (s2, none :: rest)

/-- The records of the ready ring, oldest first. -/
def LCore.readyRecs (l : LCore) : Nat → Nat → List (List Byte)
  | 0, _ => []
  | n + 1, i =>
    if l.rcount ≤ i then []
    else
      let k := recEntries (l.spadBytes (readyEntry (l.rhead + i)) 16)
      ((List.range k).flatMap fun j => l.spadBytes (readyEntry (l.rhead + i + j)) 16) :: l.readyRecs n (i + k)

/-- A record is discarded and counted (R65, R379). -/
def State.discardRec (c lease : Nat) (s : State) (r : Option (List Byte × Option RecFact)) : State :=
  match r with
  | some (b, f) => s.discardMsg (s.msgOfRec c lease b f)
  | none => s.countLease lease fun l => { l with dropped := l.dropped + 1 }

/-- Everything a lease's rings on a core hold is discarded and counted. -/
def State.discardRings (lease : Nat) (s : State) (c : Nat) : State :=
  let l := s.lcoreAt lease c
  let (s, cullet) := if l.cullsz = 0 then (s, []) else s.culletRecs c lease l.ccount l.chead l.ccount
  let unread := (cullet.filter (·.isNone)).map fun _ => none
  let kept := pairFacts (l.readyRecs l.rcount 0) l.readyFacts ++ pairFacts (cullet.filterMap id ++ l.latched.toList) l.culletFacts ++
    pairFacts l.pushes []
  l.saved.foldl State.discardMsg ((unread ++ kept.map some).foldl (State.discardRec c lease) s)

/-- A completion message for another device that its engine still holds is dropped and counted (R89, R379). -/
def State.discardAway (s : State) (r : FabReq) : State :=
  let s := s.countLease r.lease fun l => { l with dropped := l.dropped + 1 }
  if r.counted then s.addOpen r.tag (-1) else s

/-- The lease of what an engine holds: the sender's. -/
def Held.lease : Held → Nat
  | .token _ _ _ _ _ _ l _ => l
  | .message _ l _ _ => l
  | .upcall _ m => m.lease
  | .away r => r.lease

/-- A held completion is discarded: a message is counted. -/
def State.discardHeld (s : State) : Held → State
  | .token _ _ _ _ _ _ _ _ => s
  | .message m _ _ _ => s.discardMsg m
  | .upcall _ m => s.discardMsg m
  | .away r => s.discardAway r

/-- The messages of a lease in a core's queues and on their way to it are discarded and counted. -/
def State.discardQueues (lease : Nat) (s : State) (c : Nat) : State :=
  let k := s.coreAt c
  let mine := fun (m : Msg) => m.lease == lease
  let own := fun (h : Held) => h.lease == lease
  let gone := ([0, 1, 2].flatMap fun cls => (k.queue cls).filter mine) ++ k.carried.filter mine ++ k.transit.filter mine
  let k' := { k with inbound := k.inbound.map (fun q => (q.1, q.2.filter fun m => !mine m)), carried := k.carried.filter fun m => !mine m,
                     transit := k.transit.filter fun m => !mine m, held := k.held.filter fun h => !own h,
                     heldUp := k.heldUp.filter fun h => !own h, reserve := k.reserve.filter fun r => !mine r.2 }
  ((k.held ++ k.heldUp).filter own).foldl State.discardHeld (gone.foldl State.discardMsg (s.setCore c k'))

/-! ### Lease reset (R379) -/

/-- Cores that hold something of a lease: those with a core entry of their own. -/
def State.leaseCores (s : State) (lease : Nat) : List Nat :=
  let a : List Nat := s.cores.map fun (c : Nat × Core) => c.1
  let b : List Nat := (s.lcores.filter fun (e : Nat × LCore) => e.1 / 4096 == lease).map fun (e : Nat × LCore) => e.1 % 4096
  (a ++ b).eraseDups

/-- Step 1 on a core: its tasks are killed with no lease event, and what they stored is performed (R375). -/
def State.killLease (lease : Nat) (s : State) (c : Nat) : State :=
  let s := (List.range 8).foldl (fun s k =>
    let t := s.slotAt c k
    if t.isLive && t.lease == lease then s.killTask c k else s) s
  s.drainWhile c (fun e => e.lease == lease) (s.coreAt c).sb.length

/-- Step 1 at a home. Requests that the killed tasks have sent are performed first (R265, R375), and their notices are dropped and counted
in step 5; then the lease's parked continuations and waiting LDFs are removed, and what its collective engine holds for the lease. -/
def State.clearHome (lease : Nat) (s : State) (h : Nat) : State :=
  let s := s.flushHome (fun r => r.lease == lease) h (s.homeFuel h)
  let v := s.homeAt h
  let own := fun (x : Held) => x.lease == lease
  let s := s.setHome h { v with waits := v.waits.filter (fun w => w.lease != lease), outbox := v.outbox.filter (fun m => m.lease != lease),
                                held := v.held.filter fun x => !own x }
  (v.held.filter own).foldl State.discardHeld ((v.outbox.filter fun m => m.lease == lease).foldl State.discardMsg s)

/-- A collective engine sends ABORT on the control channel to every member of the group on another device (R308, R379, R404). -/
def State.sendAbort (s : State) (x : Coll) : State :=
  (s.collAway x).foldl (fun s m =>
    s.sendOut { vc := .control, node := m.1, id := kGroup x.cmd.desc, inc := (s.dieAt (dieOf x.core)).inc, status := x.cmd.n }) s

/-- The collectives of a lease: in their engines, or still queued in a copy engine. -/
def State.collsOf (s : State) (lease : Nat) : List Coll :=
  s.colls.filter (fun x => x.cmd.lease == lease) ++
    s.cores.flatMap fun k => (k.2.copyq.filter fun q => q.coll && q.lease == lease).map fun q => { core := k.1, cmd := q }

/-- Step 4: the lease's collectives end ABORTED, those of its peers on this device PEER_ABORT (R166). -/
def State.abortColls (s : State) (lease : Nat) : State :=
  let mine := s.collsOf lease
  let peers := s.colls.filter fun x => x.cmd.lease != lease && mine.any (s.sameColl x)
  let s : State := { s with colls := s.colls.filter fun x => x.cmd.lease != lease && !mine.any (s.sameColl x) }
  let s := mine.foldl (fun s x => ((s.setCopyStatus lease x.core x.cmd.id 6).sendAbort x).peerFailed x) s
  peers.foldl (fun s x => (s.endColl x 5).peerFailed x) (s.peerGone (fun p => p.made.isNone && mine.any fun x => s.peerOf x p) causeAper)

/-- What the lease has asked of other devices goes on, but is counted in none of its launches any more, and belongs to no copy of its; bytes that
its peers have sent it for a collective are dropped, and answered as refused (R89, R310, R379). -/
def State.releaseAsked (s : State) (lease : Nat) : State :=
  ({ s with fabric := listMapIf (fun r => r.lease == lease) (fun r => { r with counted := false, copyId := 0 }) s.fabric } : State).peerGone
    (fun p => p.holder == lease) causeAper

/-- Step 5 on a core: its engine queues, and the vector commands of its tasks that had begun. -/
def State.clearEngines (lease : Nat) (s : State) (c : Nat) : State :=
  let k := s.coreAt c
  s.setCore c { k with copyq := k.copyq.filter (fun q => q.lease != lease), vecq := k.vecq.filter (fun v => (k.slotAt v.slot).lease != lease), plb := k.plb.filter fun e => e.lease != lease }

/-- A frame is scrubbed: its words read zero and are FULL, and no gather stands in it any more (R142, R192); what was on its way to one
is answered LEASE (R279). -/
def State.scrubFrame (s : State) (pa : Nat) : State :=
  let base := pa / 4096 * 4096
  let within := fun (a : Nat) => a / 4096 == pa / 4096
  let gone := fun (r : HomeReq) => match r with
    | .gather w a (.contribute _ _ _ _ _) => if within a then .gather w a .gone else r
    | .gather w a .abandon => if within a then .gather w a .gone else r
    | .remoteGather o l a _ => if within a then .remoteGather o l a .gone else r
    | _ => r
  let s : State := { s with gathers := s.gathers.filter (fun g => !within g.1),
                            homes := s.homes.map fun h => (h.1, { h.2 with reqs := h.2.reqs.map gone }) }
  let s := s.homeWrite base (List.replicate 4096 0#8)
  (List.range 512).foldl (fun s i => s.setFe (base + 8 * i) 1) s

/-- The valid stage-2 leaves below a table page: place, RA, PA and bytes of each (R170 to R173). The window of the RA that a leaf maps is its
own (R171, R174). A malformed entry names nothing. -/
def State.leaves2 (s : State) : Nat → Nat → Nat → Nat → List (Nat × Nat × Nat × Nat)
  | 0, _, _, _ => []
  | n + 1, tbl, level, ra => (List.range 512).flatMap fun i =>
    let pe := tbl + 8 * i
    let e := leNat (s.homeRead pe 8)
    let a := ra + i * levelSize level
    if !teV e || teMalformed e level then []
    else if teL e then [(pe, tePl e * 2 ^ 48 + a, teOut e, levelSize level)]
    else s.leaves2 n (teOut e) (level + 1) a

/-- A state, and the slots that are in an access still which used what has been removed. -/
abbrev Waiting := State × List (Nat × Nat × BitVec 8)

/-- A frame is made unreachable: every stage-2 leaf of a partition that names it is cleared, and stage 2 is invalidated over each RA that
mapped it (R192, step 1), as TLBI2 does it; the accesses that TLBI2 waits for are added to those that the release waits for (R190). -/
def unmapFrame (s : Waiting) (pa : Nat) : Waiting :=
  s.1.parts.foldl (fun s p =>
    ((s.1.leaves2 4 p.2.s2root 0 0).filter fun l => decide (l.2.2.1 ≤ pa) && decide (pa < l.2.2.1 + l.2.2.2)).foldl (fun s l =>
      let t := (s.1.homeWrite l.1 (leBytes 8 0)).invalidate2 p.1 l.2.1 (l.2.2.2 / 4096)
      (t, s.2 ++ t.users fun _ _ x => x.any (t.gone2 p.1 l.2.1 (l.2.2.2 / 4096)))) s) s

/-- The frames of a reset lease are released, each made unreachable before any is scrubbed (R192, R379). While an access is under way that used a
translation removed with them, they wait to be scrubbed (R190; log entry 36). -/
def State.releaseFrames (s : State) (frames : List Nat) : State :=
  let r := frames.foldl unmapFrame (s, [])
  if r.1.inUse r.2 then { r.1 with releasing := r.1.releasing ++ [{ frames := frames, users := r.2 }] } else frames.foldl State.scrubFrame r.1

/-- What a lease has on its cores after a reset (R379, step 6): what it has at its creation, but that a core whose quadrant it holds
keeps the statuses of the copies that have ended, among them the ABORTED ones of step 4, and goes on with its copy IDs; a command that step 5
dropped has no status any more (R162, R165; log entry 57). -/
def State.freshCores (s : State) (lease : Nat) : Tab LCore :=
  s.lcores.filterMap fun e =>
    if e.1 / 4096 != lease then some e
    else if !e.2.copySt.isEmpty && s.holderOf (e.1 % 4096) == some lease then
      some (e.1, { (s.leaseD lease).freshCore with copySt := e.2.copySt.filter fun x => x.2 != 0, copyId := e.2.copyId })
    else none

/-- The reset of a lease (R379). -/
def State.resetLease (s : State) (lease : Nat) : State :=
  match s.leaseAt lease with
  | none => s
  | some _ =>
    let cs := s.leaseCores lease
    let homes := List.range Config.dies
    -- steps 1 and 2
    let s := cs.foldl (State.killLease lease) s
    let s := homes.foldl (State.clearHome lease) s
    let s := cs.foldl (State.discardQueues lease) s
    let s := cs.foldl (State.discardRings lease) s
    let s : State := { s with launches := s.launches.filter (fun l => l.2.lease != lease), gangs := s.gangs.filter fun g => g.2.lease != lease }
    -- step 3
    let s : State := { s with gathers := s.gathers.map fun g => if g.2.1 == lease then (g.1, (lease, true)) else g }
    -- step 4
    let s := (s.abortColls lease).releaseAsked lease
    -- step 5
    let s := cs.foldl (State.clearEngines lease) s
    let late := (s.notices.filter fun n => n.who.lease == lease).length
    let s := ({ s with notices := s.notices.filter fun n => n.who.lease != lease } : State).countLease lease fun l => { l with stale := l.stale + late }
    let s := (s.dropXlat (fun x => x.lease == lease) (fun l => l.x.lease == lease)).dropPointers fun p => !p.second && p.owner == lease
    -- step 6
    let s : State := { s with
      dies := s.dies.map (fun d => (d.1, { d.2 with deltas := d.2.deltas.filter (fun e => e.lease != lease),
                                                    trackers := d.2.trackers.filter fun t => t.lease != lease })),
      lcores := s.freshCores lease, rows := s.rows.filter fun r => r.1 / 256 != lease }
    let frames := (s.leaseD lease).frames
    let s := s.countLease lease fun l => { l with regions := [], wdl := 0xFFFFFFFF#32, kept := [], collN := [], frames := [] }
    -- step 7
    s.releaseFrames frames

/-! ### Pre-emption (R377) -/

/-- Cores of a quadrant. -/
def quadCores (q : Nat) : List Nat := (List.range 128).map (128 * q + ·)

/-- The scopes that the spatial fields of a launch's identifiers still to be sent select, with one quadrant taken as eligible (R85). The
identifiers of a spatial value follow each other in the enumeration, so the values still to come are those from the next identifier's on. -/
def State.scopesLeft (s : State) (l : Launch) (q : Nat) : List (Nat × Nat) :=
  let fs := hdrUsed l.hdr
  let spatial := fs.takeWhile fun f => decide (f.2.2 < 4)
  let each := ((fs.drop spatial.length).filter fun f => f.2.2 != 4).foldl (fun n f => n * f.2.1) 1
  let quads := (List.range 32).filter fun p => p == q || (s.quadAt p).names l.lease
  let values := spatial.map (·.2.1)
  ((List.range values.prod).drop (l.next / max 1 each)).filterMap fun i => scopeOf quads (0, 4096) (spatial.zip (idValues values i))

/-- Whether a launch has an identifier to send that a core of a quadrant may get (R63): one of a serial group that is bound there, or one
whose scope takes in the quadrant. -/
def State.launchFor (s : State) (l : Launch) (q : Nat) : Bool :=
  !l.completed && !l.distributed &&
  (l.groups.any (fun g => quadOf g.2.1 == q && decide (g.2.2.2.2 + 1 < seqCount (hdrUsed l.hdr))) ||
    (decide (l.next < groupCount (hdrUsed l.hdr)) &&
      (s.scopesLeft l q).any fun c => decide (c.1 < 128 * q + 128) && decide (128 * q < c.1 + c.2)))

/-- Whether a lease has work for a quadrant (R63). -/
def State.hasWork (s : State) (lease q : Nat) : Bool :=
  ((quadCores q).any fun c =>
    let l := s.lcoreAt lease c
    let k := s.coreAt c
    l.ccount != 0 || l.rcount != 0 || l.latched.isSome || !l.saved.isEmpty ||
    (k.transit ++ [0, 1, 2].flatMap fun cls => k.queue cls).any fun m => m.lease == lease) ||
  s.launches.any fun l => l.2.lease == lease && s.launchFor l.2 q

/-- The accounts that a lease draws on: those of its live launches, else its default account (R67). R63 speaks of one budget account for the
quadrant without naming it: any of these counts (log entry 64). -/
def State.accountsOf (s : State) (lease : Nat) : List Nat :=
  let a := (s.launches.filter fun l => l.2.lease == lease && !l.2.completed).map fun l => l.2.account
  if a.isEmpty then [(s.leaseD lease).account] else a
/-- EXH of an account (R66). -/
def State.exhausted (s : State) (a : Nat) : Bool := (s.accountAt a).exh
/-- An entry's lease is skipped (R63). -/
def State.skipped (s : State) (lease q : Nat) : Bool := (s.accountsOf lease).any s.exhausted || !s.hasWork lease q

/-- The other quadrant of a fused pair: same owner, identical schedules (R61, R64). -/
def State.fusedWith (s : State) (q : Nat) : Option Nat :=
  let p := if q % 2 = 0 then q + 1 else q - 1
  let a := s.quadAt q
  let b := s.quadAt p
  if a.owner.isSome && a.owner == b.owner && a.sched == b.sched then some p else none

/-- The quadrants that pass on together at a slice end of one (R64): a fused pair as one, where each has the same schedule to come, else each
with its own; a quadrant that is pre-empted already, or being taken back, is not among them. -/
def State.endsWith (s : State) (q : Nat) : List (List Nat) :=
  match s.fusedWith q with
  | none => [[q]]
  | some p =>
    let v := s.quadAt p
    if v.preempt || v.taking then [[q]] else if v.next == (s.quadAt q).next then [[q, p]] else [[q], [p]]

/-- Length in clk of the current entry. -/
def Quad.slice (v : Quad) : Nat := (v.sched.getD v.idx (0, 0)).2 * 1024

/-- The quadrant passes to an entry of its schedule: at once where its lease is the holder, else by pre-emption. -/
def State.passTo (s : State) (q : Nat) (sched : List (Nat × Nat)) (i : Nat) : State :=
  let v := s.quadAt q
  let lease := (sched.getD i (0, 0)).1
  s.setQuad q { v with sched := sched, next := none, idx := i, clk := 0, preempt := v.preempt || v.holder != some lease }

/-- The schedule of a quadrant's next slice, and the entry after which the choice begins (R62, R63). -/
def Quad.upcoming (v : Quad) : List (Nat × Nat) × Nat := (v.next.getD v.sched, if v.next.isSome then 0 else v.idx + 1)

/-- The entry that some quadrants pass to: the first, from the one after the current entry of the first of them, that is not skipped on every
one of them; `none` where every entry is skipped. -/
def State.nextOf (s : State) (qs : List Nat) : Option Nat :=
  let (sched, start) := (s.quadAt (qs.headD 0)).upcoming
  ((List.range sched.length).map fun k => (start + k) % sched.length).find? fun i =>
    qs.any fun q => !s.skipped (sched.getD i (0, 0)).1 q

/-- Every entry is skipped: the quadrant stays with its holder. A new schedule takes effect all the same; where it names the holder, its
entry is the current one, else its first is the next to be tried (R63; log entry 64). -/
def Quad.stay (v : Quad) : Quad :=
  match v.next with
  | none => { v with clk := 0 }
  | some sched => { v with sched := sched, next := none, clk := 0,
                           idx := (listIndex (fun e => some e.1 == v.holder) sched).getD (sched.length - 1) }

/-- A slice end of one quadrant, or of a fused pair together (R62 to R64). -/
def State.endSlice (s : State) (qs : List Nat) : State :=
  let sched := (s.quadAt (qs.headD 0)).upcoming.1
  match s.nextOf qs with
  | some i => qs.foldl (fun s q => s.passTo q sched i) s
  | none => qs.foldl (fun s q => s.setQuad q (s.quadAt q).stay) s

/-- SLICE_END (R62). -/
def State.sliceEnd (s : State) (q : Nat) : State :=
  let v := s.quadAt q
  if v.preempt || v.taking || v.sched.isEmpty || decide (v.clk < v.slice) then s
  else (s.endsWith q).foldl State.endSlice s

/-- R69: the holder is pre-empted at once, before its slice is over, and the quadrant of a fused pair with it; where every entry is skipped
it stays. -/
def State.preemptNow (s : State) (q : Nat) : State :=
  (s.endsWith q).foldl (fun s qs => match s.nextOf qs with
    | some i => qs.foldl (fun s p => s.passTo p (s.quadAt p).upcoming.1 i) s
    | none => s) s

/-- Whether nothing of the holder runs any more on a quadrant (step 3). An engine-fault upcall that is held for another lease waits for that lease's
next slice (R95). -/
def State.quiet (s : State) (q : Nat) : Bool :=
  (quadCores q).all fun c =>
    let k := s.coreAt c
    (k.slots.all fun t => !t.2.isLive) && k.reserve.all (fun r => r.1 == 17) && k.copyq.isEmpty && k.carried.isEmpty &&
    k.heldUp.all fun h => (s.quadAt q).holder != some h.lease

/-- Step 4 on a core. -/
def State.settleCore (s : State) (c : Nat) : State := (s.finishVecAll c).drainCore c
/-- Accepted passes of the gangs on a quadrant complete (step 4). -/
def State.settlePasses (s : State) (q : Nat) : State :=
  s.gangs.foldl (fun s g => if g.2.rows.any fun r => r / 8 == q then (List.range g.2.passes.length).foldl (fun s _ => s.passInTurn g.1 s.passFuel) s else s) s

/-- A ready-ring record goes to the cullet ring ahead of its head; the DVA of the entry that fails where it cannot (R333, R377). -/
def State.spillFront (s : State) (c lease : Nat) (r : List Byte) (fact : Option RecFact) : State × Option Nat :=
  let l := s.lcoreAt lease c
  let n := r.length / 16
  if l.cullsz = 0 then (s, some l.cull.toNat)
  else if l.cullsz < l.ccount + n ∨ l.latched.isSome then (s, some (l.culletDva (l.chead + l.ccount)))
  else
    let head := (l.chead + l.cullsz - n % l.cullsz) % l.cullsz
    match s.writeRec c lease head r n with
    | (s', some i) => (s', some (l.culletDva i))
    | (s', none) =>
      let l := s'.lcoreAt lease c
      (s'.setLCore lease c { l.setCullet l.cfault (l.ccount + n) head with culletFacts := fact.toList ++ l.culletFacts }, none)

/-- A record that cannot be spilled stands in the spill latch, or, where that is held, its message with the saved state (R333). -/
def State.keepRec (s : State) (c lease : Nat) (r : List Byte) (f : Option RecFact) (dva : Nat) (front : Bool) : State :=
  let l := s.lcoreAt lease c
  if l.latched.isSome then
    let m := s.msgOfRec c lease r f
    s.setLCore lease c { l with saved := if front then m :: l.saved else l.saved ++ [m] }
  else
    let l := (l.setCullet (if l.cullsz = 0 ∨ l.cullsz < l.ccount + r.length / 16 then 1 else 2) l.ccount l.chead).setStuck r true
    s.setLCore lease c { l with latched := some r, latch := BitVec.ofNat 16 (recType r * 256 + 1), latchDva := dva,
                                culletFacts := l.culletFacts ++ f.toList }

/-- A message put in its place among others that arrived (R377). -/
def insertStamp (m : Msg) : List Msg → List Msg
  | [] => [m]
  | n :: t => if m.stamp < n.stamp then m :: n :: t else n :: insertStamp m t
/-- Messages in the order of their arrival. -/
def byStamp (ms : List Msg) : List Msg := ms.foldl (fun l m => insertStamp m l) []

/-- Whether an entry of the ready ring, or a control word, holds poison (R381). -/
def LCore.readyBad (l : LCore) : Bool := l.ringBad || (List.range l.rcount).any fun i => l.spadPoisoned (readyEntry (l.rhead + i)) 16

/-- Step 5 on a core. A poisoned ring is consumed: its lease is reset, and nothing of it is written (R381). -/
def State.saveRings (lease : Nat) (s : State) (c : Nat) : State :=
  let l := s.lcoreAt lease c
  if l.readyBad then s.poisoned lease else
  let recs := pairFacts (l.readyRecs l.rcount 0) l.readyFacts
  let s := s.setLCore lease c { l.setReady l.rhead 0 with readyFacts := [], headEntry := none }
  let s := recs.reverse.foldl (fun s r => match s.spillFront c lease r.1 r.2 with
    | (s', none) => s'
    | (s', some dva) => s'.keepRec c lease r.1 r.2 dva true) s
  let k := s.coreAt c
  let ms := byStamp ([0, 1, 2].flatMap fun cls => k.queue cls)
  let s := s.setCore c { k with inbound := [] }
  ms.foldl (fun s m =>
    let l := s.lcoreAt lease c
    if m.poison then (s.discardMsg m).poisoned m.lease
    else if l.latched.isSome then s.setLCore lease c { l with saved := l.saved ++ [m] }
    else match s.trySpill c lease (msgRec m) with
      | (s', 0, _) =>
        let l := s'.lcoreAt lease c
        s'.setLCore lease c { l with culletFacts := l.culletFacts ++ [m.fact] }
      | (s', _, dva) => s'.keepRec c lease (msgRec m) (some m.fact) dva false) s

/-- Declared granules of the scratch map (R48). -/
def LCore.declared (l : LCore) (g : Nat) : Bool := (BitVec.ofNat 64 (l.readSpad Config.scratchMap 8)).getLsbD g
/-- Undeclared granules read zero after a restore (R48, R378). -/
def LCore.dropGranules (l : LCore) : LCore :=
  { l with spad := l.spad.filter fun e => l.declared (e.1 / 4096), spadPoison := l.spadPoison.filter fun w => l.declared (w * 8 / 4096) }
/-- Credits for the copy of a core's image, saved or restored (R378). -/
def LCore.imageCredits (l : LCore) : Nat :=
  (((List.range 64).filter l.declared).length * 4096 + 2048 + if l.changed then 141312 else 0) / 64

/-- Step 6 on a core. -/
def State.saveImage (lease : Nat) (s : State) (c : Nat) : State :=
  let l := s.lcoreAt lease c
  (s.charge (s.leaseD lease).account l.imageCredits).setLCore lease c l.dropGranules

/-- Step 7 on a core: the image is restored, kept records return to the queues, a held latch raises its upcall again, a kept
event takes its entry (R333, R417). -/
def State.restoreImage (lease : Nat) (s : State) (c : Nat) : State :=
  let l := s.lcoreAt lease c
  let s := s.charge (s.leaseD lease).account l.imageCredits
  let s := s.setLCore lease c { l with changed := false, saved := [] }
  let k := s.coreAt c
  let s := s.setCore c { k with last := [], transit := l.saved ++ k.transit }
  match l.latched with
  | some r => s.ringUpcall c lease l.cfault l.latchDva (recType r) (recTag r)
  | none => s

/-- A kept event of the quadrant's new holder is raised (R417). -/
def State.raiseKept (s : State) (lease q : Nat) : State :=
  match tabFind (s.leaseD lease).kept q with
  | none => s
  | some m =>
    let s := s.countLease lease fun l => { l with kept := tabDel l.kept q }
    let k := s.coreAt m.core
    match tabFind k.reserve 17 with
    | none => s.setCore m.core { k with reserve := tabPut k.reserve 17 { m with fresh := true } }
    | some _ => s.countLease lease fun l => { l with lost := l.lost + 1 }

/-- A 0xF5 event that still waits at the switch is kept with the lease's saved state (R417). -/
def State.keepEvents (lease q : Nat) (s : State) (c : Nat) : State :=
  let k := s.coreAt c
  match tabFind k.reserve 17 with
  | none => s
  | some m =>
    let s := s.setCore c { k with reserve := tabDel k.reserve 17 }
    match tabFind (s.leaseD lease).kept q with
    | none => s.countLease lease fun l => { l with kept := tabPut l.kept q m }
    | some _ => s.countLease lease fun l => { l with lost := l.lost + 1 }

/-- R65: a partition's leases lose what they hold for a quadrant. -/
def State.loseQuad (s : State) (part q : Nat) : State :=
  let ls := (s.leases.filter fun l => l.2.part == part).map (·.1)
  let s := ls.foldl (fun s l => (quadCores q).foldl (fun s c =>
    if (tabFind s.lcores (lcoreKey l c)).isSome then State.discardQueues l (State.discardRings l s c) c else State.discardQueues l s c) s) s
  { s with lcores := s.lcores.filter (fun e => !(ls.contains (e.1 / 4096) && e.1 % 4096 / 128 == q)),
           rows := s.rows.filter (fun r => !(ls.contains (r.1 / 256) && r.1 % 256 / 8 == q)),
           leases := s.leases.map fun l => if l.2.part == part then (l.1, { l.2 with kept := tabDel l.2.kept q }) else l }

/-- A quadrant that belongs to no partition. -/
def Quad.ungranted : Quad :=
  { owner := none, holder := none, sched := [], next := none, idx := 0, clk := 0, preempt := false, taking := false, throttled := [] }

/-- The end of the pre-emption of one quadrant (R377, R65). Where no schedule is in force, one that waits is the quadrant's (R63). -/
def State.switchQuad (s : State) (q : Nat) : State :=
  let v := s.quadAt q
  let s := s.settlePasses q
  let s := match v.holder with
    | none => s
    | some l =>
      let s := (quadCores q).foldl State.settleCore s
      let s := (quadCores q).foldl (State.saveRings l) s
      let s := (quadCores q).foldl (State.keepEvents l q) s
      (quadCores q).foldl (State.saveImage l) s
  if v.taking then (s.loseQuad (v.owner.getD 0) q).setQuad q Quad.ungranted
  else
    let v := if v.sched.isEmpty then { v with sched := v.next.getD [], next := none, idx := 0 } else v
    match v.sched[v.idx]? with
    | none => s.setQuad q { v with holder := none, preempt := false, clk := 0 }
    | some (l, _) =>
      let s := s.setQuad q { v with holder := some l, preempt := false, clk := 0, throttled := [] }
      let s := (quadCores q).foldl (State.restoreImage l) s
      s.raiseKept l q

/-- PREEMPTION_SWITCH (R377): a fused pair switches both its quadrants at once (R64). -/
def State.preemptionSwitch (s : State) (q : Nat) : State :=
  if !(s.quadAt q).preempt || !s.quiet q then s
  else match s.fusedWith q with
    | some p => if (s.quadAt p).preempt then (if s.quiet p then (s.switchQuad q).switchQuad p else s) else s.switchQuad q
    | none => s.switchQuad q

/-- SLICE_END (R62): the quadrant `a`. -/
def execSliceEnd (s : State) : Host.Outcome State Fault Refusal :=
  if s.ev.a < 32 then runEvent (fun s => s.sliceEnd s.ev.a) s else .fault (.noSuchUnit s.ev.a)
/-- PREEMPTION_SWITCH (R377): the quadrant `a`. -/
def execPreemptionSwitch (s : State) : Host.Outcome State Fault Refusal :=
  if s.ev.a < 32 then runEvent (fun s => s.preemptionSwitch s.ev.a) s else .fault (.noSuchUnit s.ev.a)

end Sys2Proof.Machine
end

