-- ==== Sys2Proof/Machine/Windows.lean ====
section
/-! DEFINITION. The host's windows (R78, R79, R394 to R396): launch slot, command window, event acknowledge, and the answer of a
command (R73, R395). -/

namespace Sys2Proof.Machine

/-- Functions that exist: a PF on each link, 1,024 VF IDs (R59). -/
def HostFn.exists : HostFn → Bool
  | .pf l => decide (l < 2)
  | .vf i => decide (i < 1024)

def HostFn.isVf : HostFn → Bool
  | .pf _ => false
  | .vf _ => true

/-- An event of a function that does not exist names nothing. -/
def runFn (s : State) (f : State → State) : Host.Outcome State Fault Refusal :=
  if s.ev.fn.exists then runEvent f s else .fault (.noSuchUnit (State.windowKey s.ev.fn))

/-! ### The launch slot -/

/-- A write to the launch slot (R78, R79). -/
def State.launchWrite (s : State) (fn : HostFn) (off : Nat) (bytes : List Byte) : State :=
  if !s.up || off != 0 || bytes.length != 64 then s.refuseWrite fn
  else match s.submitter fn with
    | none => s.refuseWrite fn
    | some lease =>
      let w := s.windowAt fn
      if Config.waitingHeaders ≤ w.headers.length then s.refuseHeader lease (some fn) bytes 4
      else s.setWindow fn { w with headers := w.headers ++ [bytes] }

/-- LAUNCH_SUBMIT (R78): a posted write of `bytes` at offset `a` of the launch slot of `fn`. -/
def execLaunchSubmit (s : State) : Host.Outcome State Fault Refusal :=
  runFn s fun s => s.launchWrite s.ev.fn s.ev.a s.ev.bytes

/-! ### The event-acknowledge register (R372, R396) -/

/-- Whether a slot is parked with a generation by a stage-2 fault, and the fault's cause. -/
def Slot.stage2Cause (t : Slot) (g : BitVec 8) : Option Nat :=
  match t.st with
  | .parked (.stage2 f) => if t.gen = g then some f else none
  | _ => none

/-- RESOLVE and KILL of the house (R372): an answer that comes too late is counted as a stale notice of the slot's lease. -/
def State.evack (s : State) (kill : Bool) (c sid : Nat) : State :=
  let k := sid % 256
  let t := s.slotAt c k
  match (if k < 8 then t.stage2Cause (BitVec.ofNat 8 (sid / 256)) else none) with
  | none => s.countStale t.lease
  | some f => if kill then s.killReport c k 4 f else s.setSlot c k t.resumed

/-- A write of the register: on a VF it is discarded and counted. -/
def State.evackWrite (s : State) (fn : HostFn) (kill : Bool) (c sid : Nat) : State :=
  match fn with
  | .pf _ => if s.up then s.evack kill c sid else s.refuseWrite fn
  | .vf _ => s.refuseWrite fn

/-- EVACK_RESOLVE (R372): through `fn`, the slot with `sid` `b` of core `a`. -/
def execEvackResolve (s : State) : Host.Outcome State Fault Refusal :=
  runFn s fun s => s.evackWrite s.ev.fn false (s.ev.a % Config.cores) (s.ev.b % 65536)
/-- EVACK_KILL (R372): through `fn`, the slot with `sid` `b` of core `a`. -/
def execEvackKill (s : State) : Host.Outcome State Fault Refusal :=
  runFn s fun s => s.evackWrite s.ev.fn true (s.ev.a % Config.cores) (s.ev.b % 65536)

/-! ### Other registers (R394, R395) -/

/-- The level, partition and lease of a window's binding (R60); level 3 for an unbound VF. -/
def State.bindingOf (s : State) (fn : HostFn) : Nat × Nat × Nat :=
  match fn, (s.windowAt fn).bound with
  | .pf _, _ => (0, 0, 0)
  | .vf _, some (true, p) => (1, p, ((tabFind s.parts p).map (·.control)).getD 0)
  | .vf _, some (false, l) => (2, (s.leaseD l).part, l)
  | .vf _, none => (3, 0, 0)

/-- A write to CDOOR (R395). -/
def State.doorbell (s : State) (fn : HostFn) : State :=
  let w := s.windowAt fn
  if w.busy then s.refuseWrite fn
  else
    let (level, part, lease) := s.bindingOf fn
    let s := s.setWindow fn { w with busy := true }
    { s with gaffer := s.gaffer ++ [{ level := level, part := part, lease := lease, blk := w.cmd, fn := some fn, who := none }] }

/-- A write to a register of a window other than the launch slot. Until bring-up is complete every register refuses and counts it (R407);
a write to an offset that R394 does not list is discarded, and so is one that gives EVACK another size, which on a VF is counted as any write
to it there is (R396). -/
def State.registerWrite (s : State) (fn : HostFn) (off : Nat) (bytes : List Byte) : State :=
  let w := s.windowAt fn
  let n := bytes.length
  if !s.up then s.refuseWrite fn
  else if off < 0x40 then s.launchWrite fn off bytes
  else if off + n ≤ 0x80 then (if w.busy then s.refuseWrite fn else s.setWindow fn { w with cmd := putAt w.cmd (off - 0x40) bytes })
  else if 0x80 ≤ off ∧ off < 0x88 then s.doorbell fn
  else if 0x90 ≤ off ∧ off + n ≤ 0x98 then
    s.setWindow fn { w with irq := leNat (putAt (leBytes 8 w.irq) (off - 0x90) bytes) % 2 ^ 13 }
  else if fn.isVf && decide (off < 0xA8) && decide (0xA0 < off + n) then s.refuseWrite fn
  else if off = 0xA0 ∧ n = 8 then
    let v := leNat bytes
    let op := bitsOf v 63 62
    if bitsOf v 61 28 != 0 || op == 0 || op == 3 then s.refuseWrite fn
    else s.evackWrite fn (op == 2) (bitsOf v 27 16) (bitsOf v 15 0)
  else s

/-- WINDOW_REGISTER_WRITE (R394): a write of `bytes` at offset `a` of the window of `fn`. -/
def execWindowRegisterWrite (s : State) : Host.Outcome State Fault Refusal :=
  runFn s fun s => s.registerWrite s.ev.fn s.ev.a s.ev.bytes

/-- What a read of 8 bytes of a window gives (R394): an offset that is not listed, and a write-only register, read 0. -/
def State.windowRead (s : State) (fn : HostFn) (off : Nat) : Word :=
  let w := s.windowAt fn
  if 0x40 ≤ off ∧ off < 0x80 then BitVec.ofNat 64 (leNat ((w.cmd.drop (off - 0x40)).take 8))
  else if off = 0x88 then BitVec.ofNat 64 ((if w.busy then 2 ^ 63 else 0) + w.cstat % 256)
  else if off = 0x90 then BitVec.ofNat 64 w.irq
  else if off = 0x98 then BitVec.ofNat 64 w.refused
  else if off = 0xA8 then BitVec.ofNat 64 w.headers.length
  else 0#64

/-! ### The answer of a command -/

/-- A place some bytes further in the same block. -/
def Place.plus : Place → Nat → Place
  | .spad off, n => .spad (off + n)
  | .mem a x, n => .mem (a + n) x

/-- MGMT completes: words 1 to 7 are stored where the command returns data, then the status (R73). -/
def State.answerMgmt (s : State) (c k st : Nat) (data : Option (List Byte)) : State :=
  match (s.slotAt c k).st with
  | .blocked (.mgmt d block) =>
    let s := match data with
      | some bs => execM (storeM c k (block.plus 8) bs) s
      | none => s
    let t := (s.slotAt c k).setX d (BitVec.ofNat 64 st)
    s.setSlot c k ((t.complete .seq).goesOn t.pc)
  | _ => s

/-- A window's command is done (R395). -/
def State.answerWindow (s : State) (fn : HostFn) (st : Nat) (data : Option (List Byte)) : State :=
  let w := s.windowAt fn
  let cmd := match data with
    | some bs => w.cmd.take 8 ++ bs
    | none => w.cmd
  let s := s.setWindow fn { w with cmd := cmd, cstat := st, busy := false }
  if w.irq / 2 % 2 = 1 then s.windowIrq fn else s

/-- A command is done. An answer to a die that has been reset since it asked carries its old incarnation, and is dropped and counted there
(R312). -/
def State.answer (s : State) (g : GafferCmd) (st : Nat) (data : Option (List Byte)) : State :=
  let late := fun (a : Nat × BitVec 3) => a.2 != (s.dieAt a.1).inc
  if g.asked.any late then s.staleResponse ((g.asked.map (·.1)).getD 0)
  else match g.fn, g.who with
  | some fn, _ => s.answerWindow fn st data
  | none, some (c, k) => s.answerMgmt c k st data
  | none, none => s

end Sys2Proof.Machine
end

