-- ==== Sys2Proof/Machine/Gaffer.lean ====
section
/-! DEFINITION. The gaffer's commands (R54 to R65, R73 to R76), but for STATEWIN: each performs the oldest command that waits,
where that is one of its own. -/

namespace Sys2Proof.Machine

/-! ### Command blocks (R74) -/

def GafferCmd.word (g : GafferCmd) (i : Nat) : Nat := leNat ((g.blk.drop (8 * i)).take 8)
def GafferCmd.code (g : GafferCmd) : Nat := bitsOf (g.word 0) 7 0
def GafferCmd.partField (g : GafferCmd) : Nat := bitsOf (g.word 0) 19 16
def GafferCmd.leaseField (g : GafferCmd) : Nat := bitsOf (g.word 0) 27 20

/-- A command's outcome: refused with a status, or performed, with return data where it gives some. -/
abbrev Cmd := Except (Nat × Option (List Byte)) (State × Option (List Byte))
/-- A check: the status of a refusal where it fails. -/
def need (b : Bool) (st : Nat) : Except (Nat × Option (List Byte)) Unit := if b then pure () else throw (st, none)

/-- The issuer's mask (R56, R57). -/
def State.issuerMask (s : State) (g : GafferCmd) : BitVec 16 :=
  match g.level with
  | 0 => 0x0FFF#16
  | 1 => ((tabFind s.parts g.part).map (·.mask)).getD 0
  | _ => ((s.leaseAt g.lease).map (·.mask)).getD 0

/-- Whether the issuer is still there (R59, R73). -/
def State.issuerThere (s : State) (g : GafferCmd) : Bool :=
  match g.level with
  | 0 => true
  | 1 => (s.partAt g.part).isSome
  | _ => (s.leaseAt g.lease).isSome

/-- The targets that word 0 names, but for an ID that the command creates: within the issuer's level (NORIGHT), then existing (NOTARGET). At
level 2 the lease itself is the only target (R60, R74). -/
def State.targetsOk (s : State) (g : GafferCmd) (newLease newPart : Bool) : Except (Nat × Option (List Byte)) Unit := do
  if g.partField != 0 && !newPart then
    need (g.level == 0 || (g.level == 1 && g.partField == g.part)) 1
    need (s.partAt g.partField).isSome 2
  if g.leaseField != 0 && !newLease then
    need (g.level != 2 || g.leaseField == g.lease) 1
    match s.leaseAt g.leaseField with
    | none => throw (2, none)
    | some l => need (g.level != 1 || l.part == g.part) 1

/-- What every command checks first: its issuer (NOTARGET), its level and class (NORIGHT), word 0 (BADARG), then the targets in word 0 (R57,
R59, R60, R73, R74). -/
def State.mayRun (s : State) (g : GafferCmd) (levels : Nat) (cls : Option Nat) (newLease newPart : Bool := false) :
    Except (Nat × Option (List Byte)) Unit := do
  need (s.issuerThere g) 2
  need (decide (g.level ≤ levels)) 1
  match cls with
  | some b => need ((s.issuerMask g).getLsbD b) 1
  | none => pure ()
  need (bitsOf (g.word 0) 63 28 == 0 && bitsOf (g.word 0) 15 8 == 0 && g.leaseField != 255) 3
  s.targetsOk g newLease newPart

/-- The lease that a command names; 0 names the issuing lease (log entry 22). -/
def State.targetLease (s : State) (g : GafferCmd) : Except (Nat × Option (List Byte)) (Nat × Lease) := do
  let id := if g.leaseField = 0 then g.lease else g.leaseField
  need (g.level != 2 || id == g.lease) 1
  match s.leaseAt id with
  | none => throw (2, none)
  | some l =>
    need (g.level != 1 || l.part == g.part) 1
    return (id, l)

/-- The partition that a command names; 0 names the issuer's own. -/
def State.targetPart (s : State) (g : GafferCmd) : Except (Nat × Option (List Byte)) (Nat × Partn) := do
  let id := if g.partField = 0 then g.part else g.partField
  need (g.level == 0 || id == g.part) 1
  match s.partAt id with
  | none => throw (2, none)
  | some p => return (id, p)

/-- A command whose resets released frames that still wait answers when the last of them is scrubbed. The gaffer performs other commands in the
meantime, as a MGMT among the accesses waited for must be (DESIGN CHOICE; log entry 36). -/
def State.answerLater (s : State) (n : Nat) (g : GafferCmd) : State :=
  let new := s.releasing.drop n
  { s with releasing := s.releasing.take n ++ [{ frames := new.flatMap (·.frames), users := new.flatMap (·.users), cmd := some g }] }

/-- A command whose queue entry is poisoned is consumed: it is not performed, and the issuing lease is reset (R381, R384). Its status is BADARG: R74
names none (DESIGN CHOICE; log entry 69). -/
def State.badCommand (s : State) (g : GafferCmd) : State := (s.answer g 3 none).poisoned g.lease

/-- The gaffer performs its oldest command where its code, and for BUDGET its op, is the one given: the body answers with the
state, the status and the return data. A command of an unbound VF answers NOTARGET (R59), an unassigned code NOCMD (R75). -/
def State.performWith (s : State) (code : Nat) (op : Option Nat) (body : State → GafferCmd → State × Nat × Option (List Byte)) : State :=
  match s.gaffer with
  | [] => s
  | g :: rest =>
    let s' : State := { s with gaffer := rest }
    if g.poison then s'.badCommand g
    else if g.level = 3 then s'.answer g 2 none
    else if g.code = 0 ∨ 0x13 < g.code then s'.answer g 6 none
    else if g.code != code || (match op with | some o => bitsOf (g.word 1) 13 12 != o | none => false) then s
    else
      let r := body s' g
      if r.1.releasing.length ≤ s'.releasing.length then r.1.answer g r.2.1 r.2.2 else r.1.answerLater s'.releasing.length g

/-- A command that changes nothing where it is refused. -/
def State.perform (s : State) (code : Nat) (op : Option Nat) (body : State → GafferCmd → Cmd) : State :=
  s.performWith code op fun s' g =>
    match body s' g with
    | .ok (s'', d) => (s'', 0, d)
    | .error (st, d) => (s', st, d)

/-- A mask that its setter may give (R57): within a mask, S2 never. -/
def maskOk (m within : BitVec 16) : Bool := m &&& ~~~within == 0#16 && !m.getLsbD 3

/-! ### Partitions and leases -/

/-- What a lease begins with (R31, R56). PARTNEW names no default account for the control lease it makes: that is account 0 (R67; log entries
23, 64). -/
def Lease.fresh (part : Nat) : Lease := { Lease.house with part := part, mask := 0 }

def State.bindVf (s : State) (v : Nat) (b : Option (Bool × Nat)) : State :=
  s.setWindow (.vf v) { s.windowAt (.vf v) with bound := b }
def State.vfFree (s : State) (v : Nat) : Bool := (s.windowAt (.vf v)).bound.isNone

/-- PARTNEW (R75). -/
def doPartnew (s : State) (g : GafferCmd) : Cmd := do
  s.mayRun g 0 none false true
  let w := g.word 1
  let p := g.partField
  let mask := BitVec.ofNat 16 w
  let vf := bitsOf w 25 16
  let cl := bitsOf w 33 26
  need (w >>> 34 == 0 && p != 0 && cl != 0 && cl != 255) 3
  need (maskOk mask 0x0FFF#16) 4
  need ((tabFind s.parts p).isNone && (s.leaseAt cl).isNone && s.vfFree vf) 5
  let s := s.setPart p { mask := mask, vf := vf, control := cl, s2root := 0, target := none, groups := [] }
  let s := s.setLease cl (Lease.fresh p)
  return (s.bindVf vf (some (true, p)), none)

/-- A quadrant without a lease that is gone: its schedules no longer name it, the entries that stay keep their cyclic order, and where it
held the quadrant the next entry's lease takes it (R62; log entry 24). Where no entry stays, a schedule that waits for the next slice end is
the quadrant's at once (R63). -/
def Quad.without (l : Nat) (v : Quad) : Quad :=
  let keep := fun (e : Nat × Nat) => e.1 != l
  let sched := v.sched.filter keep
  let before := ((v.sched.take v.idx).filter keep).length
  let next := (v.next.map (·.filter keep)).filter fun n => !n.isEmpty
  let u : Quad := if sched.isEmpty then { v with sched := next.getD [], next := none, idx := 0 }
    else { v with sched := sched, next := next, idx := before % sched.length }
  if u.holder == some l then { u with holder := none, clk := 0, preempt := !u.sched.isEmpty, throttled := [] } else u

/-- The ID, VF, accounts and places of a lease are free (R75, R379). An account that was bound to the lease stays its partition's, with its BALANCE,
bound to no lease and not enabled: R379 says only that the lease's accounts are freed (DESIGN CHOICE; log entry 69). -/
def State.freeLease (s : State) (l : Nat) : State :=
  let s := match (s.leaseAt l).bind (·.vf) with
    | some v => s.setWindow (.vf v) Window.init
    | none => s
  { s with accounts := s.accounts.map (fun a => if a.2.lease == l then (a.1, { a.2 with lease := 0, en := false }) else a),
           leases := tabDel s.leases l, lcores := s.lcores.filter (fun e => e.1 / 4096 != l), quads := (List.range 32).foldl (fun qs q =>
      match tabFind qs q with
      | some v => tabPut qs q (v.without l)
      | none => qs) s.quads }

/-- PARTDEL (R75, R379). An account that it frees has its reset values again, BALANCE and EN among them: R75 says only that it is freed (DESIGN
CHOICE; log entry 69). -/
def doPartdel (s : State) (g : GafferCmd) : Cmd := do
  s.mayRun g 0 none
  let p := g.partField
  need (p != 0) 3
  match tabFind s.parts p with
  | none => throw (2, none)
  | some v =>
    let ls := (s.leases.filter fun l => l.2.part == p).map (·.1)
    let s := ls.foldl State.resetLease s
    let s := ls.foldl State.freeLease s
    let s : State := { s with quads := s.quads.map (fun q => if q.2.owner == some p then (q.1, Quad.ungranted) else q),
                              accounts := s.accounts.filter (fun a => a.2.part != p), parts := tabDel s.parts p }
    let s := s.dropPointers fun x => x.second && x.owner == p
    return (s.setWindow (.vf v.vf) Window.init, none)

/-- Enable words from the EN bits of a table of 256 entries (R39, R76). -/
def enablesOf (bs : List Byte) : List Word :=
  (List.range 4).map fun w => (List.range 64).foldl (fun (v : Word) i =>
    if (vtOfBytes ((bs.drop (16 * (64 * w + i))).take 16)).en then setBit v i true else v) 0#64

/-- The vector table at a DVA through a lease's translation, with no lookaside check (R76, R418); `none` where it fails, and where a line of it
is poisoned: R76 speaks of a read that faults only, and no lease is there yet to be reset (DESIGN CHOICE: BADARG; log entry 68). -/
def State.readTable (s : State) (lease dva : Nat) : Option (List Byte × State) :=
  if 2 ^ 47 ≤ dva ∨ inLocal dva then none
  else match walkTables lease dva { write := false, fetch := false } s with
    | .ok x s' =>
      if (List.range 64).any fun i => s'.linePoisoned (x.paOf dva + 64 * i) then none else some (s'.homeRead (x.paOf dva) 4096, s')
    | .error _ _ => none

/-- LEASENEW (R75, R76). By the house, with PART 0, it is BADARG: R75 gives no status for it (DESIGN CHOICE; log entry 68). -/
def doLeasenew (s : State) (g : GafferCmd) : Cmd := do
  s.mayRun g 1 (some 1) true false
  let w := g.word 1
  let id := g.leaseField
  let mask := BitVec.ofNat 16 w
  let vf := bitsOf w 25 16
  let account := bitsOf w 37 26
  let root := g.word 2
  let w3 := g.word 3
  need (w >>> 38 == 0 && id != 0 && root % 4096 == 0 && decide (root < 2 ^ 52) && w3 % 4096 == 0) 3
  let (p, v) ← s.targetPart g
  need (p != 0) 3
  need (maskOk mask v.mask && (s.accountAt account).part == p) 4
  need ((s.leaseAt id).isNone && s.vfFree vf) 5
  let l : Lease := { Lease.fresh p with mask := mask, vf := some vf, account := account, s1root := root, w3 := BitVec.ofNat 64 w3 }
  match (s.setLease id l).readTable id w3 with
  | none => throw (3, none)
  | some (bs, s') =>
    return ((s'.setLease id { l with ten0 := enablesOf bs }).bindVf vf (some (false, id)), none)

/-- LEASEDEL (R75, R379). -/
def doLeasedel (s : State) (g : GafferCmd) : Cmd := do
  s.mayRun g 1 (some 1)
  need (g.leaseField != 0) 3
  let (id, _) ← s.targetLease g
  return ((s.resetLease id).freeLease id, none)

/-- RIGHTS (R57, R58). With both PART and LEASE given it sets the lease's mask: R75 says PART or LEASE, and not which of two wins (DESIGN
CHOICE; log entry 68). -/
def doRights (s : State) (g : GafferCmd) : Cmd := do
  s.mayRun g 1 none
  let w := g.word 1
  let mask := BitVec.ofNat 16 w
  need (w >>> 16 == 0) 3
  if g.leaseField != 0 then
    let (id, l) ← s.targetLease g
    need (maskOk mask (((s.partAt l.part).map (·.mask)).getD 0)) 4
    return (s.setLease id { l with mask := mask }, none)
  else
    need (g.level == 0) 1
    need (g.partField != 0) 3
    let (p, v) ← s.targetPart g
    need (maskOk mask 0x0FFF#16) 4
    let s := s.setPart p { v with mask := mask }
    return ({ s with leases := s.leases.map fun l => if l.2.part == p then (l.1, { l.2 with mask := l.2.mask &&& mask }) else l }, none)

/-! ### Quadrants -/

/-- QGRANT (R61, R75): a quadrant that the house's own partition holds is taken from it (log entry 3). PART 0 is BADARG: R75 gives no status for
it (DESIGN CHOICE; log entry 68). -/
def doQgrant (s : State) (g : GafferCmd) : Cmd := do
  s.mayRun g 0 (some 0)
  let w := g.word 1
  need (w >>> 5 == 0 && g.partField != 0) 3
  let (p, _) ← s.targetPart g
  let v := s.quadAt w
  need (v.owner.isNone || v.owner == some 0) 5
  let s := if v.owner = some 0 then
      let s := (quadCores w).foldl (fun s c => State.killLease 0 s c) s
      s.loseQuad 0 w
    else s
  return (s.setQuad w { Quad.ungranted with owner := some p }, none)

/-- QTAKE (R65, R75): the holder is pre-empted, and the rest follows when it is quiet. The spec does not say when the command answers: it
answers DONE here at once, and the quadrant stays the partition's, INUSE for a QGRANT, until the steps of R65 are done (log entry 64). PART 0
is BADARG, and a quadrant that is granted to another partition than PART is NOTARGET: R75 gives no status for either (DESIGN CHOICE; log entries
68, 69). -/
def doQtake (s : State) (g : GafferCmd) : Cmd := do
  s.mayRun g 0 (some 0)
  let w := g.word 1
  need (w >>> 5 == 0 && g.partField != 0) 3
  let (p, _) ← s.targetPart g
  let v := s.quadAt w
  need (v.owner == some p) 2
  return (s.setQuad w { v with preempt := true, taking := true }, none)

/-- Entry i of SLICES: lease, length, whether its reserved bits are zero. -/
def sliceEntry (g : GafferCmd) (i : Nat) : Nat × Nat × Bool :=
  let e := g.word (2 + i / 2) / 2 ^ (32 * (i % 2)) % 2 ^ 32
  (bitsOf e 7 0, bitsOf e 31 16, bitsOf e 15 8 == 0)

/-- SLICES (R62, R63, R75): the schedule takes effect at the next slice end, at once where no lease holds the quadrant, or where no schedule is
in force whose slice could end. A quadrant of another partition is NORIGHT, one granted to none NOTARGET (R74 leaves both open; log entry
64). An entry's lease of another partition is NOTSUBSET: R74 does not tell it apart from NORIGHT here (DESIGN CHOICE; log entry 68). -/
def doSlices (s : State) (g : GafferCmd) : Cmd := do
  s.mayRun g 1 (some 0)
  let w := g.word 1
  let q := bitsOf w 4 0
  let es := (List.range (bitsOf w 7 5 + 1)).map (sliceEntry g)
  need (w >>> 8 == 0 && es.all fun e => e.2.2 && e.2.1 != 0 && e.1 != 255) 3
  let v := s.quadAt q
  match v.owner with
  | none => throw (2, none)
  | some p =>
    need (g.level == 0 || p == g.part) 1
    need (es.all fun e => (s.leaseAt e.1).isSome) 2
    need (es.all fun e => (s.leaseD e.1).part == p) 4
    let sched := es.map fun e => (e.1, e.2.1)
    let s' := s.setQuad q { v with next := some sched }
    if v.holder.isNone && !v.preempt then return (s.passTo q sched 0, none)
    else if v.sched.isEmpty && !v.preempt then return (s'.endSlice [q], none)
    else return (s', none)

/-! ### Roots -/

/-- S1ROOT (R75, R170). -/
def doS1root (s : State) (g : GafferCmd) : Cmd := do
  s.mayRun g 1 (some 2)
  let w := g.word 1
  need (w % 4096 == 0 && decide (w < 2 ^ 52)) 3
  let (id, l) ← s.targetLease g
  return (s.setLease id { l with s1root := w }, none)

/-- S2ROOT (R75, R170). -/
def doS2root (s : State) (g : GafferCmd) : Cmd := do
  s.mayRun g 0 (some 3)
  let w := g.word 1
  need (w % 4096 == 0 && decide (w < 2 ^ 52)) 3
  let (p, v) ← s.targetPart g
  return (s.setPart p { v with s2root := w }, none)

/-! ### Budgets (R66, R69) -/

/-- A number of 64 bits in two's complement. -/
def credits (w : Nat) : Int := signedOf 64 (w % 2 ^ 64)

/-- Whether the holder of a quadrant draws on an account (R67, R69). -/
def State.drawsOn (s : State) (q a : Nat) : Bool :=
  match (s.quadAt q).holder with
  | none => false
  | some l => (s.accountsOf l).contains a || (quadCores q).any fun c => (s.coreAt c).slots.any fun t => t.2.isLive && t.2.account == a

/-- A command that leaves BALANCE above 0 ends throttling for the account at once, on every core whose slots it held back and on every
quadrant that it throttled, whoever draws on it now (R69). -/
def State.unthrottle (s : State) (a : Nat) : State :=
  if s.exhausted a then s
  else { s with cores := s.cores.map fun k => (k.1, { k.2 with slow := tabDel k.2.slow a }),
                quads := s.quads.map fun q => (q.1, { q.2 with throttled := q.2.throttled.filter (· != a) }) }

/-- The account of a BUDGET command, one of the issuer's: another's is NORIGHT, which R74 does not tell apart from NOTSUBSET here (log entry
64). Bits [22:14] of W1 but for BIND are reserved here, BADARG: R75 names them for BIND alone (DESIGN CHOICE; log entry 68). -/
def State.budgetAccount (s : State) (g : GafferCmd) (bind : Bool) : Except (Nat × Option (List Byte)) (Nat × Account) := do
  s.mayRun g 1 (some 4)
  let w := g.word 1
  need (if bind then w >>> 23 == 0 else w >>> 14 == 0) 3
  let a := bitsOf w 11 0
  let v := s.accountAt a
  need (g.level == 0 || v.part == g.part) 1
  return (a, v)
/-- What the gaffer does on every quadrant that draws on an account while it is exhausted (R69): a lease that shares the quadrant is
pre-empted at once, one that is the only entry of its schedule is throttled. A quadrant on its way to another lease already is left. -/
def State.exhaustActs (s : State) (a : Nat) : State :=
  if !s.exhausted a then s
  else (List.range Config.quadrants).foldl (fun s q =>
    let x := s.quadAt q
    if x.preempt || !s.drawsOn q a then s
    else if x.sched.length > 1 then s.preemptNow q else s.setQuad q { x with throttled := x.throttled.filter (· != a) ++ [a] }) s

/-- An account after a BUDGET command, which clears EXH and ends throttling where it leaves BALANCE above 0 (R69). -/
def State.setAccount (s : State) (a : Nat) (v : Account) : State :=
  ({ s with accounts := tabPut s.accounts a { v with exh := v.exh && decide (v.balance ≤ 0) } } : State).unthrottle a

/-- BALANCE moves, by a charge, SET or ADD: EXH follows it, and the gaffer acts (R66, R69). -/
def State.moveBalance (s : State) (a : Nat) (b : Int) : State :=
  (s.setAccount a { s.accountAt a with balance := b, exh := decide (b ≤ 0) }).exhaustActs a

/-- BUDGET ASSIGN (R66): the house gives an account to a partition; PART 0 takes it back. Bits [22:14] of W1 are reserved, as in SET and ADD
(DESIGN CHOICE; log entry 68). -/
def doBudgetAssign (s : State) (g : GafferCmd) : Cmd := do
  s.mayRun g 1 (some 4)
  let w := g.word 1
  need (w >>> 14 == 0) 3
  need (g.level == 0) 1
  let a := bitsOf w 11 0
  let v := s.accountAt a
  need (g.partField == 0 || (tabFind s.parts g.partField).isSome) 2
  need (g.partField == 0 || v.part == 0 || v.part == g.partField) 5
  return (s.setAccount a { v with part := g.partField }, none)

/-- BUDGET SET (R66). -/
def doBudgetSet (s : State) (g : GafferCmd) : Cmd := do
  let (a, _) ← s.budgetAccount g false
  return (s.moveBalance a (credits (g.word 2)), none)

/-- BUDGET ADD (R66): two's complement. -/
def doBudgetAdd (s : State) (g : GafferCmd) : Cmd := do
  let (a, v) ← s.budgetAccount g false
  return (s.moveBalance a (credits (BitVec.ofInt 64 (v.balance + credits (g.word 2))).toNat), none)

/-- BUDGET BIND (R66). A lease of another partition is NOTSUBSET: R74 does not tell it apart from NORIGHT here (DESIGN CHOICE; log entry
68). -/
def doBudgetBind (s : State) (g : GafferCmd) : Cmd := do
  let (a, v) ← s.budgetAccount g true
  let w := g.word 1
  let l := bitsOf w 21 14
  need (l != 255) 3
  need (l == 0 || (s.leaseAt l).isSome) 2
  need (l == 0 || (s.leaseD l).part == v.part) 4
  return (s.setAccount a { v with lease := l, en := w.testBit 22 }, none)

/-! ### Limits, groups, apertures -/

/-- WDLIM (R75). -/
def doWdlim (s : State) (g : GafferCmd) : Cmd := do
  s.mayRun g 1 (some 5)
  let w := g.word 1
  need (decide (4096 ≤ w) && decide (w < 2 ^ 32)) 3
  let (id, l) ← s.targetLease g
  return (s.setLease id { l with wdl := BitVec.ofNat 32 w }, none)

/-- DRIFTLIM (R337): the lease `id` and its region take a limit. -/
def State.setLimit (s : State) (id r : Nat) (limit : Lane) : State :=
  let s := s.setRegion id r { s.regionAt id r with pend := true }
  let s := ((s.regionAt id r).share.map (·.1)).foldl (fun s d => s.forceDrain d id r) s
  s.setRegion id r { s.regionAt id r with l := limit, loss := 0, u := limit, pend := false }

/-- DRIFTLIM (R75, R337). -/
def doDriftlim (s : State) (g : GafferCmd) : Cmd := do
  s.mayRun g 1 (some 6)
  let w := g.word 1
  let limit : Lane := BitVec.ofNat 32 (w / 2 ^ 32)
  need (bitsOf w 31 10 == 0 && !limit.getLsbD 31 && fpExp limit != 0 && fpExp limit != 255) 3
  let (id, _) ← s.targetLease g
  return (s.setLimit id (bitsOf w 9 0) limit, none)

/-- Member i of FGROUP's block: node, lease, whether its reserved bits are zero (R402). -/
def groupMember (g : GafferCmd) (i : Nat) : Nat × Nat × Bool :=
  let m := g.word (2 + i / 2) / 2 ^ (32 * (i % 2)) % 2 ^ 32
  (bitsOf m 18 0, bitsOf m 26 19, bitsOf m 31 27 == 0)

/-- A group of a partition is deleted: one written anew starts empty, and its leases' COLLs on it are counted from the first again (R402,
R404). -/
def State.dropGroup (s : State) (p : Nat) (v : Partn) (n : Nat) : State :=
  let s := (s.setPart p { v with groups := tabDel v.groups n }).peerGone (fun b => b.group == n && (s.leaseD b.holder).part == p) causeAper
  { s with leases := s.leases.map fun l => if l.2.part == p then (l.1, { l.2 with collN := tabDel l.2.collN n }) else l }

/-- FGROUP (R75, R402). A member with lease ID 255 is BADARG (R54). -/
def doFgroup (s : State) (g : GafferCmd) : Cmd := do
  s.mayRun g 1 (some 7)
  let w := g.word 1
  let size := bitsOf w 55 36
  let first := bitsOf w 35 16
  let count := bitsOf w 15 12
  let n := bitsOf w 7 0
  need (bitsOf w 63 56 == 0 && bitsOf w 11 8 == 0) 3
  let (p, v) ← s.targetPart g
  if size = 0 then return (s.dropGroup p v n, none)
  else
    let ms := (List.range count).map (groupMember g)
    let old := (tabFind v.groups n).getD (size, [])
    let new := (List.range count).foldl (fun t i => let m := ms.getD i (0, 0, true); tabPut t (first + i) (m.1, m.2.1)) old.2
    need (decide (size ≤ 524288) && decide (1 ≤ count) && decide (count ≤ 12) && decide (first + count ≤ size) && old.1 == size &&
      ms.all (fun m => m.2.2 && m.2.1 != 255) && (new.map (·.2)).eraseDups.length == new.length) 3
    return (s.setPart p { v with groups := tabPut v.groups n (size, new) }, none)

/-- APERTURE (R75, R169). -/
def doAperture (s : State) (g : GafferCmd) : Cmd := do
  s.mayRun g 1 (some 7)
  let w := g.word 1
  need (w >>> 26 == 0 && decide (g.word 2 < 2 ^ 48)) 3
  let (id, l) ← s.targetLease g
  return (s.setLease id { l with apertures := tabPut l.apertures (bitsOf w 6 0) (true, bitsOf w 25 7, g.word 2) }, none)

/-! ### Reset, attestation, events -/

/-- Frames that wait to be scrubbed are, where the accesses that they wait for are done; the command whose reset released them answers then
(R190, R192, R379). -/
def State.scrubReleased (s : State) : State :=
  (s.releasing.filter fun r => !s.inUse r.users).foldl (fun s r =>
    let s := r.frames.foldl State.scrubFrame s
    match r.cmd with
    | some g => s.answer g 0 none
    | none => s) { s with releasing := s.releasing.filter fun r => s.inUse r.users }

/-- LEASE_RESET (R379): the lease `a`, after the frames of earlier resets that no access holds back any more are scrubbed. -/
def execLeaseReset (s : State) : Host.Outcome State Fault Refusal := runEvent (fun s => s.scrubReleased.resetLease s.ev.a) s

/-- VFRESET (R75, R379). -/
def doVfreset (s : State) (g : GafferCmd) : Cmd := do
  s.mayRun g 2 (some 8)
  let (id, _) ← s.targetLease g
  return (s.resetLease id, none)

/-- The core whose die serves the gaffer for an issuer (log entry 18). -/
def State.issuerCore (s : State) (g : GafferCmd) : Nat :=
  match g.who with
  | some (c, _) => c
  | none => s.distCore g.lease

/-- Write bytes in blocks of 64 for a lease: `false` at the first that fails, the earlier ones standing. -/
def State.writeBlocks (s : State) (c lease a : Nat) (bs : List Byte) : Nat → State × Bool
  | 0 => (s, true)
  | n + 1 =>
    match s.writeBlocks c lease a bs n with
    | (s', false) => (s', false)
    | (s', true) =>
      let part := (bs.drop (64 * n)).take 64
      let body : M Unit := do
        let pl ← checkPlace (Party.hw c lease) (BitVec.ofNat 64 (a + 64 * n)) 64 true
        modS fun s => s.hwStore c lease pl part
      match s'.runHw lease body with
      | (s'', some _) => (s'', true)
      | (s'', none) => (s'', false)

/-- Return data with word 1 replaced. -/
def GafferCmd.returns (g : GafferCmd) (w1 : Nat) : Option (List Byte) := some (leBytes 8 w1 ++ (g.blk.drop 16).take 48)

/-- The record of a lease (R390). -/
def Lease.item (l : Lease) : List Byte :=
  leBytes 8 l.mask.toNat ++ leBytes 8 l.account ++ leBytes 8 l.s1root ++
  (List.range 128).flatMap fun i =>
    let (v, node, base) := tabGet (false, 0, 0) l.apertures i
    leBytes 8 (node * 2 + if v then 1 else 0) ++ leBytes 8 base

/-- Bytes 0 to 415 of the report of R406. The packing of the issuer's node, partition and lease, and the hashes, are free values of what they
are made from (log entry 9). -/
def attestBody (s : State) (g : GafferCmd) (nonce : List Byte) : List Byte :=
  let l := s.leaseD g.lease
  let digest := fun (w : BitVec 384) => leBytes 48 w.toNat
  leBytes 4 0x41545358 ++ leBytes 4 1 ++ leBytes 8 (Config.freeIssuer s.node g.part g.lease).toNat ++ nonce ++
    digest (Config.freeImageHash 0) ++ digest (Config.freeImageHash 1) ++
    digest (Config.freeDigest (leBytes 8 l.mask.toNat ++ leBytes 8 l.s1root ++ l.item.drop 24)) ++ List.replicate 208 0#8

/-- The report of R406: the signature is a free value of the bytes it signs (log entry 9). -/
def attestReport (s : State) (g : GafferCmd) (nonce : List Byte) : List Byte :=
  let body := attestBody s g nonce
  body ++ leBytes 96 (Config.freeSignature body).toNat

/-- The issuer's buffer is filled: a block that faults ends the command with BADARG, the earlier ones written (R389). -/
def State.fillBuffer (s : State) (g : GafferCmd) (a : Nat) (bs : List Byte) (w1 : Nat) : State × Nat × Option (List Byte) :=
  match s.writeBlocks (s.issuerCore g) g.lease a bs ((bs.length + 63) / 64) with
  | (s', true) => (s', 0, g.returns w1)
  | (s', false) => (s', 3, none)

/-- The places of `n` blocks of 64 bytes that hardware is to write for a lease: all of them are checked before any is written. -/
def blockPlaces (c lease a : Nat) : Nat → M (List Place)
  | 0 => return []
  | n + 1 => do
    let before ← blockPlaces c lease a n
    let pl ← checkPlace (Party.hw c lease) (BitVec.ofNat 64 (a + 64 * n)) 64 true
    return before ++ [pl]

/-- The work of ATTEST: the nonce is read, the report's blocks are checked, and the report is written (R406). -/
def attestM (s : State) (g : GafferCmd) : M Unit := do
  let c := s.issuerCore g
  let nonce ← hwRead c g.lease (g.word 1) 64
  let report := attestReport s g (nonce.take 48)
  let pls ← blockPlaces c g.lease (g.word 1 + 64) ((report.length + 63) / 64)
  modS fun s => ((List.range pls.length).zip pls).foldl (fun s e => s.hwStore c g.lease e.2 ((report.drop (64 * e.1)).take 64)) s

/-- The checks of ATTEST (R73, R406). -/
def attestOk (s : State) (g : GafferCmd) : Except (Nat × Option (List Byte)) Unit := do
  s.mayRun g 2 (some 9)
  need (g.word 1 % 64 == 0) 3

/-- ATTEST (R75, R406): a block that faults is BADARG, and the refused command changes nothing (R74); consumed poison resets the lease (R381). -/
def doAttest (s : State) (g : GafferCmd) : State × Nat × Option (List Byte) :=
  match attestOk s g with
  | .error (st, d) => (s, st, d)
  | .ok _ =>
    match attestM s g s with
    | .ok _ s' => (s', 0, g.returns (g.word 1 + 64))
    | .error .poison _ => (s.poisoned g.lease, 3, none)
    | .error _ _ => (s, 3, none)

/-- EVROUTE (R71, R75). The lease to which a partition's or the house's message goes on the named core is the partition's control lease, or
lease 0: R71 names the core alone (log entry 64). -/
def doEvroute (s : State) (g : GafferCmd) : Cmd := do
  s.mayRun g 2 (some 11)
  let w := g.word 1
  let msg := w.testBit 0
  let vec := bitsOf w 11 1
  let core := bitsOf w 23 12
  let type := bitsOf w 31 24
  let q := s.quadAt (quadOf core)
  need (w >>> 32 == 0) 3
  need (if msg then decide (type < 0xF0) else g.level == 0 || decide (vec < 64)) 3
  need (!msg || (match g.level with
    | 0 => q.owner == some 0
    | 1 => q.owner == some g.part
    | _ => q.names g.lease)) 1
  let pf := match g.fn with
    | some (.pf l) => l
    | _ => 0
  let fnOf := fun (v : Option Nat) => State.windowKey ((v.map HostFn.vf).getD (.pf pf))
  match g.level with
  | 0 => return ({ s with houseTarget := some (msg, if msg then core else pf, if msg then type else vec, 0) }, none)
  | 1 =>
    match tabFind s.parts g.part with
    | none => throw (2, none)
    | some p => return (s.setPart g.part { p with target := some (msg, if msg then core else fnOf (some p.vf), if msg then type else vec, p.control) }, none)
  | _ =>
    match s.leaseAt g.lease with
    | none => throw (2, none)
    | some l => return (s.setLease g.lease { l with target := some (msg, if msg then core else fnOf l.vf, if msg then type else vec, g.lease) }, none)

/-! ### The events -/

/-- PARTNEW (R75): the gaffer's oldest command. -/
def execPartnew (s : State) : Host.Outcome State Fault Refusal := runEvent (fun s => s.perform 0x01 none doPartnew) s
/-- PARTDEL (R75): the gaffer's oldest command. -/
def execPartdel (s : State) : Host.Outcome State Fault Refusal := runEvent (fun s => s.perform 0x02 none doPartdel) s
/-- LEASENEW (R75, R76): the gaffer's oldest command. -/
def execLeasenew (s : State) : Host.Outcome State Fault Refusal := runEvent (fun s => s.perform 0x03 none doLeasenew) s
/-- LEASEDEL (R75): the gaffer's oldest command. -/
def execLeasedel (s : State) : Host.Outcome State Fault Refusal := runEvent (fun s => s.perform 0x04 none doLeasedel) s
/-- RIGHTS (R57, R58): the gaffer's oldest command. -/
def execRights (s : State) : Host.Outcome State Fault Refusal := runEvent (fun s => s.perform 0x05 none doRights) s
/-- QGRANT (R61): the gaffer's oldest command. -/
def execQgrant (s : State) : Host.Outcome State Fault Refusal := runEvent (fun s => s.perform 0x06 none doQgrant) s
/-- QTAKE (R65): the gaffer's oldest command. -/
def execQtake (s : State) : Host.Outcome State Fault Refusal := runEvent (fun s => s.perform 0x07 none doQtake) s
/-- SLICES (R62): the gaffer's oldest command. -/
def execSlices (s : State) : Host.Outcome State Fault Refusal := runEvent (fun s => s.perform 0x08 none doSlices) s
/-- S1ROOT (R75): the gaffer's oldest command. -/
def execS1root (s : State) : Host.Outcome State Fault Refusal := runEvent (fun s => s.perform 0x09 none doS1root) s
/-- S2ROOT (R75): the gaffer's oldest command. -/
def execS2root (s : State) : Host.Outcome State Fault Refusal := runEvent (fun s => s.perform 0x0A none doS2root) s
/-- BUDGET ASSIGN (R75): the gaffer's oldest command. -/
def execBudgetAssign (s : State) : Host.Outcome State Fault Refusal := runEvent (fun s => s.perform 0x0B (some 0) doBudgetAssign) s
/-- BUDGET SET (R75): the gaffer's oldest command. -/
def execBudgetSet (s : State) : Host.Outcome State Fault Refusal := runEvent (fun s => s.perform 0x0B (some 1) doBudgetSet) s
/-- BUDGET ADD (R75): the gaffer's oldest command. -/
def execBudgetAdd (s : State) : Host.Outcome State Fault Refusal := runEvent (fun s => s.perform 0x0B (some 2) doBudgetAdd) s
/-- BUDGET BIND (R75): the gaffer's oldest command. -/
def execBudgetBind (s : State) : Host.Outcome State Fault Refusal := runEvent (fun s => s.perform 0x0B (some 3) doBudgetBind) s
/-- WDLIM (R75): the gaffer's oldest command. -/
def execWdlim (s : State) : Host.Outcome State Fault Refusal := runEvent (fun s => s.perform 0x0C none doWdlim) s
/-- DRIFTLIM (R337): the gaffer's oldest command. -/
def execDriftlim (s : State) : Host.Outcome State Fault Refusal := runEvent (fun s => s.perform 0x0D none doDriftlim) s
/-- FGROUP (R402): the gaffer's oldest command. -/
def execFgroup (s : State) : Host.Outcome State Fault Refusal := runEvent (fun s => s.perform 0x0E none doFgroup) s
/-- APERTURE (R169): the gaffer's oldest command. -/
def execAperture (s : State) : Host.Outcome State Fault Refusal := runEvent (fun s => s.perform 0x0F none doAperture) s
/-- VFRESET (R379): the gaffer's oldest command. -/
def execVfreset (s : State) : Host.Outcome State Fault Refusal := runEvent (fun s => s.perform 0x10 none doVfreset) s
/-- ATTEST (R406): the gaffer's oldest command. -/
def execAttest (s : State) : Host.Outcome State Fault Refusal := runEvent (fun s => s.performWith 0x11 none doAttest) s
/-- EVROUTE (R71): the gaffer's oldest command. -/
def execEvroute (s : State) : Host.Outcome State Fault Refusal := runEvent (fun s => s.perform 0x13 none doEvroute) s

end Sys2Proof.Machine
end

