-- ==== Sys2Proof/Machine/Handlers.lean ====
section
/-! DEFINITION. Events of a core's messages and slots: writes of the vector-table, gate and ring registers (R39, R334, R363),
arrival (R39, R95), the start of a handler (R46, R95, R96), ageing (R97), the watchdog (R103), gate limits (R366), notices (R167),
retried LDFs (R148) and blocked slots whose condition clears (R98). -/

namespace Sys2Proof.Machine

/-- An event of a core that does not exist names nothing (R6). -/
def runCore (s : State) (f : State → State) : Host.Outcome State Fault Refusal :=
  if s.ev.a < Config.cores then runEvent f s else .fault (.noSuchUnit s.ev.a)
/-- An event of a slot of a core. -/
def runSlotEvent (s : State) (f : State → State) : Host.Outcome State Fault Refusal :=
  if s.ev.a < Config.cores ∧ s.ev.b < Config.slots then runEvent f s else .fault (.noSuchUnit s.ev.a)
/-- An event of a core, on the state of the lease that holds it. -/
def State.onHolder (s : State) (c : Nat) (f : Nat → State) : State :=
  match s.holderOf c with
  | some l => f l
  | none => s

/-! ### Register writes -/

/-- VTB_WRITE (R39): `word`, for the lease that holds the core `a`. -/
def execVtbWrite (s : State) : Host.Outcome State Fault Refusal :=
  runCore s fun s => s.onHolder s.ev.a fun l => s.writeVtb s.ev.a l s.ev.word
/-- GTB_WRITE (R363): `word`, for the lease that holds the core `a`; refused while `gtb` is locked. -/
def execGtbWrite (s : State) : Host.Outcome State Fault Refusal :=
  runCore s fun s => s.onHolder s.ev.a fun l => if s.gtbIsLocked l then s else s.writeGtb s.ev.a l s.ev.word
/-- CULL_WRITE (R334): `word`, for the lease that holds the core `a`. -/
def execCullWrite (s : State) : Host.Outcome State Fault Refusal :=
  runCore s fun s => s.onHolder s.ev.a fun l => s.writeCull s.ev.a l s.ev.word
/-- CULLSZ_WRITE (R334): `word`, for the lease that holds the core `a`. -/
def execCullszWrite (s : State) : Host.Outcome State Fault Refusal :=
  runCore s fun s => s.onHolder s.ev.a fun l => s.writeCullsz s.ev.a l s.ev.word
/-- LATCH_RELEASE (R334): for the lease that holds the core `a`. -/
def execLatchRelease (s : State) : Host.Outcome State Fault Refusal :=
  runCore s fun s => s.onHolder s.ev.a fun l => s.releaseLatch s.ev.a l

/-! ### Arrival -/

/-- Whether two messages were sent by one slot of one core: the sender words agree but for the domain and the generation (R45, R155). -/
def Msg.sameSlot (m n : Msg) : Bool :=
  !m.sender.getLsbD 63 && !n.sender.getLsbD 63 && m.sender.extractLsb' 0 35 == n.sender.extractLsb' 0 35

/-- Whether a message for the queues of its core is behind one that its slot sent before, which stands in the lease's cullet ring there and
arrives when it leaves the ring (R39, R155; log entry 34). -/
def State.behindRing (s : State) (m : Msg) : Bool :=
  !s.elsewhere m && (s.lcoreAt m.lease m.core).culletFacts.any fun f => m.sameSlot { m with sender := f.sender }

/-- The first message on its way to a core that it can take arrives; those it has no room for wait, and with them what their
slots sent after them (R43, R95, R155). -/
def State.arriveFirst (s : State) (c : Nat) : List Msg → List Msg → State
  | _, [] => s
  | before, m :: rest =>
    if before.any m.sameSlot || s.behindRing m then s.arriveFirst c (before ++ [m]) rest
    else match s.arrive m with
    | (s', true) =>
      let k := s'.coreAt c
      State.accepted (m := m) <| s'.setCore c { k with transit := before ++ rest ++ k.transit.drop (before.length + 1 + rest.length) }
    | (_, false) => s.arriveFirst c (before ++ [m]) rest

/-- An upcall in its reserve entry reaches its core, which reads its type's entry: PRIO is its priority, and one whose entry is unusable is
dropped (R39, R40, R95). -/
def State.arriveUpcall (c : Nat) (s : State) (key : Nat) : State :=
  match tabFind (s.coreAt c).reserve key with
  | none => s
  | some m =>
    if !m.fresh then s
    else match s.vtUsable c m.lease m.type with
      | (s', none) =>
        let k := s'.coreAt c
        (s'.setCore c { k with reserve := tabDel k.reserve key }).dropMsg m
      | (s', some e) =>
        let k := s'.coreAt c
        s'.setCore c { k with reserve := tabPut k.reserve key { m with prio := e.prio, fresh := false } }

/-- MESSAGE_ARRIVAL (R39, R43, R95): the core `a`; upcalls first, which wait for no room. -/
def execMessageArrival (s : State) : Host.Outcome State Fault Refusal :=
  runCore s fun s =>
    let s := (List.range 18).foldl (State.arriveUpcall s.ev.a) s
    s.arriveFirst s.ev.a [] (s.coreAt s.ev.a).transit

/-! ### The start of a handler -/

/-- Effective priority of a queued message (R97). -/
def Msg.effective (m : Msg) : Nat := if m.aged then min (m.prio + 1) 3 else m.prio

/-- The better of two candidates: the higher priority, then the older; of two that are equal in both, the one that is named first (DESIGN CHOICE; log
entry 69). -/
def Msg.before (m n : Msg) : Bool := decide (n.effective < m.effective) || (m.effective == n.effective && decide (n.age ≤ m.age))
def bestMsg : List (Nat × Msg) → Option (Nat × Msg)
  | [] => none
  | x :: t =>
    match bestMsg t with
    | none => some x
    | some y => if x.2.before y.2 then some x else some y

/-- Slots of a class (R37). -/
def classSlots (cls : Nat) : List Nat :=
  match cls with
  | 0 => [0, 1, 2, 3, 4, 5]
  | 1 => [6]
  | _ => [7]

/-- Whether a notice for a generation of a slot may still be outstanding (R167). -/
def State.noticeOut (s : State) (c k : Nat) (g : BitVec 8) : Bool :=
  let who := fun (w : Asker) => w.core == c && w.slot == k && w.gen == g
  let held := fun (h : Held) => match h with
    | .token c' k' g' _ _ _ _ _ => c' == c && k' == k && g' == g
    | _ => false
  let member := fun (e : Entrant) => e.core == c && e.slot == k && e.gen == g
  s.notices.any (fun n => who n.who) ||
  s.homes.any (fun h => h.2.reqs.any (fun r => (r.who.map who).getD false) || h.2.held.any held ||
    h.2.waits.any fun w => w.isLdf && w.core == c && w.sid == g ++ BitVec.ofNat 8 k) ||
  s.cores.any (fun q => q.2.held.any held) || s.gangs.any (fun v => v.2.entered.any member || v.2.op.any member) ||
  (s.coreAt c).copyq.any (fun q => q.slot == k && q.gen == g) ||
  s.colls.any (fun x => x.core == c && x.cmd.slot == k && x.cmd.gen == g) ||
  s.fabric.any fun r => r.core == c && r.slot == k && r.gen == g

/-- The slot in which a handler of a class may start: the lowest-numbered free one, not one of which the vector engine still performs a command
that had begun when its task was killed (log entries 2, 49). -/
def State.freeSlotOf (s : State) (c cls : Nat) : Option Nat :=
  (classSlots cls).find? fun k =>
    let t := s.slotAt c k
    !t.isLive && !s.noticeOut c k (t.gen + 1) && !(s.coreAt c).vecq.any fun v => v.slot == k

/-- The account of a new task (R67); the lease's default account where its tag names no live launch of the lease (log entry 64). -/
def State.accountFor (s : State) (m : Msg) : Nat :=
  let dflt := (s.leaseD m.lease).account
  if hwType m.type || m.srcLease != m.lease then dflt
  else match tabFind s.launches m.tag with
    | some l => if l.lease = m.lease then l.account else dflt
    | none => dflt

/-- The slot that a message starts (R46). -/
def State.newTask (s : State) (old : Slot) (m : Msg) (e : VtEntry) (cls : Nat) : Slot :=
  let live := s.liveLaunch m.lease m.tag
  let x8 := if m.counted then BitVec.ofNat 64 ((live.map fun l => hdrArgs l.hdr).getD 0) else 0#64
  let t : Slot := { Slot.init with
                    st := .ready, gen := old.gen + 1, pc := BitVec.ofNat 48 e.handler, wid := m.wid, lease := m.lease,
                    tag := m.tag, part := (s.leaseD m.lease).part, ss := ssOf cls m.effective,
                    phase := BitVec.ofNat 4 ((m.entry.map fun x => x.2.2).getD 0), dom := BitVec.ofNat 8 e.dom,
                    account := s.accountFor m, counted := m.counted, upcall := hwType m.type, gang := m.gang,
                    entryTask := m.entry.isSome }
  (List.range m.args.length).foldl (fun (t : Slot) i => t.setX (BitVec.ofNat 5 (10 + i)) (m.args.getD i 0#64))
    ((t.setX 8#5 x8).setX 9#5 m.sender)

/-- The member of a gang that starts: its place in the gang's list takes its slot. -/
def State.joinGang (s : State) (g : Option Nat) (c k : Nat) : State :=
  match g with
  | none => s
  | some gk =>
    match tabFind s.gangs gk with
    | none => s
    | some v => { s with gangs := tabPut s.gangs gk { v with live := listMapIf (fun x => x == (c, 8)) (fun _ => (c, k)) v.live } }

/-- The die of a counted task's core is one of those on which its launch makes its release (R387). -/
def State.noteDie (s : State) (m : Msg) : State :=
  match (if m.counted then s.liveLaunch m.lease m.tag else none) with
  | none => s
  | some l => if l.dies.contains (dieOf m.core) then s else { s with launches := tabPut s.launches m.tag { l with dies := l.dies ++ [dieOf m.core] } }

/-- A message that has left its queue starts a handler in a slot, or is dropped where its entry is no longer usable (R39, R46). A poisoned
one is consumed and starts nothing (R381, R384). `head` is the entry of a record of the ready ring, which is read no second time (R96): the
source of a class's previous start is that of a message that started (log entry 2). -/
def State.startIn (s : State) (c cls k : Nat) (m : Msg) (head : Option VtEntry := none) : State :=
  if m.poison then (s.discardMsg m).poisoned m.lease
  else match (if head.isSome then (s, head) else s.vtUsable c m.lease m.type) with
  | (s', none) => s'.dropMsg m
  | (s', some e) =>
    let q := s'.coreAt c
    let s' := s'.setCore c { q with last := tabPut q.last cls head.isSome }
    ((s'.setSlot c k (s'.newTask (s'.slotAt c k) m e cls)).joinGang m.gang c k).noteDie m

/-- The candidate of a class's inbound queue, by its position (R95). -/
def State.queueCandidate (s : State) (c lease cls : Nat) : Option (Nat × Msg) :=
  let l := s.lcoreAt lease c
  let q := (s.coreAt c).queue cls
  bestMsg (((List.range q.length).zip q).filter fun e => l.enabled e.2.type)

/-- The candidate of the upcall reserve, of those that have reached the core (R95). -/
def Core.reserveCandidate (k : Core) : Option (Nat × Msg) := bestMsg (k.reserve.filter fun e => !e.2.fresh)

/-- The head of the ready ring with its entry (R96). -/
def LCore.ringHead (l : LCore) : Option (List Byte × VtEntry) :=
  match l.readyHead, l.headEntry with
  | some r, some bs => some (r, vtOfBytes bs)
  | _, _ => none

def State.startQueued (s : State) (c cls k : Nat) (e : Nat × Msg) : State :=
  let q := s.coreAt c
  (s.setCore c (q.setQueue cls (listDrop (q.queue cls) e.1))).startIn c cls k e.2

def State.startReserved (s : State) (c k : Nat) (e : Nat × Msg) : State :=
  let q := s.coreAt c
  (s.setCore c { q with reserve := tabDel q.reserve e.1 }).startIn c 2 k e.2

def State.startRing (s : State) (c lease cls k : Nat) (r : List Byte) (e : VtEntry) : State :=
  let l := s.lcoreAt lease c
  let m := s.msgOfRec c lease r (l.headFact r)
  let prio := match m.entry with
    | some (_, p, _) => p
    | none => e.prio
  ((s.setLCore lease c (l.popReady r)).startIn c cls k { m with prio := prio } (some e)).headReads c lease

/-- HANDLER_START on a core for a class (R95, R96): while the quadrant is pre-empted only upcalls start (R377). Of a reserve upcall and a queued
message of equal priority and age the upcall is taken, and of two such upcalls the one in the lower entry: R95 leaves it open (DESIGN CHOICE;
log entry 69). -/
def State.handlerStart (s : State) (c cls : Nat) : State :=
  match s.holderOf c with
  | none => s
  | some lease =>
    let held := (s.quadAt (quadOf c)).preempt
    let s := if held then s else s.headReads c lease
    match s.freeSlotOf c cls with
    | none => s
    | some k =>
      let up := if cls = 2 then (s.coreAt c).reserveCandidate else none
      let inq := if held then none else s.queueCandidate c lease cls
      let ring := if held then none else (s.lcoreAt lease c).ringHead.filter fun r => r.2.cls == cls
      let queued := match up, inq with
        | some u, some q => if u.2.before q.2 then some (true, u) else some (false, q)
        | some u, none => some (true, u)
        | none, some q => some (false, q)
        | none, none => none
      match queued, ring with
      | none, none => s
      | none, some r => s.startRing c lease cls k r.1 r.2
      | some (res, e), o =>
        match o, tabFind (s.coreAt c).last cls with
        | some r, some false => s.startRing c lease cls k r.1 r.2
        | _, _ => if res then s.startReserved c k e else s.startQueued c cls k e

/-- HANDLER_START (R95, R96): the core `a`, the class `b`. -/
def execHandlerStart (s : State) : Host.Outcome State Fault Refusal :=
  if s.ev.a < Config.cores ∧ s.ev.b < 3 then runEvent (fun s => s.handlerStart s.ev.a s.ev.b) s else .fault (.noSuchUnit s.ev.a)

/-- R97: the message at a place of a queue that has waited long enough gains one step of priority, once. -/
def State.ageMsg (s : State) (c cls i : Nat) : State :=
  let q := s.coreAt c
  match (q.queue cls)[i]? with
  | none => s
  | some m =>
    if m.aged || decide (m.age < Config.ageClk) then s
    else s.setCore c (q.setQueue cls (listSet (q.queue cls) i { m with aged := true }))

/-- MESSAGE_AGEING (R97): the message `c` of the queue of class `b` on the core `a`. -/
def execMessageAgeing (s : State) : Host.Outcome State Fault Refusal := runCore s fun s => s.ageMsg s.ev.a s.ev.b s.ev.c

/-! ### Limits -/

/-- An expiry of a slot's watchdog (R103): the first sends an upcall, which takes the place of one that still waits in the slot's reserved
entry (log entry 64), the second kills. -/
def State.watchdog (s : State) (c k : Nat) : State :=
  let t := s.slotAt c k
  if !t.isLive || decide (t.wdc.toNat < (s.leaseD t.lease).wdl.toNat) then s
  else if t.warned then s.killReport c k 1 0
  else
    let m := Msg.hw 0xF2 t.lease c s.node [BitVec.ofNat 64 (sidOf t k), t.pc.zeroExtend 64, t.wid] t.wid t.tag
    let q := s.coreAt c
    (s.setCore c { q with reserve := tabPut q.reserve (8 + k) { m with fresh := true } }).setSlot c k { t with wdc := 0, warned := true }

/-- WATCHDOG_EXPIRY (R103): the slot `b` of the core `a`. -/
def execWatchdogExpiry (s : State) : Host.Outcome State Fault Refusal := runSlotEvent s fun s => s.watchdog s.ev.a s.ev.b

/-- The slot with the frames above a depth gone, each restored in turn. -/
def Slot.popTo (t : Slot) : Nat → List Frame → Slot
  | 0, _ => t
  | _ + 1, [] => t
  | n + 1, f :: rest => (t.popFrame f rest).popTo n rest

/-- The innermost frame whose limit has run out. -/
def Slot.expired (t : Slot) : Option Nat := listIndex (fun (f : Frame) => f.remaining == 0) t.frames

/-- The callee of the innermost frame whose limit has run out takes fault GLIMIT, what it called is gone (R366, R369). Its vector commands are
executed first (log entry 49): where one of them faults and unwinds the frame, the frame has no callee any more. -/
def State.gateLimitOnce (s : State) (c k : Nat) : State :=
  if (s.slotAt c k).expired.isNone then s
  else
    let s := s.finishVec c k
    let t := s.slotAt c k
    match t.expired with
    | none => s
    | some i =>
      let s := s.setSlot c k { t.popTo i t.frames with unwound := t.unwound + i }
      let s : State := { s with
        gangs := s.gangs.map (fun g => (g.1, g.2.unenter c k)),
        gaffer := s.gaffer.map fun (g : GafferCmd) => if g.who = some (c, k) then { g with who := none } else g }
      s.takeFault c k { cause := causeGlimit } 0 .fault

/-- Every frame whose limit has run out, from the innermost out. -/
def State.gateLimitAll (s : State) (c k : Nat) : Nat → State
  | 0 => s
  | n + 1 => (s.gateLimitOnce c k).gateLimitAll c k n
def State.gateLimit (s : State) (c k : Nat) : State := s.gateLimitAll c k (s.slotAt c k).frames.length

/-- GLIMIT_EXPIRY (R366): the slot `b` of the core `a`. -/
def execGlimitExpiry (s : State) : Host.Outcome State Fault Refusal := runSlotEvent s fun s => s.gateLimit s.ev.a s.ev.b

/-! ### Notices and blocked slots -/

/-- A blocked instruction of a slot completes with a value (R98). -/
def State.unblock (s : State) (c k : Nat) (d : BitVec 5) (v : Word) : State :=
  s.setSlot c k ((((s.slotAt c k).setX d v).complete .seq).goesOn (s.slotAt c k).pc)

/-- A notice reaches its slot (R167, R148, R312). -/
def State.deliverNotice (s : State) (i : Nat) : State :=
  match s.notices[i]? with
  | none => s
  | some n =>
    let s : State := { s with notices := listDrop s.notices i }
    let w := n.who
    let t := s.slotAt w.core w.slot
    if w.inc != (s.dieAt (dieOf w.core)).inc then s.staleResponse (dieOf w.core)
    else if !t.isLive || t.gen != w.gen || t.unwound != w.unwound then s.countStale w.lease
    else match t.st with
      | .blocked (.ldf d dva n' _) =>
        if n.retry then s.setSlot w.core w.slot { t with st := .blocked (.ldfRetry d dva n') }
        else
          let t := { t with ss := if n.ab then setBit t.ss 15 true else t.ss }
          let s := s.setSlot w.core w.slot t
          let s := if n.acq then s.evictAll (dieOf w.core) else s
          s.unblock w.core w.slot d n.val
      | .blocked (.answer d) => (if n.acq then s.evictAll (dieOf w.core) else s).unblock w.core w.slot d n.val
      | _ => s.countStale w.lease

/-- NOTICE_DELIVERY (R167): the notice `a`. -/
def execNoticeDelivery (s : State) : Host.Outcome State Fault Refusal := runEvent (fun s => s.deliverNotice s.ev.a) s

/-- A computation for another slot than the one in focus; the focus stays as it was. -/
def State.asSlot (s : State) (c k : Nat) (m : M Flow) : EStateM.Result Stop State Flow := m { s with core := c, slot := k }
def State.refocus (s s' : State) : State := { s' with core := s.core, slot := s.slot }

/-- The LDF of a slot that was answered "retry" is sent again (R148), and counted no second time (R141). -/
def State.retryLdf (s : State) (c k : Nat) : State :=
  match (s.slotAt c k).st with
  | .blocked (.ldfRetry d dva n) =>
    let again : M Flow := do
      let (_, x) ← feWord (BitVec.ofNat 64 dva) n false
      drainM
      let t ← curM
      let who ← askerM d
      requestM (x.paOf dva) (.ldf who (x.paOf dva) dva n t.tag t.wid)
      throw (.block (.ldf d dva n x))
    s.refocus (finishM c k (s.asSlot c k again))
  | _ => s

/-- LDF_RETRY (R148): the slot `b` of the core `a`. -/
def execLdfRetry (s : State) : Host.Outcome State Fault Refusal := runSlotEvent s fun s => s.retryLdf s.ev.a s.ev.b

/-- The body of a blocked instruction, which completes when its condition has cleared (R98). -/
def resumeBlocked : Instr → M Flow
  | .qpush q a => qpushM q a
  | .qpop d q => qpopM d q
  | .vbcastq p d q => vbcastqM p d q
  | .send d a b => sendForm d a b
  | .jdec d a b => jdecForm d a b
  | .cwait d a => cwaitM d a
  | .vmvvx _ _ _ => vecWrittenM
  | .pget _ _ => vecWrittenM
  | .ppop _ _ _ => vecWrittenM
  | _ => throw .stall

/-- Whether a blocked instruction whose condition has cleared goes on as a stalled one: VBCASTQ has its q entry to take, and waits for
the engine's queue READY, with the issue port (R8, R98, R216). -/
def thenStalls (i : Instr) : Bool :=
  match i with
  | .vbcastq _ _ _ => true
  | _ => false

/-- What a blocked slot waits for, as the instruction it is held in: it stalls while the condition holds. -/
def Wait.resume : Wait → Option (M Flow × Bool)
  | .on i => some (resumeBlocked i, thenStalls i)
  | .passes mask before => some (mwaitM mask before, false)
  | .swap d tl b no => some (aswapM d tl b (some no), false)
  | .launch d h dva => some (launchedM d h dva, false)
  | .drain d users => some (drainedM d users, false)
  | _ => none

/-- A blocked slot whose condition has cleared completes its instruction and is READY; else nothing changes. -/
def State.tryUnblock (s : State) (c k : Nat) : State :=
  match (s.slotAt c k).st with
  | .blocked w =>
    match w.resume with
    | none => s
    | some (m, stalls) =>
      match s.asSlot c k m with
      | .ok f s' =>
        let s' := s'.completed c k f
        s.refocus (s'.setSlot c k ((s'.slotAt c k).goesOn (s.slotAt c k).pc))
      | .error .stall _ => if stalls then s.setSlot c k { s.slotAt c k with st := .ready } else s
      | .error (.block _) s' => { s with free := s'.free }
      | .error e s' => s.refocus (s'.stopped c k e)
  | _ => s

/-- SLOT_UNBLOCK (R98): the slot `b` of the core `a`. -/
def execSlotUnblock (s : State) : Host.Outcome State Fault Refusal := runSlotEvent s fun s => s.tryUnblock s.ev.a s.ev.b

end Sys2Proof.Machine
end

