-- ==== Sys2Proof/Machine/MemEvents.lean ====
section
/-! DEFINITION. Events of stores, dies and homes: store buffers, remote copies and page walks (R178, R281 to R286), the vector engine's
next command (R214), the requests at a home (R147 to R151, R256), continuations (R320), carried code (R156 to R158), JDEC (R328),
the cullet ring's refill (R332), and the drift regions (R341, R342, R345). -/

namespace Sys2Proof.Machine

/-- An event of a die that does not exist names nothing (R4). -/
def runDie (s : State) (f : State → State) : Host.Outcome State Fault Refusal :=
  if s.ev.a < Config.dies then runEvent f s else .fault (.noSuchUnit s.ev.a)

/-! ### Store buffers, remote copies, walks -/

/-- STORE_BUFFER_DRAIN (R284, R286): the head entry of the core `a`. -/
def execStoreBufferDrain (s : State) : Host.Outcome State Fault Refusal := runCore s fun s => s.drainHead s.ev.a

/-- FILL of a line of the die's remote copy whose translation the die holds, where it holds no copy of it (R285). -/
def State.fill (s : State) (die lease ln : Nat) : State :=
  match (s.dieAt die).dtc.find? fun x => x.covers lease (64 * ln) with
  | some x => if x.cached && !ownView die (x.paOf (64 * ln)) then s.fillLine (512 * die) none (64 * ln) x else s
  | none => s

/-- FILL (R285): the line `c` of the lease `b` on the die `a`. -/
def execFill (s : State) : Host.Outcome State Fault Refusal := runDie s fun s => s.fill s.ev.a s.ev.b s.ev.c
/-- WRITEBACK (R285): the line `c` of the lease `b` on the die `a`. -/
def execWriteback (s : State) : Host.Outcome State Fault Refusal := runDie s fun s => s.writebackLine s.ev.a s.ev.b s.ev.c

/-- EVICT of a clean line (R285). -/
def State.evictClean (s : State) (die lease ln : Nat) : State :=
  match s.lineOf die lease ln with
  | some l => if l.dirty = 0 then s.evictLine die lease ln else s
  | none => s

/-- EVICT (R285): the line `c` of the lease `b` on the die `a`. -/
def execEvict (s : State) : Host.Outcome State Fault Refusal := runDie s fun s => s.evictClean s.ev.a s.ev.b s.ev.c

/-- A walk for a page of a lease; a walk that faults leaves no entry (R178, R179). -/
def State.pageWalk (s : State) (die lease dva : Nat) (write : Bool) : State :=
  if (s.leaseAt lease).isNone || decide (2 ^ 47 ≤ dva) || inLocal dva then s
  else (s.runHw lease (walk die lease dva { write := write, fetch := false })).1

/-- PAGE_WALK (R179): for the die `a`, the lease `b`, the address `c`; `flag` for a write. -/
def execPageWalk (s : State) : Host.Outcome State Fault Refusal := runDie s fun s => s.pageWalk s.ev.a s.ev.b s.ev.c s.ev.flag

/-- VECTOR_COMMAND_EXECUTE (R214): the next command of the core `a`. -/
def execVectorCommandExecute (s : State) : Host.Outcome State Fault Refusal := runCore s fun s => s.vecStep s.ev.a

/-! ### Requests at a home -/

/-- The oldest request of a home is performed where it satisfies a test. -/
def State.performIf (s : State) (h : Nat) (p : HomeReq → Bool) : State :=
  match (s.homeAt h).reqs with
  | [] => s
  | r :: _ => if p r.body then s.performHead h else s

def HomeReq.op (r : HomeReq) : Option GatherOp :=
  match r.body with
  | .gather _ _ op => some op
  | .remoteGather _ _ _ op => some op
  | _ => none

/-- GATHER_CONTRIBUTION (R269): the oldest request of the home `a`. -/
def execGatherContribution (s : State) : Host.Outcome State Fault Refusal :=
  runDie s fun s => s.performIf s.ev.a fun r => match r.op with
    | some (.contribute _ _ _ _ _) => true
    | some .gone => true
    | _ => false
/-- GATHER_INIT_PERFORM (R266): the oldest request of the home `a`. -/
def execGatherInitPerform (s : State) : Host.Outcome State Fault Refusal :=
  runDie s fun s => s.performIf s.ev.a fun r => match r.op with
    | some (.init _) => true
    | _ => false
/-- GATHER_ABANDON_PERFORM (R271): the oldest request of the home `a`. -/
def execGatherAbandonPerform (s : State) : Host.Outcome State Fault Refusal :=
  runDie s fun s => s.performIf s.ev.a fun r => match r.op with
    | some .abandon => true
    | _ => false
/-- GATHER_QUERY_PERFORM (R272): the oldest request of the home `a`. -/
def execGatherQueryPerform (s : State) : Host.Outcome State Fault Refusal :=
  runDie s fun s => s.performIf s.ev.a fun r => match r.op with
    | some .stat => true
    | some (.record _) => true
    | _ => false
/-- LDF_HOME (R148): the oldest request of the home `a`. -/
def execLdfHome (s : State) : Host.Outcome State Fault Refusal :=
  runDie s fun s => s.performIf s.ev.a fun r => match r with
    | .ldf _ _ _ _ _ _ => true
    | _ => false
/-- STF_HOME (R149): the oldest request of the home `a`. -/
def execStfHome (s : State) : Host.Outcome State Fault Refusal :=
  runDie s fun s => s.performIf s.ev.a fun r => match r with
    | .stf _ _ _ _ _ => true
    | _ => false
/-- SETE_HOME (R150): the oldest request of the home `a`. -/
def execSeteHome (s : State) : Host.Outcome State Fault Refusal :=
  runDie s fun s => s.performIf s.ev.a fun r => match r with
    | .sete _ _ _ _ => true
    | _ => false

/-- STALE_REQUEST_DISCARD: the oldest request of a home, where it carries an older incarnation of its die (R312). -/
def State.discardStale (s : State) (h : Nat) : State :=
  match (s.homeAt h).reqs with
  | [] => s
  | r :: _ => if s.staleReq r then s.performHead h else s

/-- STALE_REQUEST_DISCARD (R312): the oldest request of the home `a`. -/
def execStaleRequestDiscard (s : State) : Host.Outcome State Fault Refusal := runDie s fun s => s.discardStale s.ev.a

/-- STALE_RESPONSE_DROP (R312): the notice `a`, where it carries an older incarnation. -/
def State.dropStale (s : State) (i : Nat) : State :=
  match s.notices[i]? with
  | none => s
  | some n =>
    let d := dieOf n.who.core
    if n.who.inc != (s.dieAt d).inc then ({ s with notices := listDrop s.notices i } : State).staleResponse d else s

/-- STALE_RESPONSE_DROP (R312): the notice `a`. -/
def execStaleResponseDrop (s : State) : Host.Outcome State Fault Refusal := runEvent (fun s => s.dropStale s.ev.a) s

/-- The first continuation of a home that its core has room for; those it sends later to a core wait behind (R95, R320). -/
def State.sendContinuation (s : State) (h : Nat) : List Nat → List Msg → List Msg → State
  | _, _, [] => s
  | full, before, m :: rest =>
    if full.contains m.core then s.sendContinuation h full (before ++ [m]) rest
    else match s.arrive m with
      | (s', true) =>
        let v := s'.homeAt h
        s'.setHome h { v with outbox := before ++ rest ++ v.outbox.drop (before.length + 1 + rest.length) }
      | (_, false) => s.sendContinuation h (m.core :: full) (before ++ [m]) rest

/-- CONTINUATION_SEND (R320): the home `a`. -/
def execContinuationSend (s : State) : Host.Outcome State Fault Refusal :=
  runDie s fun s => s.sendContinuation s.ev.a [] [] (s.homeAt s.ev.a).outbox

/-! ### Carried code -/

/-- The words that carried code may hold (R158). -/
def carriedOk (i : Instr) : Bool :=
  match i with
  | .addi _ _ _ => true
  | .add _ _ _ => true
  | .sub _ _ _ => true
  | .and _ _ _ => true
  | .or _ _ _ => true
  | .xor _ _ _ => true
  | .lw _ _ _ => true
  | .lwu _ _ _ => true
  | .ld _ _ _ => true
  | .sw _ _ _ => true
  | .sd _ _ _ => true
  | .amoadd _ sc _ _ _ => sc == 0#2
  | .amoswap _ sc _ _ _ => sc == 0#2
  | .amocas _ sc _ _ _ => sc == 0#2
  | .amoand _ sc _ _ _ => sc == 0#2
  | .amoor _ sc _ _ _ => sc == 0#2
  | .amoxor _ sc _ _ _ => sc == 0#2
  | .amomin _ sc _ _ _ => sc == 0#2
  | .amomax _ sc _ _ _ => sc == 0#2
  | .amominu _ sc _ _ _ => sc == 0#2
  | .amomaxu _ sc _ _ _ => sc == 0#2
  | .amofadd sc _ _ _ => sc == 0#2
  | .jdec _ _ _ => true
  | _ => false

/-- The hidden context of a carried-code message (R157): the core, the lease, the domain, the tag, and its registers. -/
structure Hidden where
  core : Nat
  lease : Nat
  dom : Nat
  tag : Nat
  regs : Slot

def Hidden.party (h : Hidden) : Party := { core := h.core, lease := h.lease, dom := h.dom, win := none, slot := none }

/-- The scratchpad offset of an access of carried code: outside the local window it fails. -/
def Hidden.offset (h : Hidden) (ea : Word) (n : Nat) (write : Bool) : M Nat := do
  if !inLocal ea.toNat then faultM causeDaddr (some ea)
  let pl ← checkPlace h.party ea n write
  match pl with
  | .spad off => return off
  | .mem _ _ => faultM causeDaddr (some ea)

def Hidden.set (h : Hidden) (d : BitVec 5) (v : Word) : Hidden := { h with regs := h.regs.setX d v }

def Hidden.load (h : Hidden) (d a : BitVec 5) (imm : BitVec 12) (n : Nat) (ext : Nat → Word) : M Hidden := do
  let off ← h.offset (h.regs.getX a + imm.signExtend 64) n false
  let s ← getS
  let l := s.lcoreAt h.lease h.core
  if l.spadPoisoned off n then throw .poison
  return h.set d (ext (l.readSpad off n))

def Hidden.store (h : Hidden) (a b : BitVec 5) (imm : BitVec 12) (n : Nat) : M Hidden := do
  let off ← h.offset (h.regs.getX a + imm.signExtend 64) n true
  modS fun s => s.setLCore h.lease h.core ((s.lcoreAt h.lease h.core).writeSpad off (leBytes n (h.regs.getX b).toNat))
  return h

def Hidden.amo (h : Hidden) (op n : Nat) (d a b : BitVec 5) (ext : Nat → Word) : M Hidden := do
  let off ← h.offset (h.regs.getX a) n true
  let s ← getS
  let l := s.lcoreAt h.lease h.core
  if l.spadPoisoned off n then throw .poison
  let old := l.readSpad off n
  let r := atomicOp op n old ((h.regs.getX b).toNat % 2 ^ (8 * n)) ((h.regs.getX d).toNat % 2 ^ (8 * n))
  if r.2 then modS fun s => s.setLCore h.lease h.core (l.writeSpad off (leBytes n r.1))
  return h.set d (ext old)

/-- JDEC of carried code: its join word lies on this core, its status is 0 or 3 (R158, R328). -/
def Hidden.jdec (h : Hidden) (d a b : BitVec 5) : M Hidden := do
  let s ← getS
  let dst := h.regs.getX a
  let w := (h.regs.getX b).toNat
  let off := bitsOf w 17 0
  let amount := bitsOf w 63 32
  if dst >>> 32 != 0#64 || bitsOf w 31 18 != 0 || amount == 0 || off % 8 != 0 || joinTop ≤ off then return h.set d 3#64
  else if !s.localWord dst || wordCore dst != h.core then faultM causeSpad
  else if (s.lcoreAt h.lease h.core).spadPoisoned off 8 then throw .poison
  else
    modS fun s => s.applyDec h.core h.lease off amount h.tag
    return h.set d 0#64

/-- One word of carried code. -/
def Hidden.run (h : Hidden) (i : Instr) : M Hidden :=
  let r := fun (x : BitVec 5) => h.regs.getX x
  match i with
  | .addi d a imm => return h.set d (r a + imm.signExtend 64)
  | .add d a b => return h.set d (r a + r b)
  | .sub d a b => return h.set d (r a - r b)
  | .and d a b => return h.set d (r a &&& r b)
  | .or d a b => return h.set d (r a ||| r b)
  | .xor d a b => return h.set d (r a ^^^ r b)
  | .lw d a imm => h.load d a imm 4 (signedWord 4)
  | .lwu d a imm => h.load d a imm 4 (BitVec.ofNat 64)
  | .ld d a imm => h.load d a imm 8 (BitVec.ofNat 64)
  | .sw a b imm => h.store a b imm 4
  | .sd a b imm => h.store a b imm 8
  | .amoadd z _ d a b => h.amo 0 (atomicSize z) d a b (signedWord (atomicSize z))
  | .amoswap z _ d a b => h.amo 1 (atomicSize z) d a b (signedWord (atomicSize z))
  | .amocas z _ d a b => h.amo 2 (atomicSize z) d a b (signedWord (atomicSize z))
  | .amoand z _ d a b => h.amo 3 (atomicSize z) d a b (signedWord (atomicSize z))
  | .amoor z _ d a b => h.amo 4 (atomicSize z) d a b (signedWord (atomicSize z))
  | .amoxor z _ d a b => h.amo 5 (atomicSize z) d a b (signedWord (atomicSize z))
  | .amomin z _ d a b => h.amo 6 (atomicSize z) d a b (signedWord (atomicSize z))
  | .amomax z _ d a b => h.amo 7 (atomicSize z) d a b (signedWord (atomicSize z))
  | .amominu z _ d a b => h.amo 8 (atomicSize z) d a b (signedWord (atomicSize z))
  | .amomaxu z _ d a b => h.amo 9 (atomicSize z) d a b (signedWord (atomicSize z))
  | .amofadd _ d a b => h.amo 10 4 d a b (BitVec.ofNat 64)
  | .jdec d a b => h.jdec d a b
  | _ => faultM causeIllop

/-- Words in order until one fails its check: how many were executed, and whether poison was consumed. -/
def Hidden.runAll (s : State) (h : Hidden) : List Instr → Nat → State × Nat × Bool
  | [], n => (s, n, false)
  | i :: rest, n =>
    match h.run i s with
    | .ok h' s' => Hidden.runAll s' h' rest (n + 1)
    | .error .poison s' => (s', n, true)
    | .error _ s' => (s', n, false)

/-- The four words of a carried-code message (R156). -/
def Msg.words (m : Msg) : List (BitVec 32) :=
  let a := m.args.getD 0 0#64
  let b := m.args.getD 1 0#64
  [a.extractLsb' 0 32, a.extractLsb' 32 32, b.extractLsb' 0 32, b.extractLsb' 32 32]

/-- The words decoded; `none` where one lies outside the accepted set. -/
def decodeCarried : List (BitVec 32) → Option (List Instr)
  | [] => some []
  | w :: rest =>
    match decode w with
    | .ok i => if carriedOk i then (decodeCarried rest).map (i :: ·) else none
    | .error _ => none

/-- Clk of the core that carried code takes, charged to its account (R157). -/
def State.takeClk (s : State) (c : Nat) (m : Msg) (n : Nat) : State :=
  let k := s.coreAt c
  let account := match s.liveLaunch m.lease m.tag with
    | some l => if m.srcLease = m.lease then l.account else (s.leaseD m.lease).account
    | none => (s.leaseD m.lease).account
  (s.charge account n).setCore c { k with busy := k.busy + n, carriedClk := k.carriedClk + n }

/-- A carried-code message refused, or stopped at a word (R158). -/
def State.refuseCarried (s : State) (c : Nat) (m : Msg) (at_ : Nat) : State :=
  (s.countLease m.lease fun l => { l with carriedRefused := l.carriedRefused + 1 }).raiseEvent m.lease c
    [3, m.sender &&& 0xFFFFFFFF#64, BitVec.ofNat 64 at_, 0] m.tag

/-- The head of a core's carried-code queue, a carried-code message, executes as one step (R157, R158). -/
def State.carriedStep (s : State) (c : Nat) : State :=
  let k := s.coreAt c
  match k.carried with
  | [] => s
  | m :: rest =>
    if m.jdec.isSome then s
    else if m.poison then ((s.setCore c { k with carried := rest }).discardMsg m).poisoned m.lease
    else
      let s := s.setCore c { k with carried := rest }
      match s.vtUsable c m.lease 0xFE with
      | (s', none) => s'.dropMsg m
      | (s', some e) =>
        if !e.cc then s'.dropMsg m
        else match decodeCarried m.words with
          | none => (s'.takeClk c m 1).refuseCarried c m 4
          | some is =>
            let regs := (Slot.init.setX 10#5 (m.args.getD 2 0#64)).setX 11#5 (m.args.getD 3 0#64)
            let h : Hidden := { core := c, lease := m.lease, dom := e.dom, tag := m.tag, regs := regs }
            match Hidden.runAll s' h is 0 with
            | (s2, n, true) => (s2.takeClk c m (min 4 (n + 1))).poisoned m.lease
            | (s2, n, false) => if n = 4 then s2.takeClk c m 4 else (s2.takeClk c m (n + 1)).refuseCarried c m n

/-- CARRIED_CODE_EXECUTE (R157): the core `a`. -/
def execCarriedCodeExecute (s : State) : Host.Outcome State Fault Refusal := runCore s fun s => s.carriedStep s.ev.a

/-- Whether a decrement would fire its join while the spill latch is held: its push waits, and the JDEC with it, at the head of the
carried-code queue (R333). A poisoned join word is no reason to wait: the decrement consumes it (R381). -/
def State.decWaits (s : State) (c lease off amount : Nat) : Bool :=
  let l := s.lcoreAt lease c
  let j := l.readSpad off 8
  l.latched.isSome && !l.spadPoisoned off 8 && joinArmed j && decide (joinCount j ≤ amount)

/-- A JDEC at the head of a core's carried-code queue is applied (R328, R329). -/
def State.jdecStep (s : State) (c : Nat) : State :=
  let k := s.coreAt c
  match k.carried with
  | [] => s
  | m :: rest =>
    match m.jdec with
    | none => s
    | some (off, amount) =>
      if m.poison then ((s.setCore c { k with carried := rest }).discardMsg m).poisoned m.lease
      else if s.decWaits c m.lease off amount then s
      else
      let s := ((s.setCore c { k with carried := rest }).takeClk c m 1).applyDec c m.lease off amount m.tag
      if m.counted then s.addOpen m.tag (-1) else s

/-- JDEC_APPLY (R328): the core `a`. -/
def execJdecApply (s : State) : Host.Outcome State Fault Refusal := runCore s fun s => s.jdecStep s.ev.a
/-- CULLET_REFILL (R332): the core `a`. -/
def execCulletRefill (s : State) : Host.Outcome State Fault Refusal := runCore s fun s => s.refill s.ev.a

/-! ### Drift regions -/

/-- Whether a RED of a lease that qualifies for withholding in a region leaves a store buffer of the die next (R339, R340). -/
def State.redAsks (s : State) (die lease region : Nat) : Bool :=
  s.cores.any fun k => dieOf k.1 == die && (match k.2.sb with
    | [] => false
    | e :: _ => (match e.op with
      | .red op n scope v => e.lease == lease && e.x.region == region && s.qualifies e op n scope v && !fpIsZero (v.setWidth 32)
      | .store _ => false))

/-- A hub asks for a share it does not hold, for a RED that is to leave its store buffer, where a tracker is free (R340, R341). -/
def State.askShare (s : State) (die lease region : Nat) : State :=
  if !s.redAsks die lease region || ((s.dieAt die).tracker lease region).isSome || decide (Config.trackers ≤ (s.dieAt die).trackers.length) ||
     (s.leaseAt lease).isNone then s
  else (s.grantShare die lease region).1

/-- DRIFT_GRANT (R341): to the die `a`, for the region `c` of the lease `b`. -/
def execDriftGrant (s : State) : Host.Outcome State Fault Refusal := runDie s fun s => s.askShare s.ev.a s.ev.b s.ev.c

/-- A single delta entry is written home and freed; MAG is unchanged (R342). -/
def State.drainEntry (s : State) (die i : Nat) : State :=
  let d := s.dieAt die
  match d.deltas[i]? with
  | none => s
  | some e => (s.setDie die { d with deltas := listDrop d.deltas i }).faddHome e.pa e.val

/-- DDRAIN (R342): the delta entry `b` of the die `a`. -/
def execDdrain (s : State) : Host.Outcome State Fault Refusal := runDie s fun s => s.drainEntry s.ev.a s.ev.b

/-- A forced drain of a die that holds a share of the region, while an LDE or DRIFTLIM of the region is in progress (R342, R345). -/
def State.forceIfShared (s : State) (die lease region : Nat) : State :=
  if (s.regionAt lease region).pend && ((s.dieAt die).tracker lease region).isSome then s.forceDrain die lease region else s

/-- FORCED_DRAIN (R345): the die `a`, the region `c` of the lease `b`. -/
def execForcedDrain (s : State) : Host.Outcome State Fault Refusal := runDie s fun s => s.forceIfShared s.ev.a s.ev.b s.ev.c

end Sys2Proof.Machine
end

