-- ==== Sys2Proof/Machine/Fabric.lean ====
section
/-! DEFINITION. The fabric (R309, R310, R399 to R403): requests that arrive and the lease they are admitted to, acknowledgements,
timeouts, ports that go down. -/

namespace Sys2Proof.Machine

/-! ### Admission (R403) -/

/-- The node that a request came from. -/
def FabricReq.node : FabricReq → Nat
  | .message node _ _ _ _ _ _ _ => node
  | .jdec node _ _ _ _ _ _ _ => node
  | .contribution node _ _ _ _ _ _ => node
  | .copyBytes node _ _ _ _ => node
  | .peerBytes node _ _ _ _ => node
  | .copyRead node _ _ _ => node
  | .collBytes node _ _ _ _ => node

/-- The lease of the task that made a request. -/
def FabricReq.lease : FabricReq → Nat
  | .message _ lease _ _ _ _ _ _ => lease
  | .jdec _ lease _ _ _ _ _ _ => lease
  | .contribution _ lease _ _ _ _ _ => lease
  | .copyBytes _ lease _ _ _ => lease
  | .peerBytes _ lease _ _ _ => lease
  | .copyRead _ lease _ _ => lease
  | .collBytes _ lease _ _ _ => lease

/-- The channel that a request comes on (R308). -/
def FabricReq.vc : FabricReq → VirtChan
  | .message _ _ _ _ _ _ _ _ => .request
  | .jdec _ _ _ _ _ _ _ _ => .request
  | _ => .data

/-- A sender word as it is read on this device: LOCAL where the sender is on it (R45). -/
def State.seenSender (s : State) (node : Nat) (w : Word) : Word := if node = s.node then hereSender w else awaySender w

/-- The answer to copy bytes: performed, or refused with the cause of the copy's fault (R310, R403). -/
def State.answerBytes (s : State) (o : Origin) (lease : Nat) (m : M Unit) : State :=
  match m s with
  | .ok _ s' => s'.respond o 0
  | .error (.fault f) s' => s'.respond o f.cause true
  | .error .poison s' => (s'.poisoned lease).respond o causeAper true
  | .error _ s' => s'.respond o causeAper true

/-- A request performed for the lease `l` that it is admitted to (R403); `none` where it finds no room and waits at the port. -/
def State.performFor (s : State) (l : Nat) (o : Origin) : FabricReq → Option State
  | .message node _ core type args sender wid tag =>
    if sendRefused type then some (s.respond o causeAper true)
    else
      let base := Msg.hw type l (core % 4096) s.node args wid tag
      (match s.admitMsg l { base with sender := s.seenSender node sender, origin := some o } with
       | (s', .taken) => some s'
       | (_, .noRoom) => none
       | (_, .refused) => some (s.respond o causeAper true))
  | .jdec node _ core off amount sender wid tag =>
    let base := Msg.hw 0 l (core % 4096) s.node [] wid tag
    (match s.admitMsg l { base with sender := s.seenSender node sender, jdec := some (off, amount), origin := some o } with
     | (s', .taken) => some s'
     | (_, .noRoom) => none
     | (_, .refused) => some (s.respond o causeAper true))
  | .contribution _ _ dva a b c0 tile => some (s.admitGather l o dva (.contribute true a b c0 tile))
  | .copyBytes _ _ dva fill bytes =>
    some (s.answerBytes o l (admitBytesM (CopyCmd.foreign l) Config.cores l fill (bytes.length + 1) dva bytes))
  | .peerBytes _ _ core off bytes =>
    (match s.peerCause l (core % 4096) off bytes.length with
     | some cause => some (s.respond o cause true)
     | none => some ((s.setLCore l (core % 4096) ((s.lcoreAt l (core % 4096)).writeSpad off bytes)).respond o 0))
  | .copyRead _ _ dva n =>
    (match admitReadM l (n + 1) dva n s with
     | .ok bs s' => some (s'.sendOut { vc := .data, node := o.node, id := o.id, inc := o.inc, status := 0, bytes := bs })
     | .error (.fault f) s' => some (s'.respond o f.cause true)
     | .error .poison s' => some ((s'.poisoned l).respond o causeAper true)
     | .error _ s' => some (s'.respond o causeAper true))
  | .collBytes node lease group n bytes =>
    some (({ s with peerBytes := s.peerBytes ++
        [{ node := node, lease := lease, group := group, n := n, holder := l, bytes := bytes, origin := o }] } : State).collProgress fun x =>
      kGroup x.cmd.desc == group && x.cmd.n == n && (s.leaseD x.cmd.lease).part == (s.leaseD l).part)

/-- A request that arrives over the fabric, in the order of its channel from its node (R309, R399): one that finds no lease is answered
as refused (R403). -/
def State.admission (s : State) (id : Nat) (inc : BitVec 3) (seq : Nat) (r : FabricReq) : State :=
  let o : Origin := { node := r.node, id := id, inc := inc }
  if !s.inTurn r.node r.vc seq then s
  else
    let s' : Option State := match s.admitted r.node r.lease with
      | none => some (s.respond o causeAper true)
      | some l => s.performFor l o r
    match s' with
    | some t => t.taken r.node r.vc seq
    | none => s

/-- FABRIC_ADMISSION (R403): the request `req`, with its number `fid` at its node, the incarnation `finc` of the die that sent it (R311),
and its sequence number `fseq` on its channel (R399). -/
def execFabricAdmission (s : State) : Host.Outcome State Fault Refusal :=
  runEvent (fun s => match s.ev.req with
    | some r => s.admission s.ev.fid s.ev.finc s.ev.fseq r
    | none => s) s

/-! ### Acknowledgements and timeouts (R310, R400) -/

def State.dropReq (s : State) (id : Nat) : State := { s with fabric := s.fabric.filter fun r => r.id != id }

/-- What a request that is refused or timed out does at its sender (R400, R403): `cause` of a copy's fault. The sender word of the lease event is
read on this device (R45). -/
def State.failReq (s : State) (r : FabReq) (cause : Nat) : State :=
  match r.kind with
  | 0 => (if r.counted then s.addOpen r.tag (-1) else s).refusedMsg r.lease r.core r.type (hereSender r.sender) r.tag
  | 1 => s.notify r.asker 6 false false
  | k => s.copyRefused r.core r.lease r.copyId cause r.addr (k == 2)

/-- A request is acknowledged: a message is counted where it went, a contribution answers its status (R89, R278). -/
def State.ackReq (s : State) (r : FabReq) (status : Nat) : State :=
  match r.kind with
  | 0 => if r.counted then s.addOpen r.tag (-1) else s
  | 1 => s.notify r.asker (BitVec.ofNat 64 status) false false
  | _ => s

/-- Whether the bytes that answer a request come with ECOPY: those that the copy engine of its core has asked for. -/
def State.forEcopy (s : State) (r : FabReq) : Bool :=
  r.kind == 3 && (s.coreAt r.core).copyq.any fun q => !q.coll && q.lease == r.lease && q.id == r.copyId

/-- The node that a request went to. -/
def FabReq.toNode (r : FabReq) : Nat := r.dest / 8192 % 524288

/-- A response to a request arrives in the order of its channel (R309): on the data channel where it carries bytes that a collective asked for,
else on the response channel. One that carries an older incarnation of its die, or that comes after the timeout, is dropped and counted at
the die (R312, R400); nothing comes through a port that is down (R384). The bytes that answer a copy's read come with ECOPY. `node` is the node
of a response to no request that still waits. -/
def State.fabricAck (s : State) (id status die node seq : Nat) (refused : Bool) (bytes : List Byte) : State :=
  match s.fabric.find? fun r => r.id == id && !r.there with
  | some r =>
    let vc := if r.kind == 3 && !refused then .data else .response
    if !s.inTurn r.toNode vc seq || (s.forEcopy r && !refused) then s
    else
      let s := s.taken r.toNode vc seq
      if r.inc != (s.dieAt (dieOf r.core)).inc then s.staleResponse (dieOf r.core)
      else
        let s := s.dropReq id
        if refused then s.failReq r status
        else if r.kind == 3 then s.collAnswer r.core r.lease r.copyId bytes
        else s.ackReq r status
  | none =>
    let vc := if bytes.isEmpty then .response else .data
    if id < s.fabNext ∧ die < Config.dies ∧ s.inTurn node vc seq then (s.taken node vc seq).staleResponse die else s

/-- FABRIC_ACK (R310, R403): of the request `a`, with status `b`; `flag` where it is refused, `b` then the cause of a copy's fault; `fseq` its
sequence number on its channel (R309), `bytes` what answers a collective's read; `c` the die that asked and `fid` the node, of a request that
does not wait any more. -/
def execFabricAck (s : State) : Host.Outcome State Fault Refusal :=
  runEvent (fun s => s.fabricAck s.ev.a s.ev.b s.ev.c s.ev.fid s.ev.fseq s.ev.flag s.ev.bytes) s

/-- A request that left through a port and has waited too long times out (R400); one to this device's own node does not leave the package
(R401). -/
def State.fabricTimeout (s : State) (id : Nat) : State :=
  match s.fabric.find? fun r => r.id == id && !r.there with
  | some r => if fabricLimit ≤ r.age then (s.dropReq id).failReq r causeAper else s
  | none => s

/-- FABRIC_TIMEOUT (R400): of the request `a`. -/
def execFabricTimeout (s : State) : Host.Outcome State Fault Refusal := runEvent (fun s => s.fabricTimeout s.ev.a) s

/-! ### Links -/

/-- An event of the house that no cause code names (R70): what happened, and where. -/
def State.houseEvent (s : State) (what at_ : Nat) : State := s.ownerEvent ⟨0, 0, what, at_, 0, 0⟩

/-- A Dunaro port goes down, with a house event; traffic through it is lost and times out (R384). -/
def State.portDown (s : State) (port : Nat) : State :=
  if s.portsDown.contains port then s else ({ s with portsDown := port :: s.portsDown } : State).houseEvent 2 port

/-- FABRIC_PORT_DOWN (R384, R399): the port `a`. -/
def execFabricPortDown (s : State) : Host.Outcome State Fault Refusal :=
  if s.ev.a < Config.fabricPorts then runEvent (fun s => s.portDown s.ev.a) s else .fault (.noSuchUnit s.ev.a)

/-- Replays of one flit that may fail in a row before its port goes down (R399). -/
def replayLimit : Nat := 16

/-- A port asks for the replay of a flit of a channel that failed its CRC check: the request crosses the link on the control channel, and goes
no further (R308, R309). -/
def State.askReplay (s : State) (port channel seq : Nat) : State :=
  { s with fabOut := s.fabOut ++ [{ vc := .control, node := s.node, id := seq, inc := 0, status := channel, link := some port }] }

/-- The flit of a channel that a port replays (R399). -/
def flitKey (port channel seq : Nat) : Nat := (port * 4 + channel) * 65536 + seq

/-- A replay on a port: no flit is delivered twice, and no order within a channel changes (R309). One that succeeds ends the count of its flit;
one that fails is counted with those of the same flit before it, and the sixteenth takes the port down (R399). -/
def State.replay (s : State) (port channel seq : Nat) (fails : Bool) : State :=
  let key := flitKey port channel seq
  if !fails then { s with replays := tabDel s.replays key }
  else
    let n := tabGet 0 s.replays key + 1
    if n < replayLimit then { s with replays := tabPut s.replays key n }
    else ({ s with replays := tabDel s.replays key } : State).portDown port

/-- FABRIC_REPLAY (R309, R399): on the port `a`, of the flit `c` of the channel `b`. `flag2`: the flit, which the port receives, has failed its CRC
check, and the port asks for a replay. `flag`: it is a replay that has failed. Neither: its replay succeeds. -/
def execFabricReplay (s : State) : Host.Outcome State Fault Refusal :=
  if s.ev.a < Config.fabricPorts then
    runEvent (fun s =>
      let t := if s.ev.flag2 then s.askReplay s.ev.a (s.ev.b % 4) (s.ev.c % 65536) else s
      if s.ev.flag2 && !s.ev.flag then t else t.replay s.ev.a (s.ev.b % 4) (s.ev.c % 65536) s.ev.flag) s
  else .fault (.noSuchUnit s.ev.a)

/-- HOST_LINK_DOWN (R384): the link `a`. -/
def execHostLinkDown (s : State) : Host.Outcome State Fault Refusal :=
  if s.ev.a < 2 then
    runEvent (fun s => if s.linksDown.contains s.ev.a then s
      else ({ s with linksDown := s.ev.a :: s.linksDown } : State).houseEvent 1 s.ev.a) s
  else .fault (.noSuchUnit s.ev.a)

end Sys2Proof.Machine
end

