-- ==== Sys2Proof/Machine/Power.lean ====
section
/-! DEFINITION. Durable memory (R352 to R360), power loss and bring-up (R358, R398, R407), resets of dies (R311, R312, R348), errors
(R380 to R384), and writes from outside the cores (R318, R382). -/

namespace Sys2Proof.Machine

/-! ### Lehrs (R357) -/

/-- Whether two records have a byte in common. -/
def Record.overlaps (a b : Record) : Bool := decide (a.pa < b.pa + b.bytes.length) && decide (b.pa < a.pa + a.bytes.length)

/-- Whether an address of a lease lies on a persistent page, as it translates now. -/
def State.onPersist (s : State) (die lease a : Nat) : Bool :=
  match translate die lease a { write := true, fetch := false } s with
  | .ok x _ => x.kind == 3
  | .error _ _ => false

/-- Whether an address that a command writes lies on a persistent page of this device: of its own lease, or, through the aperture to this
device's own node, of the lease it is admitted to (R401). -/
def State.persistsAt (s : State) (c : Nat) (q : CopyCmd) (a : Nat) : Bool :=
  if inLocal a then false
  else if 2 ^ 47 ≤ a then (match tabFind (s.leaseD q.lease).apertures (bitsOf a 46 40) with
    | some (true, node, base) => node == s.node && (match s.admitted s.node q.lease with
      | some l => s.onPersist (dieOf (s.distCore l)) l (base + bitsOf a 39 0)
      | none => false)
    | _ => false)
  else s.onPersist (dieOf c) q.lease a

/-- Whether a range of bytes touches a persistent page. -/
def State.persistsIn (s : State) (c : Nat) (q : CopyCmd) (a n : Nat) : Bool :=
  (List.range ((n + 4094) / 4096 + 1)).any fun i => decide (4096 * i < n + a % 4096) && s.persistsAt c q (a / 4096 * 4096 + 4096 * i)

/-- Whether a copy command has a persistent store still to make: bytes of a row that are not written yet lie on a persistent page. -/
def State.copyPersists (s : State) (c : Nat) (q : CopyCmd) : Bool :=
  (List.range (cRows q.desc)).any fun r =>
    let from_ := q.done - r * cLen q.desc
    decide (from_ < cLen q.desc) &&
      s.persistsIn c q (cDst q.desc + BitVec.ofNat 64 r * cDstride q.desc + BitVec.ofNat 64 from_).toNat (cLen q.desc - from_)

/-- Whether a collective has a persistent store still to make. -/
def State.collPersists (s : State) (c : Nat) (q : CopyCmd) : Bool :=
  match s.groupOf q.lease (kGroup q.desc) with
  | some g => s.persistsIn c q (kDst q.desc).toNat (kDstCount q.desc g.1 * kElem q.desc)
  | none => false

/-- Whether a persistent store of an earlier epoch of a record's slot is not yet accepted, or still stands in a store buffer, the vector
queue, or the queue of the copy engine or of a collective engine (R357). -/
def State.earlierEpoch (s : State) (y : Record) : Bool :=
  let k := s.coreAt y.core
  let kind3 := fun (p : Place) => match p with
    | .mem _ x => x.kind == 3
    | .spad _ => false
  let before := fun (q : CopyCmd) => q.slot == y.slot && q.gen == y.gen && decide (q.epoch < y.epoch)
  s.lehrs.any (fun q => q.2.any fun r => r.core == y.core && r.slot == y.slot && r.gen == y.gen && decide (r.epoch < y.epoch) && !r.accepted) ||
  k.sb.any (fun e => e.slot == y.slot && e.gen == y.gen && e.x.kind == 3 && decide (e.epoch < y.epoch)) ||
  k.vecq.any (fun v => v.slot == y.slot && v.gen == y.gen && decide (v.epoch < y.epoch) && v.stores.isSome && v.places.any fun p => kind3 p.2) ||
  k.copyq.any (fun q => before q && if q.coll then s.collPersists y.core q else s.copyPersists y.core q) ||
  s.colls.any fun x => x.core == y.core && before x.cmd && !x.written && s.collPersists x.core x.cmd

/-- ACCEPT of a record (R357). -/
def State.accept (s : State) (port i : Nat) : State :=
  let q := s.lehr port
  match q[i]? with
  | none => s
  | some y =>
    if s.pwrfail || y.accepted || decide (Config.lehrUnits ≤ (q.filter (·.accepted)).length) || s.earlierEpoch y ||
       (q.take i).any (fun r => r.overlaps y && !r.accepted) then s
    else s.setLehr port (listSet q i { y with accepted := true })

/-- ACCEPT (R357): the record `b` of the lehr `a`. -/
def execLehrAccept (s : State) : Host.Outcome State Fault Refusal :=
  if s.ev.a < Config.ports then runEvent (fun s => s.accept s.ev.a s.ev.b) s else .fault (.noSuchUnit s.ev.a)

/-- RETIRE (R357): of the lehr `a`. -/
def execLehrRetire (s : State) : Host.Outcome State Fault Refusal :=
  if s.ev.a < Config.ports then runEvent (fun s => s.retire s.ev.a) s else .fault (.noSuchUnit s.ev.a)

/-- Every accepted record of a lehr retires, in order. -/
def State.retireAll (s : State) (port : Nat) : State := (List.range (s.lehr port).length).foldl (fun s _ => s.retire port) s

/-- Bits of a port's flags: PEN, GPF, CLEAN (R354), and whether a flush did not complete (R359). -/
def flagPen : Nat := 1
def flagGpf : Nat := 2
def flagClean : Nat := 4
def flagDirty : Nat := 8

/-- PWRFAIL_N (R359): no further record is accepted, each lehr empties, and each port with PEN is flushed; `done` says for which
the flush completes. -/
def State.powerFail (s : State) (done : List Bool) : State :=
  let s := (List.range Config.ports).foldl State.retireAll { s with pwrfail := true }
  { s with lehrFlags := (List.range Config.ports).foldl (fun t p =>
      let f := tabGet 0 t p
      if f % 2 = 1 ∧ done.getD p false = false ∧ f / 8 % 2 = 0 then tabPut t p (f + flagDirty) else t) s.lehrFlags }

/-- PWRFAIL_N (R359): `bools` says on which ports the flush completes. -/
def execPwrfailN (s : State) : Host.Outcome State Fault Refusal := runEvent (fun s => s.powerFail s.ev.bools) s

/-- What the durable store recovers: on a port whose flush did not complete, each byte is a free value (R359). -/
def State.recovered (s : State) : Tab Byte :=
  s.durable.map fun e => if tabGet 0 s.lehrFlags (portOf e.1) / 8 % 2 = 1 then (e.1, Config.freeLost (s.free + e.1)) else e

/-- POWER_LOSS (R358): accepted records retire, in-flight ones are lost, and so is every other state of the device; host memory
is not the device's. -/
def State.losePower (s : State) : State :=
  let s := (List.range Config.ports).foldl State.retireAll s
  let d := s.recovered
  let host := s.mem.filter fun c => windowOf c.1 == 11
  { State.reset with
      up := false, durable := d, durPoison := s.durPoison, poison := s.durPoison, mem := d.foldl (fun m e => memPut m e.1 e.2) host, agenda := s.agenda, ev := s.ev, free := s.free + 1,
      lehrFlags := s.lehrFlags.map fun f => (f.1, f.2 / 8 * 8) }

/-- POWER_LOSS (R358). -/
def execPowerLoss (s : State) : Host.Outcome State Fault Refusal := runEvent State.losePower s

/-! ### Bring-up (R405, R407) -/

/-- 16 TiB, and the unit of the far tier's windows (R398). -/
def farTier : Nat := 2 ^ 44
def farUnit : Nat := 16384
def farSize (smallest cap : Nat) : Nat := min (4 * smallest) cap / farUnit * farUnit
/-- The smallest capacity that the four expanders report; a port without one makes it 0 (R398). -/
def smallest (reports : List (Option Nat)) : Nat :=
  (List.range Config.ports).foldl (fun m p => min m (((reports.getD p none)).getD 0)) farTier

/-- Flags of a port at bring-up: PEN needs an expander that reports persistent capacity and Global Persistent Flush (R360); CLEAN is cleared where a flush
did not complete (R359). -/
def portFlags (b : BringUp) (port old : Nat) : Nat :=
  (if b.pen.getD port false && b.gpf.getD port false && decide (0 < (b.persistent.getD port none).getD 0) then flagPen else 0) + (if b.gpf.getD port false then flagGpf else 0) +
    if b.clean.getD port false && old / 8 % 2 = 0 then flagClean else 0

/-- Whether the expander of a port counts a dirty shutdown (R359): a port without an expander has no count. -/
def BringUp.lost (b : BringUp) (p : Nat) : Bool := ((b.volatile.getD p none).isSome || (b.persistent.getD p none).isSome) && !b.clean.getD p true

/-- The first of the three images, the gaffer's, Hypawin and the home dies' microcode, that does not verify (R405). -/
def BringUp.failed (b : BringUp) : Option Nat := (List.range 3).find? fun i => !b.verified.getD i false

/-- PACKAGE_RESET (R407): what power loss leaves, then the gaffer's steps; an image that fails verification leaves the package in
reset, the failure logged (R405). -/
def State.bringUp (s : State) (b : BringUp) : State :=
  let s := s.losePower
  if b.failed.isSome then { s with log := [⟨0, 0, 3, b.failed.getD 0, 0, 0⟩] }
  else
    let flags := (List.range Config.ports).map fun p => (p, portFlags b p (tabGet 0 s.lehrFlags p))
    let persist := farSize (smallest b.persistent) farTier
    let dirty := (List.range Config.ports).filter fun p => decide (tabGet 0 s.lehrFlags p / 8 % 2 = 1) || b.lost p
    { s with up := true, interleave := min b.interleave 64, node := b.node % 524288, lehrFlags := flags, persistSize := persist,
             volatileSize := farSize (smallest b.volatile) (farTier - persist), atomicOps := b.atomicOps,
             log := dirty.map fun p => ⟨0, 0, 4, p, 0, 0⟩ }

/-- PACKAGE_RESET (R407): with what the gaffer finds, `found`. -/
def execPackageReset (s : State) : Host.Outcome State Fault Refusal :=
  runEvent (fun s => match s.ev.found with
    | some b => s.bringUp b
    | none => s) s

/-! ### Die resets (R311, R312, R348) -/

/-- A core of a die that resets: its tasks are killed with no lease event (R375), its lookaside buffer and `cyc` begin anew. -/
def State.resetCore (s : State) (c : Nat) : State :=
  let s := (List.range Config.slots).foldl (fun s k => if (s.slotAt c k).isLive then s.killTask c k else s) s
  let s := (s.finishVecAll c).drainCore c
  let k := s.coreAt c
  s.setCore c { k with plb := [], cyc := 0, run := [], busy := 0, jalrClk := 0, slow := [], carriedClk := 0, issued := none }

/-- The remote copy of a die is lost: lines with dirty words are poisoned at their homes, and so are the lines that its die cache
held dirty, which are among those it holds (R10). -/
def State.loseLines (s : State) (die : Nat) (dieCache : List Nat) : State :=
  let d := s.dieAt die
  let lost := ((d.lines.filter fun l => l.remote && l.dirty != 0#16).map fun l => l.pa / 64) ++
    dieCache.filter fun l => d.lines.any fun m => !m.remote && m.pa / 64 == l
  { s.setDie die { d with lines := [], dtc := [], inc := d.inc + 1 } with poison := s.poison ++ lost.filter fun l => !s.poison.contains l }

/-- Whether a message on its way has left a core of a die with an incarnation (R311): one that neither a home, nor the distributor, nor another
device has sent. -/
def Msg.leftDie (m : Msg) (die : Nat) (inc : BitVec 3) : Bool :=
  m.origin.isNone && m.entry.isNone && dieOf (m.sender.toNat % 4096) == die && m.inc == inc

/-- Whether a completion that an engine holds carries an incarnation of a die: a token, or a message, here or to another device (R164, R311). -/
def Held.bears (h : Held) (die : Nat) (inc : BitVec 3) : Bool :=
  match h with
  | .token c _ _ _ _ _ _ i => dieOf c == die && i == inc
  | .message m _ _ _ => m.leftDie die inc
  | .away r => dieOf r.core == die && r.inc == inc
  | _ => false

/-- Whether a request or a response that carries an incarnation number of a die is anywhere in the package or on the fabric (R312). -/
def State.incUsed (s : State) (die : Nat) (inc : BitVec 3) : Bool :=
  let mine := fun (w : Asker) => dieOf w.core == die && w.inc == inc
  s.notices.any (fun n => mine n.who) ||
  s.homes.any (fun h => h.2.reqs.any (fun r => (r.who.map mine).getD false) || h.2.waits.any fun w => w.isLdf && mine w.asker) ||
  s.cores.any (fun k => k.2.transit.any (fun m => m.leftDie die inc) || k.2.held.any fun h => h.bears die inc) ||
  s.homes.any (fun h => h.2.held.any fun x => x.bears die inc) ||
  s.gaffer.any (fun g => g.asked == some (die, inc)) || s.releasing.any (fun r => r.cmd.any fun g => g.asked == some (die, inc)) || s.colls.any (fun x => dieOf x.core == die && x.inc == inc) ||
  s.fabric.any fun r => dieOf r.core == die && r.inc == inc

/-- A region of which a die's share is lost (R348). -/
def State.loseShare (s : State) (die lease region : Nat) : State :=
  let r := s.regionAt lease region
  let loss := fpOfUnits 3 (fpUnits r.loss + fpUnits (r.shareOf die))
  (s.setRegion lease region ({ r with loss := loss, share := tabDel r.share die }).recomputeU).leaseEvent lease
    [7, BitVec.ofNat 64 region, loss.zeroExtend 64, 0]

/-- The delta buffer of a die in reset (R348). -/
def State.resolveDeltas (s : State) (die : Nat) (clean : Bool) : State :=
  let ts := (s.dieAt die).trackers
  if clean then
    let s := (s.dieAt die).deltas.foldl (fun s e => s.faddHome e.pa e.val) s
    let s := s.setDie die { s.dieAt die with deltas := [] }
    ts.foldl (fun s t => s.returnShare die t.lease t.region) s
  else
    let s := s.setDie die { s.dieAt die with deltas := [], trackers := [] }
    ts.foldl (fun s t => s.loseShare die t.lease t.region) s

/-- The reset of a core die: `clean` where its delta buffer checks clean. It waits while traffic of eight resets ago still carries the number
that its new incarnation takes (R312). -/
def State.resetDie (s : State) (die : Nat) (clean : Bool) (dieCache : List Nat) : State :=
  let cores := (s.cores.map (·.1)).filter fun c => dieOf c == die
  if s.incUsed die ((s.dieAt die).inc + 1) then s
  else
  let s := cores.foldl State.resetCore s
  ((s.loseLines die dieCache).resolveDeltas die clean).houseEvent 5 die

/-- DIE_RESET (R311, R312, R348): the die `a`; `flag` where its delta buffer checks clean; `nats` the lines, by PA / 64, that its
die cache held dirty. -/
def execDieReset (s : State) : Host.Outcome State Fault Refusal := runDie s fun s => s.resetDie s.ev.a s.ev.flag s.ev.nats
/-- PAIR_LINK_FAILURE (R384): the die `a` resets, with `flag` and `nats` as DIE_RESET reads them. -/
def execPairLinkFailure (s : State) : Host.Outcome State Fault Refusal := runDie s fun s => s.resetDie s.ev.a s.ev.flag s.ev.nats

/-! ### Errors (R380 to R384) -/

/-- An element of a list changed, where there is one. -/
def listUpd {α : Type} (l : List α) (i : Nat) (f : α → α) : List α :=
  match l[i]? with
  | some x => listSet l i (f x)
  | none => l

/-- An entry of a queue of a core is poisoned (R384). -/
def Core.poisonQueue (k : Core) (queue i : Nat) : Core :=
  let bad := fun (m : Msg) => { m with poison := true }
  match queue with
  | 3 => { k with carried := listUpd k.carried i bad }
  | 4 => { k with vecq := listUpd k.vecq i fun v => { v with poison := true } }
  | 5 => { k with copyq := listUpd k.copyq i fun q => { q with poison := true } }
  | 6 => { k with reserve := k.reserve.map fun r => if r.1 = i then (r.1, bad r.2) else r }
  | _ => if queue < 3 then k.setQueue queue (listUpd (k.queue queue) i bad) else k

/-- A change of what a lease has on a core, where both exist. -/
def State.onLCore (s : State) (lease core : Nat) (f : LCore → LCore) : State :=
  if (s.leaseAt lease).isSome ∧ core < Config.cores then s.setLCore lease core (f (s.lcoreAt lease core)) else s

/-- An uncorrectable error at a place: the word, line or entry is poisoned; a delta entry makes its region lossy (R380, R384). -/
def State.hardError (s : State) : ErrorSite → State
  | .memLine pa => s.poisonLine pa
  | .spadWord lease core off =>
    if off < Config.localBacked then s.onLCore lease core fun l =>
      { l with spadPoison := if l.spadPoison.contains (off / 8) then l.spadPoison else off / 8 :: l.spadPoison }
    else s
  | .deltaEntry die lease region =>
    if ((s.dieAt die).tracker lease region).isSome then
      let d := s.dieAt die
      let s := s.setDie die { d with deltas := d.deltas.filter (fun e => !(e.lease == lease && e.region == region)),
                                     trackers := d.trackers.filter fun t => !(t.lease == lease && t.region == region) }
      s.loseShare die lease region
    else s
  | .accWord lease core visible tile row col =>
    if tile < 8 ∧ row < 32 ∧ col < 64 then s.onLCore lease core fun l => { l with accPoison := accKey visible tile row col :: l.accPoison } else s
  | .plane lease core planeB => s.onLCore lease core fun l => { l with planePoison := planeB :: l.planePoison }
  | .cacheLine die lease line =>
    match s.lineOf die lease line with
    | none => s
    | some l => if l.remote then s.mapLine die lease line fun l => { l with poison := true } else s.poisonLine l.pa
  | .lehrRecord port i => s.setLehr port (listUpd (s.lehr port) i fun r => { r with poison := true })
  | .storeEntry core i =>
    let k := s.coreAt core
    s.setCore core { k with sb := listUpd k.sb i fun e => { e with poison := true } }
  | .queueEntry core queue i => s.setCore core ((s.coreAt core).poisonQueue queue i)
  | .waitEntry home i =>
    let v := s.homeAt home
    s.setHome home { v with waits := listUpd v.waits i fun w => { w with poison := true } }
  | .passEntry gang i =>
    match tabFind s.gangs gang with
    | some g => { s with gangs := tabPut s.gangs gang { g with passes := listUpd g.passes i fun p => { p with poison := true } } }
    | none => s
  | .homeRequest home i =>
    let v := s.homeAt home
    s.setHome home { v with reqs := listUpd v.reqs i .bad }
  | .collective i => { s with colls := listUpd s.colls i fun x => { x with cmd := { x.cmd with poison := true } } }
  | .headerEntry fn i =>
    let w := s.windowAt fn
    if i < w.headers.length ∧ !w.badHeaders.contains i then s.setWindow fn { w with badHeaders := i :: w.badHeaders } else s
  | .continuation home i =>
    let v := s.homeAt home
    s.setHome home { v with outbox := listUpd v.outbox i fun m => { m with poison := true } }
  | .gafferCommand i => { s with gaffer := listUpd s.gaffer i fun g => { g with poison := true } }

/-- Whether the unit that an error hits exists. -/
def ErrorSite.unitExists : ErrorSite → Bool
  | .cacheLine die _ _ => decide (die < Config.dies)
  | .lehrRecord port _ => decide (port < Config.ports)
  | .storeEntry core _ => decide (core < Config.cores)
  | .queueEntry core _ _ => decide (core < Config.cores)
  | .waitEntry home _ => decide (home < Config.dies)
  | .homeRequest home _ => decide (home < Config.dies)
  | .headerEntry fn _ => fn.exists
  | .continuation home _ => decide (home < Config.dies)
  | _ => true

/-- UNCORRECTABLE_ERROR (R380, R384): at `site`. -/
def execUncorrectableError (s : State) : Host.Outcome State Fault Refusal :=
  match s.ev.site with
  | none => runEvent id s
  | some (.memLine pa) => if s.inWindow pa then runEvent (fun s => s.hardError (.memLine pa)) s else .fault (.noSuchAddress pa)
  | some x => if x.unitExists then runEvent (fun s => s.hardError x) s else .fault (.noSuchUnit 0)

/-- A tag parity error of a home cache (R383): the home drops the line. A clean one is read again from memory. Of one that may be dirty the
leases that the dirty summary names are reset, or, where the summary overflowed or cannot be read, every lease with a frame homed on the
die; its bytes are free values (log entry 53). -/
def State.tagError (s : State) (home pa : Nat) (readable overflow : Bool) (named : List Nat) : State :=
  let v := s.homeAt home
  let held := v.cache.find? fun e => e.1 == pa / 64
  let s := s.setHome home { v with cache := v.cache.filter fun e => e.1 != pa / 64 }
  match held with
  | some (_, true) =>
    let named := named.filter fun l => (s.leaseAt l).isSome
    let all := !readable || overflow
    let framed := (s.leases.filter fun l => l.2.frames.any fun f => homeOf f == home).map (·.1)
    let who := if all then (named ++ framed).eraseDups else named.take 8
    let s : State := { s with mem := memPutBytes s.mem (pa / 64 * 64) ((List.range 64).map fun i => Config.freeLost (s.free + i)), free := s.free + 64 }
    let s := (who.filter (· != 0)).foldl State.resetLease s
    if all || who.contains 0 then s.houseEvent 6 home else s
  | _ => s

/-- HOME_TAG_PARITY_ERROR (R383): on the home `a`, of the line at `b`; `flag` where the summary is readable, `flag2` where it
overflowed; `nats` the leases with dirty data or frames there. -/
def execHomeTagParityError (s : State) : Host.Outcome State Fault Refusal :=
  runDie s fun s => s.tagError s.ev.a s.ev.b s.ev.flag s.ev.flag2 s.ev.nats

/-- CORRECTABLE_ERROR (R384): in the store `a`; corrected and counted. -/
def execCorrectableError (s : State) : Host.Outcome State Fault Refusal :=
  runEvent (fun s => { s with corrected := tabPut s.corrected s.ev.a (tabGet 0 s.corrected s.ev.a + 1) }) s

/-! ### Writes from outside the cores -/

/-- Bytes that arrive over a host link, line by line at their homes (R299, R318). -/
def State.hostWrite (s : State) (pa : Nat) (bytes : List Byte) : Nat → State
  | 0 => s
  | n + 1 =>
    if bytes.isEmpty then s
    else
      let k := 64 - pa % 64
      (s.homeWrite pa (bytes.take k)).hostWrite (pa + k) (bytes.drop k) n

/-- HOST_LINK_WRITE (R299, R318): `bytes` at the physical address `a`. -/
def execHostLinkWrite (s : State) : Host.Outcome State Fault Refusal :=
  if (List.range s.ev.bytes.length).all fun i => s.inWindow (s.ev.a + i) then
    runEvent (fun s => s.hostWrite s.ev.a s.ev.bytes (s.ev.bytes.length + 1)) s
  else .fault (.noSuchAddress s.ev.a)

/-- A frame copied line by line; a poisoned line is written poisoned, which is a write for WAITA, and listed in the report (R318, R382). A gather goes with its frame, and
with it whether it answers LEASE (R279). -/
def State.migrate (s : State) (src dst : Nat) : State :=
  let moved := (s.gathers.filter fun g => g.1 / 4096 == src / 4096).map fun g => (dst / 4096 * 4096 + g.1 % 4096, g.2)
  let kept := s.gathers.filter fun g => g.1 / 4096 != src / 4096 && g.1 / 4096 != dst / 4096
  let s : State := { s with gathers := if src / 4096 = dst / 4096 then s.gathers else moved.foldl (fun t g => tabPut t g.1 g.2) kept }
  (List.range 64).foldl (fun s i =>
    let a := src / 4096 * 4096 + 64 * i
    let b := dst / 4096 * 4096 + 64 * i
    if s.linePoisoned a then { (s.poisonLine b).wakeLine b with log := s.log ++ [⟨0, 0, 7, a, b, 0⟩] }
    else s.homeWrite b (s.homeRead a 64)) s

/-- MIGRATION_ENGINE_COPY (R382): the frame at `a` to the frame at `b`. -/
def execMigrationEngineCopy (s : State) : Host.Outcome State Fault Refusal :=
  if s.inWindow s.ev.a && s.inWindow s.ev.b then runEvent (fun s => s.migrate s.ev.a s.ev.b) s else .fault (.noSuchAddress s.ev.b)

end Sys2Proof.Machine
end

