-- ==== Sys2Proof/Machine/Clock.lean ====
section
/-! DEFINITION. The clk of a core (R68, R91, R97, R102, R104, R366), charges (R69), the clock's lowering (R17), and words that are no
instruction (R22, R23). -/

namespace Sys2Proof.Machine

/-! ### CLK -/

/-- Clk within which a charge reaches its account (R69). -/
def chargeLimit : Nat := 4096

/-- The lowest-numbered slot with a live task. -/
def Core.lowestLive (k : Core) : Option Nat := (List.range Config.slots).find? fun i => (k.slotAt i).isLive

/-- One clk of a slot that holds a task: `wdc`, but in a gate callee and in MGMT; the count of every frame (R102, R366). -/
def Slot.tick (t : Slot) : Slot :=
  if !t.isLive then t
  else
    let inMgmt := match t.st with
      | .blocked (.mgmt _ _) => true
      | _ => false
    { t with wdc := if inMgmt || !t.frames.isEmpty then t.wdc else t.wdc + 1,
             frames := t.frames.map fun f => { f with remaining := f.remaining - 1 } }

/-- A message grows older while it waits (R97). -/
def Msg.older (m : Msg) : Msg := { m with age := m.age + 1 }

/-- The row's occupancy counter of a clk: 2p for BUSY[p], 2p + 1 for IDLE[p] (R91). -/
def State.countRow (s : State) (lease c i : Nat) : State :=
  let key := rowKey lease (rowOf c)
  let t := tabGet [] s.rows key
  { s with rows := tabPut s.rows key (tabPut t i ((tabGet 0 t i + 1) % 2 ^ 64)) }

/-- The core that counts a slice's clk: the lowest of its quadrant with a live task, else the first (log entry 2). -/
def State.sliceCore (s : State) (q : Nat) : Nat :=
  (((s.cores.filter fun c => quadOf c.1 == q && c.2.lowestLive.isSome).map (·.1)).head?).getD (128 * q)

/-- Whose clk it is (R68, R91): the slot that issued, or whose JALR holds the port (R104), with the phase it issued in; else, where nothing
issues, the lowest-numbered live slot with its own phase. -/
def Core.clkOf (k : Core) : Option (Nat × Nat × Bool) :=
  match k.issued with
  | some i => some (i, k.issuedPhase, true)
  | none =>
    if k.jalrClk != 0 && (k.slotAt k.jalrSlot).isLive then some (k.jalrSlot, (k.slotAt k.jalrSlot).phase.toNat, true)
    else k.lowestLive.map fun i => (i, (k.slotAt i).phase.toNat, false)

/-- The credit and the occupancy count of a clk (R68, R91). -/
def State.account (s : State) (c : Nat) : State :=
  let k := s.coreAt c
  match k.clkOf with
  | none => s
  | some (i, phase, busy) =>
    let t := k.slotAt i
    let s := if k.carriedClk = 0 then s.charge t.account 1 else s
    s.countRow t.lease c (2 * phase + if busy then 0 else 1)

/-- The expiries of a core's slots, due in the clk itself (R103, R366). -/
def State.expiries (s : State) (c : Nat) : List Move :=
  (List.range Config.slots).flatMap fun i =>
    let t := s.slotAt c i
    (if t.isLive && t.frames.any fun f => f.remaining == 0 then [Move.event .glimitExpiry { a := c, b := i }] else []) ++
    (if t.isLive && decide ((s.leaseD t.lease).wdl.toNat ≤ t.wdc.toNat) then [Move.event .watchdogExpiry { a := c, b := i }] else [])

/-- The core that counts the package's clk for charges on their way: the lowest with a live task, else the first (log entry 2). -/
def State.chargeCore (s : State) : Nat := (((s.cores.filter fun c => c.2.lowestLive.isSome).map (·.1)).head?).getD 0

/-- Charges grow older on their way; those that have been on it for 4,096 clk reach their accounts next (R69). -/
def State.ageCharges (s : State) : State :=
  let t : Tab Nat := s.pendAge.map fun e => (e.1, e.2 + 1)
  let due := t.filter fun e => decide (chargeLimit ≤ e.2)
  { s with pendAge := t, agenda := due.map (fun e => Move.event .chargeArrival { a := e.1 }) ++ s.agenda }

/-- The messages of a core's inbound queues that have waited long enough to gain their step of priority and have not gained it: they gain it in
the clk itself (R97). -/
def State.agings (s : State) (c : Nat) : List Move :=
  (List.range 3).flatMap fun cls =>
    let q := (s.coreAt c).queue cls
    ((List.range q.length).filter fun i => (q[i]?).any fun m => !m.aged && decide (Config.ageClk ≤ m.age)).map fun i =>
      Move.event .messageAgeing { a := c, b := cls, c := i }

/-- One clk of a core; what it ages and what expires in it are the machine's next moves. The clk in which a YIELD issues counts after the `wdc` := 0
of that YIELD, so that `wdc` reads 1 in the next: R102 and R113 give no order (DESIGN CHOICE; log entry 69). -/
def State.tick (s : State) (c : Nat) : State :=
  let s := s.account c
  let k := s.coreAt c
  let k' : Core := { k with
    cyc := k.cyc + 1, issued := none, stalled := false, busy := k.busy - 1, carriedClk := k.carriedClk - 1, jalrClk := k.jalrClk - 1,
    slow := (k.slow.map fun e => (e.1, e.2 - 1)).filter fun e => e.2 != 0,
    slots := k.slots.map (fun t => (t.1, t.2.tick)),
    inbound := k.inbound.map (fun q => (q.1, q.2.map Msg.older)),
    carried := k.carried.map Msg.older, reserve := k.reserve.map fun r => (r.1, r.2.older) }
  let s := s.setCore c k'
  let s : State := { s with fabric := s.fabric.map (fun r => if r.core = c then { r with age := r.age + 1 } else r),
                            colls := s.colls.map fun x => if x.core = c then { x with age := x.age + 1 } else x }
  let s := if s.chargeCore = c then s.ageCharges else s
  let s : State := { s with agenda := s.agings c ++ s.expiries c ++ s.agenda }
  let q := quadOf c
  if s.sliceCore q = c then
    let v := s.quadAt q
    s.setQuad q { v with clk := v.clk + 1 }
  else s

/-- CLK (R68, R91, R102): of the core `a`; what issues in it is the step's. -/
def execClk (s : State) : Host.Outcome State Fault Refusal := runCore s fun s => s.tick s.ev.a

/-! ### Charges -/

/-- Charges reach an account (R69), which is then exhausted or not, and the gaffer acts on it while it is. -/
def State.chargeArrive (s : State) (a : Nat) : State :=
  let n := tabGet 0 s.pending a
  if n = 0 then s
  else ({ s with pending := tabDel s.pending a, pendAge := tabDel s.pendAge a } : State).moveBalance a ((s.accountAt a).balance - n)

/-- CHARGE_ARRIVAL (R69): to the account `a`. -/
def execChargeArrival (s : State) : Host.Outcome State Fault Refusal := runEvent (fun s => s.chargeArrive s.ev.a) s

/-! ### Others -/

/-- CLOCK_LOWERING (R17): timing alone changes. -/
def execClockLowering (s : State) : Host.Outcome State Fault Refusal := runEvent (fun s => { s with clockLowered := true }) s

/-- A word that is no instruction (R22, R23): ILLOP for the issuing slot, with no other effect. -/
def execIllegalInstruction (s : State) : Host.Outcome State Fault Refusal := .next (s.stopped s.core s.slot .illop)

end Sys2Proof.Machine
end

