-- ==== Sys2Proof/Machine/Float.lean ====
section
/-! DEFINITION. Scalar FP32 forms (R124 to R133): each changes x[rd] and ORs its flags into `ff`. -/

namespace Sys2Proof.Machine

/-- The FP32 operand in an x register (R124). -/
def Slot.getF (t : Slot) (r : BitVec 5) : Lane := (t.getX r).setWidth 32
/-- An FP32 result, zero-extended, with its flags. -/
def Slot.setF (t : Slot) (d : BitVec 5) (r : Lane × FpFlags) : Slot :=
  { t.setX d (r.1.zeroExtend 64) with ff := ffRaise t.ff r.2 }
/-- An integer result with its flags. -/
def Slot.setFlagged (t : Slot) (d : BitVec 5) (v : Word) (f : FpFlags) : Slot := { t.setX d v with ff := ffRaise t.ff f }

/-- FADD.S (R128). -/
def execFaddS (d a b : BitVec 5) (m : BitVec 3) (s : State) : Host.Outcome State Fault Refusal :=
  runSlot (slotOp fun t => t.setF d (fpAdd (roundingOf m t.ff) (t.getF a) (t.getF b))) s
/-- FSUB.S (R128). -/
def execFsubS (d a b : BitVec 5) (m : BitVec 3) (s : State) : Host.Outcome State Fault Refusal :=
  runSlot (slotOp fun t => t.setF d (fpSub (roundingOf m t.ff) (t.getF a) (t.getF b))) s
/-- FMUL.S (R128). -/
def execFmulS (d a b : BitVec 5) (m : BitVec 3) (s : State) : Host.Outcome State Fault Refusal :=
  runSlot (slotOp fun t => t.setF d (fpMul (roundingOf m t.ff) (t.getF a) (t.getF b))) s
/-- FDIV.S (R128). -/
def execFdivS (d a b : BitVec 5) (m : BitVec 3) (s : State) : Host.Outcome State Fault Refusal :=
  runSlot (slotOp fun t => t.setF d (fpDiv (roundingOf m t.ff) (t.getF a) (t.getF b))) s
/-- FSQRT.S (R128). -/
def execFsqrtS (d a : BitVec 5) (m : BitVec 3) (s : State) : Host.Outcome State Fault Refusal :=
  runSlot (slotOp fun t => t.setF d (fpSqrt (roundingOf m t.ff) (t.getF a))) s
/-- FMADD.S (R129). -/
def execFmaddS (d a b c : BitVec 5) (m : BitVec 3) (s : State) : Host.Outcome State Fault Refusal :=
  runSlot (slotOp fun t => t.setF d (fpFma (roundingOf m t.ff) (t.getF a) (t.getF b) (t.getF c))) s

/-- The magnitude of one word with a sign (R130). -/
def signInject (a : Lane) (neg : Bool) : Lane := (if neg then 1#1 else 0#1) ++ a.extractLsb' 0 31

/-- FSGNJ.S (R130). -/
def execFsgnjS (d a b : BitVec 5) (s : State) : Host.Outcome State Fault Refusal :=
  runSlot (slotOp fun t => t.setF d (signInject (t.getF a) (fpSign (t.getF b)), 0)) s
/-- FSGNJN.S (R130). -/
def execFsgnjnS (d a b : BitVec 5) (s : State) : Host.Outcome State Fault Refusal :=
  runSlot (slotOp fun t => t.setF d (signInject (t.getF a) (!fpSign (t.getF b)), 0)) s
/-- FSGNJX.S (R130). -/
def execFsgnjxS (d a b : BitVec 5) (s : State) : Host.Outcome State Fault Refusal :=
  runSlot (slotOp fun t => t.setF d (signInject (t.getF a) (fpSign (t.getF a) != fpSign (t.getF b)), 0)) s
/-- FMIN.S (R130). -/
def execFminS (d a b : BitVec 5) (s : State) : Host.Outcome State Fault Refusal :=
  runSlot (slotOp fun t => t.setF d (fpMin (t.getF a) (t.getF b), 0)) s
/-- FMAX.S (R130). -/
def execFmaxS (d a b : BitVec 5) (s : State) : Host.Outcome State Fault Refusal :=
  runSlot (slotOp fun t => t.setF d (fpMax (t.getF a) (t.getF b), 0)) s

/-- The word of a compare. -/
def truthWord (c : Bool) : Word := if c then 1#64 else 0#64

/-- FLE.S (R130). -/
def execFleS (d a b : BitVec 5) (s : State) : Host.Outcome State Fault Refusal :=
  runSlot (slotOp fun t => t.setFlagged d (truthWord (fpLe (t.getF a) (t.getF b))) (fpCmpFlags (t.getF a) (t.getF b))) s
/-- FLT.S (R130). -/
def execFltS (d a b : BitVec 5) (s : State) : Host.Outcome State Fault Refusal :=
  runSlot (slotOp fun t => t.setFlagged d (truthWord (fpLt (t.getF a) (t.getF b))) (fpCmpFlags (t.getF a) (t.getF b))) s
/-- FEQ.S (R130). -/
def execFeqS (d a b : BitVec 5) (s : State) : Host.Outcome State Fault Refusal :=
  runSlot (slotOp fun t => t.setFlagged d (truthWord (fpEq (t.getF a) (t.getF b))) 0) s

/-- A conversion to a signed integer of `n` bits (R132). -/
def fpToSigned (n rm : Nat) (a : Lane) : Word × FpFlags :=
  let (v, f) := fpToInt (-(2 ^ (n - 1))) (2 ^ (n - 1) - 1) rm a
  (BitVec.ofInt 64 v, f)

/-- FCVT.W.S (R132). -/
def execFcvtWS (d a : BitVec 5) (m : BitVec 3) (s : State) : Host.Outcome State Fault Refusal :=
  runSlot (slotOp fun t => let r := fpToSigned 32 (roundingOf m t.ff) (t.getF a); t.setFlagged d r.1 r.2) s
/-- FCVT.L.S (R132). -/
def execFcvtLS (d a : BitVec 5) (m : BitVec 3) (s : State) : Host.Outcome State Fault Refusal :=
  runSlot (slotOp fun t => let r := fpToSigned 64 (roundingOf m t.ff) (t.getF a); t.setFlagged d r.1 r.2) s
/-- FCVT.S.W (R131). -/
def execFcvtSW (d a : BitVec 5) (m : BitVec 3) (s : State) : Host.Outcome State Fault Refusal :=
  runSlot (slotOp fun t => t.setF d (fpOfInt (roundingOf m t.ff) (t.getF a).toInt)) s
/-- FCVT.S.L (R131). -/
def execFcvtSL (d a : BitVec 5) (m : BitVec 3) (s : State) : Host.Outcome State Fault Refusal :=
  runSlot (slotOp fun t => t.setF d (fpOfInt (roundingOf m t.ff) (t.getX a).toInt)) s
/-- FCLASS.S (R133). -/
def execFclassS (d a : BitVec 5) (s : State) : Host.Outcome State Fault Refusal :=
  runSlot (slotOp fun t => t.setX d (fpClass (t.getF a))) s

end Sys2Proof.Machine
end

