-- ==== Sys2Proof/Machine/Gates.lean ====
section
/-! DEFINITION. Gate calls (R361 to R370): GATE, GRET and GQRY. -/

namespace Sys2Proof.Machine

/-! ### Gate entries (R362) -/

/-- The four words of an entry. -/
structure GateEntry where
  w0 : Nat
  w1 : Nat
  w2 : Nat
  w3 : Nat
deriving DecidableEq, Repr

def gateOfBytes (bs : List Byte) : GateEntry :=
  { w0 := leNat (bs.take 8), w1 := leNat ((bs.drop 8).take 8), w2 := leNat ((bs.drop 16).take 8), w3 := leNat ((bs.drop 24).take 8) }

def GateEntry.v (e : GateEntry) : Bool := e.w0.testBit 63
def GateEntry.own (e : GateEntry) : Bool := e.w0.testBit 62
def GateEntry.vec (e : GateEntry) : Bool := e.w0.testBit 61
def GateEntry.argc (e : GateEntry) : Nat := bitsOf e.w0 59 56
def GateEntry.dom (e : GateEntry) : Nat := bitsOf e.w0 55 48
def GateEntry.entry (e : GateEntry) : Nat := bitsOf e.w0 47 0
def GateEntry.sbase (e : GateEntry) : Nat := bitsOf e.w1 49 32
def GateEntry.limit (e : GateEntry) : Nat := bitsOf e.w1 31 0
def GateEntry.ssize (e : GateEntry) : Nat := bitsOf e.w2 17 0

/-- Malformed under R362. -/
def GateEntry.malformed (e : GateEntry) : Bool :=
  e.w0.testBit 60 || bitsOf e.w0 1 0 != 0 || e.w0.testBit 47 || bitsOf e.w1 63 50 != 0 || bitsOf e.w2 63 18 != 0 || e.w3 != 0 ||
  decide (8 < e.argc) || e.limit == 0 || e.sbase % 64 != 0 || e.ssize % 64 != 0 || decide (0x3F800 < e.sbase + e.ssize)

/-- A fault of a computation is GATE's own (R369). -/
def asGate {α : Type} (m : M α) : M α := fun s =>
  match m s with
  | .ok a s' => .ok a s'
  | .error (.fault f) s' => .error (.fault { f with gate := true }) s'
  | .error e s' => .error e s'

/-- Read entry n (R365): a translated load that needs no lookaside right. -/
def gateEntry (n : Nat) : M GateEntry := do
  settleM
  let s ← getS
  let p ← partyM
  let ea := s.gtbOf p.lease p.core + BitVec.ofNat 64 (32 * n)
  let a := ea.toNat
  if 2 ^ 48 ≤ a then addrFault causeDaddr ea
  if 2 ^ 47 ≤ a then addrFault causeAper ea
  let pl ← if inLocal a then do
      checkOffset p ea (a - Config.localBase) 32 false
      pure (Place.spad (a - Config.localBase))
    else do
      let x ← translateHeld p a { write := false, fetch := false }
      pure (Place.mem a x)
  let s ← getS
  let bs ← loadM s.core s.slot pl 32
  return gateOfBytes bs

/-- Whether an entry passes its own checks: in use, well formed, and honoured where the partition owns it (R363, R365). -/
def State.gateOk (s : State) (lease : Nat) (e : GateEntry) : Bool := e.v && !e.malformed && (!e.own || s.gtbIsLocked lease)

/-- The gate right of a domain on an entry's code. -/
def gateRight (e : GateEntry) : M Bool := do
  let p ← partyM
  let r ← plbRights p.core p.lease p.dom e.entry { write := false, fetch := false }
  return r.g

/-- The state of the slot that a call begins with (R365). -/
def Slot.enterGate (t : Slot) (n : Nat) (e : GateEntry) : Slot :=
  let f : Frame := { pc := t.pc + 4, x := t.x, dom := t.dom, ff := t.ff, ctype := t.ctype, bexp := t.bexp, lc := t.lc, ls := t.ls,
                     le := t.le, loops := (if t.loopOn 0 then 1#2 else 0#2) ||| (if t.loopOn 1 then 2#2 else 0#2), vec := e.vec,
                     v := t.v, p := t.p, q := t.q, remaining := e.limit, own := e.own, index := n, sbase := e.sbase,
                     ssize := e.ssize }
  let x := t.x.filter fun r => decide (10 ≤ r.1) && decide (r.1 ≤ 9 + e.argc)
  let t := { t with x := x }
  let t := (t.setX 2#5 (BitVec.ofNat 64 (Config.localBase + e.sbase))).setX 3#5 (BitVec.ofNat 64 e.ssize)
  let t := if e.vec then { t with v := [], p := [], q := [] } else t
  { t.clearLoops with ff := 0, ctype := 0, bexp := 127#8, dom := BitVec.ofNat 8 e.dom, epoch := t.epoch + 1,
                      frames := f :: t.frames, pc := BitVec.ofNat 48 e.entry, ahead := [] }

/-- GATE (R365): a GATE that faults changes nothing. -/
def execGate (n : BitVec 6) (s : State) : Host.Outcome State Fault Refusal :=
  runSlot (do
    let t ← curM
    if t.depth = 4 then asGate (faultM causeGdepth)
    let e ← asGate (gateEntry n.toNat)
    let s ← getS
    if !s.gateOk t.lease e then asGate (faultM causeGentry)
    let g ← asGate (gateRight e)
    if !g then asGate (rightsFault causePerm e.entry { write := false, fetch := false })
    vecDoneM
    modCur fun t => t.enterGate n.toNat e
    return .stay) s

/-- The callee's registers are scrubbed and the caller's frame is back (R367); the GATE counts as a completed word of the
caller's loop body. -/
def Slot.leaveGate (t : Slot) (f : Frame) (rest : List Frame) : Slot :=
  let a := t.getX 10#5
  let b := t.getX 11#5
  let u := ((t.popFrame f rest).setX 10#5 a).setX 11#5 b
  endCheck { u with epoch := u.epoch + 1, ahead := [] } (f.pc - 4)

/-- GRET (R367). -/
def execGret (s : State) : Host.Outcome State Fault Refusal :=
  runSlot (do
    vecDoneM
    let t ← curM
    match t.frames with
    | [] => throw .illop
    | f :: rest =>
      modCur fun t => t.leaveGate f rest
      return .stay) s

/-- What GQRY shows of an entry (R368). -/
def GateEntry.word (e : GateEntry) (call : Bool) : Word :=
  BitVec.ofNat 64 (e.limit + e.dom * 2 ^ 48 + e.argc * 2 ^ 56 + (if call then 2 ^ 60 else 0) + (if e.vec then 2 ^ 61 else 0) +
    (if e.own then 2 ^ 62 else 0) + if e.v then 2 ^ 63 else 0)

/-- What GQRY shows of the current call (R368). -/
def Slot.callWord (t : Slot) : Word :=
  match t.frames with
  | [] => 0#64
  | f :: _ => BitVec.ofNat 64 (f.remaining % 2 ^ 32 + t.depth * 2 ^ 32 + f.dom.toNat * 2 ^ 48)

/-- GQRY (R368). -/
def execGqry (d a : BitVec 5) (s : State) : Host.Outcome State Fault Refusal :=
  runSlot (do
    let t ← curM
    let sel := (t.getX a).toNat
    let v ← if sel < 64 then do
        let e ← asGate (gateEntry sel)
        let s ← getS
        let call ← if s.gateOk t.lease e then do
            let g ← catchM (gateRight e)
            match g with
            | .ok r => pure r
            | .error .poison => throw .poison
            | .error _ => pure false
          else pure false
        pure (e.word call)
      else pure (if sel = 0x80 then t.callWord else 0xFFFFFFFFFFFFFFFF#64)
    setXM d v
    return .seq) s

end Sys2Proof.Machine
end

