-- ==== Sys2Proof/Machine/Scalar.lean ====
section
/-! DEFINITION. Scalar integer and bit forms, LUI and AUIPC (R105, R119 to R123): each changes x[rd] alone. -/

namespace Sys2Proof.Machine

/-- A form that writes x[rd] from one x register. -/
def unary (d a : BitVec 5) (f : Word → Word) : M Flow := slotOp fun t => t.setX d (f (t.getX a))
/-- A form that writes x[rd] from two x registers, both read first. -/
def binary (d a b : BitVec 5) (f : Word → Word → Word) : M Flow := slotOp fun t => t.setX d (f (t.getX a) (t.getX b))
/-- 1 or 0 (R120, R121). -/
def boolWord (c : Bool) : Word := if c then 1#64 else 0#64
/-- A 12-bit immediate, sign-extended. -/
def imm12 (i : BitVec 12) : Word := i.signExtend 64
/-- A shift amount, bits [5:0] of a register. -/
def shamt (b : Word) : Nat := (b.extractLsb' 0 6).toNat

/-- The upper immediate: bits [31:12], sign-extended from bit 31 (R105). -/
def upperImm (imm : BitVec 20) : Word := (imm ++ 0#12).signExtend 64

/-- LUI (R105). -/
def execLui (d : BitVec 5) (imm : BitVec 20) (s : State) : Host.Outcome State Fault Refusal :=
  runSlot (slotOp fun t => t.setX d (upperImm imm)) s
/-- AUIPC (R105). -/
def execAuipc (d : BitVec 5) (imm : BitVec 20) (s : State) : Host.Outcome State Fault Refusal :=
  runSlot (slotOp fun t => t.setX d (t.pc.zeroExtend 64 + upperImm imm)) s

/-- ADDI (R120). -/
def execAddi (d a : BitVec 5) (imm : BitVec 12) (s : State) : Host.Outcome State Fault Refusal :=
  runSlot (unary d a fun x => x + imm12 imm) s
/-- SLTI (R120). -/
def execSlti (d a : BitVec 5) (imm : BitVec 12) (s : State) : Host.Outcome State Fault Refusal :=
  runSlot (unary d a fun x => boolWord (x.slt (imm12 imm))) s
/-- SLTIU (R120). -/
def execSltiu (d a : BitVec 5) (imm : BitVec 12) (s : State) : Host.Outcome State Fault Refusal :=
  runSlot (unary d a fun x => boolWord (x.ult (imm12 imm))) s
/-- XORI (R120). -/
def execXori (d a : BitVec 5) (imm : BitVec 12) (s : State) : Host.Outcome State Fault Refusal :=
  runSlot (unary d a fun x => x ^^^ imm12 imm) s
/-- ORI (R120). -/
def execOri (d a : BitVec 5) (imm : BitVec 12) (s : State) : Host.Outcome State Fault Refusal :=
  runSlot (unary d a fun x => x ||| imm12 imm) s
/-- ANDI (R120). -/
def execAndi (d a : BitVec 5) (imm : BitVec 12) (s : State) : Host.Outcome State Fault Refusal :=
  runSlot (unary d a fun x => x &&& imm12 imm) s
/-- SLLI (R120). -/
def execSlli (d a : BitVec 5) (sh : BitVec 6) (s : State) : Host.Outcome State Fault Refusal :=
  runSlot (unary d a fun x => x <<< sh.toNat) s
/-- SRLI (R120). -/
def execSrli (d a : BitVec 5) (sh : BitVec 6) (s : State) : Host.Outcome State Fault Refusal :=
  runSlot (unary d a fun x => x >>> sh.toNat) s
/-- SRAI (R120). -/
def execSrai (d a : BitVec 5) (sh : BitVec 6) (s : State) : Host.Outcome State Fault Refusal :=
  runSlot (unary d a fun x => x.sshiftRight sh.toNat) s
/-- RORI (R120). -/
def execRori (d a : BitVec 5) (sh : BitVec 6) (s : State) : Host.Outcome State Fault Refusal :=
  runSlot (unary d a fun x => x.rotateRight sh.toNat) s

/-- ADD (R121). -/
def execAdd (d a b : BitVec 5) (s : State) : Host.Outcome State Fault Refusal := runSlot (binary d a b fun x y => x + y) s
/-- SUB (R121). -/
def execSub (d a b : BitVec 5) (s : State) : Host.Outcome State Fault Refusal := runSlot (binary d a b fun x y => x - y) s
/-- SLL (R121). -/
def execSll (d a b : BitVec 5) (s : State) : Host.Outcome State Fault Refusal :=
  runSlot (binary d a b fun x y => x <<< shamt y) s
/-- SLT (R121). -/
def execSlt (d a b : BitVec 5) (s : State) : Host.Outcome State Fault Refusal :=
  runSlot (binary d a b fun x y => boolWord (x.slt y)) s
/-- SLTU (R121). -/
def execSltu (d a b : BitVec 5) (s : State) : Host.Outcome State Fault Refusal :=
  runSlot (binary d a b fun x y => boolWord (x.ult y)) s
/-- XOR (R121). -/
def execXor (d a b : BitVec 5) (s : State) : Host.Outcome State Fault Refusal := runSlot (binary d a b fun x y => x ^^^ y) s
/-- SRL (R121). -/
def execSrl (d a b : BitVec 5) (s : State) : Host.Outcome State Fault Refusal :=
  runSlot (binary d a b fun x y => x >>> shamt y) s
/-- SRA (R121). -/
def execSra (d a b : BitVec 5) (s : State) : Host.Outcome State Fault Refusal :=
  runSlot (binary d a b fun x y => x.sshiftRight (shamt y)) s
/-- OR (R121). -/
def execOr (d a b : BitVec 5) (s : State) : Host.Outcome State Fault Refusal := runSlot (binary d a b fun x y => x ||| y) s
/-- AND (R121). -/
def execAnd (d a b : BitVec 5) (s : State) : Host.Outcome State Fault Refusal := runSlot (binary d a b fun x y => x &&& y) s

/-- The upper half of a signed product (R122). -/
def mulHigh (x y : Word) : Word := BitVec.ofInt 64 (x.toInt * y.toInt / 2 ^ 64)
/-- The upper half of an unsigned product (R122). -/
def mulHighU (x y : Word) : Word := BitVec.ofNat 64 (x.toNat * y.toNat / 2 ^ 64)
/-- Division with the corner of a zero divisor (R122). -/
def divWord (x y : Word) : Word := if y = 0#64 then 0xFFFFFFFFFFFFFFFF#64 else x.sdiv y
def divWordU (x y : Word) : Word := if y = 0#64 then 0xFFFFFFFFFFFFFFFF#64 else x.udiv y
/-- Remainder with the corner of a zero divisor (R122). -/
def remWord (x y : Word) : Word := if y = 0#64 then x else x.srem y
def remWordU (x y : Word) : Word := if y = 0#64 then x else x.umod y

/-- MUL (R122). -/
def execMul (d a b : BitVec 5) (s : State) : Host.Outcome State Fault Refusal := runSlot (binary d a b fun x y => x * y) s
/-- MULH (R122). -/
def execMulh (d a b : BitVec 5) (s : State) : Host.Outcome State Fault Refusal := runSlot (binary d a b mulHigh) s
/-- MULHU (R122). -/
def execMulhu (d a b : BitVec 5) (s : State) : Host.Outcome State Fault Refusal := runSlot (binary d a b mulHighU) s
/-- DIV (R122). -/
def execDiv (d a b : BitVec 5) (s : State) : Host.Outcome State Fault Refusal := runSlot (binary d a b divWord) s
/-- DIVU (R122). -/
def execDivu (d a b : BitVec 5) (s : State) : Host.Outcome State Fault Refusal := runSlot (binary d a b divWordU) s
/-- REM (R122). -/
def execRem (d a b : BitVec 5) (s : State) : Host.Outcome State Fault Refusal := runSlot (binary d a b remWord) s
/-- REMU (R122). -/
def execRemu (d a b : BitVec 5) (s : State) : Host.Outcome State Fault Refusal := runSlot (binary d a b remWordU) s

/-- The carry-less product over the bits of `y` below `n` (R123). -/
def clmulGo (x y : Word) : Nat → BitVec 128
  | 0 => 0#128
  | n + 1 => clmulGo x y n ^^^ (if y.getLsbD n then x.zeroExtend 128 <<< n else 0#128)
/-- The carry-less product of 128 bits (R123). -/
def clmul128 (x y : Word) : BitVec 128 := clmulGo x y 64
/-- Zero bits above the highest set bit among the low `n` bits. -/
def clzGo (x : Word) : Nat → Nat
  | 0 => 0
  | n + 1 => if x.getLsbD n then 0 else clzGo x n + 1
/-- Zero bits from bit `i` up to the lowest set bit, of `n` bits left. -/
def ctzGo (x : Word) (i : Nat) : Nat → Nat
  | 0 => 0
  | n + 1 => if x.getLsbD i then 0 else ctzGo x (i + 1) n + 1
/-- Set bits among the low `n` bits. -/
def cpopGo (x : Word) : Nat → Nat
  | 0 => 0
  | n + 1 => cpopGo x n + (if x.getLsbD n then 1 else 0)
/-- The bytes reversed (R123). -/
def bswapWord (x : Word) : Word :=
  x.extractLsb' 0 8 ++ x.extractLsb' 8 8 ++ x.extractLsb' 16 8 ++ x.extractLsb' 24 8 ++ x.extractLsb' 32 8 ++
    x.extractLsb' 40 8 ++ x.extractLsb' 48 8 ++ x.extractLsb' 56 8

/-- CLMUL (R123). -/
def execClmul (d a b : BitVec 5) (s : State) : Host.Outcome State Fault Refusal :=
  runSlot (binary d a b fun x y => (clmul128 x y).extractLsb' 0 64) s
/-- CLMULH (R123). -/
def execClmulh (d a b : BitVec 5) (s : State) : Host.Outcome State Fault Refusal :=
  runSlot (binary d a b fun x y => (clmul128 x y).extractLsb' 64 64) s
/-- CLZ (R123). -/
def execClz (d a : BitVec 5) (s : State) : Host.Outcome State Fault Refusal :=
  runSlot (unary d a fun x => BitVec.ofNat 64 (clzGo x 64)) s
/-- CTZ (R123). -/
def execCtz (d a : BitVec 5) (s : State) : Host.Outcome State Fault Refusal :=
  runSlot (unary d a fun x => BitVec.ofNat 64 (ctzGo x 0 64)) s
/-- CPOP (R123). -/
def execCpop (d a : BitVec 5) (s : State) : Host.Outcome State Fault Refusal :=
  runSlot (unary d a fun x => BitVec.ofNat 64 (cpopGo x 64)) s
/-- ROR (R123). -/
def execRor (d a b : BitVec 5) (s : State) : Host.Outcome State Fault Refusal :=
  runSlot (binary d a b fun x y => x.rotateRight (shamt y)) s
/-- BSWAP (R123). -/
def execBswap (d a : BitVec 5) (s : State) : Host.Outcome State Fault Refusal := runSlot (unary d a bswapWord) s

end Sys2Proof.Machine
end

