-- ==== Sys2Proof/Machine/StateWindow.lean ====
section
/-! DEFINITION. The state window (R389 to R392): STATEWIN reads one object of the machine into the issuer's memory. Bytes whose
place within an item R390 leaves open are free values (log entry 10). -/

namespace Sys2Proof.Machine

/-! ### What STATEWIN asks (R389) -/

def GafferCmd.winObj (g : GafferCmd) : Nat := bitsOf (g.word 1) 7 0
def GafferCmd.winUnit (g : GafferCmd) : Nat := bitsOf (g.word 1) 19 8
def GafferCmd.winLease (g : GafferCmd) : Nat := let l := bitsOf (g.word 1) 27 20; if l = 0 then g.lease else l
def GafferCmd.winPart (g : GafferCmd) : Nat := bitsOf (g.word 1) 31 28
def GafferCmd.winIdx (g : GafferCmd) : Nat := bitsOf (g.word 1) 47 32

/-- Whether an issuer may read what belongs to a lease (R391). -/
def State.winReach (s : State) (g : GafferCmd) (lease : Nat) : Bool :=
  match g.level with
  | 0 => true
  | 1 => (s.leaseD lease).part == g.part
  | _ => lease == g.lease

/-- A physical address as the issuer sees it: its frame reads zero at level 2 (R391). -/
def GafferCmd.frameSeen (g : GafferCmd) (pa : Nat) : Nat := if g.level = 2 then pa % 4096 else pa

def dword (n : Nat) : List Byte := leBytes 8 n
/-- An item of `n` bytes whose fields R390 names and does not place: how an object packs them is free (log entry 10). -/
def packed (obj n : Nat) (fields : List Nat) : List Byte := (List.range n).map fun i => Config.freePack obj i fields
/-- Bytes followed by zeros up to a length. -/
def padTo (n : Nat) (bs : List Byte) : List Byte := bs ++ List.replicate (n - bs.length) 0#8

/-! ### Items (R390) -/

/-- Numbers of the per-slot CSRs, rising (R31). -/
def slotCsrNumbers : List Nat :=
  [0x000, 0x001, 0x002, 0x004, 0x005, 0x006, 0x007, 0x008, 0x009, 0x00A, 0x010, 0x011, 0x012, 0x013, 0x014, 0x015, 0x042, 0x050, 0x051]

/-- A slot context. -/
def Slot.context (t : Slot) (k : Nat) : List Byte :=
  padTo 4096 (dword (t.summary k).toNat ++ dword t.pc.toNat ++
    ((List.range 32).flatMap fun r => dword (t.getX (BitVec.ofNat 5 r)).toNat) ++
    ((List.range 32).flatMap fun r => leBytes 64 (t.getV r).toNat) ++
    ((List.range 8).flatMap fun r => leBytes 2 (t.getP r).toNat) ++
    ((List.range 8).flatMap fun r => (List.range 4).flatMap fun i => dword ((t.getQ r).getD i 0#64).toNat) ++
    ((List.range 8).flatMap fun r => leBytes 1 (t.getQ r).length) ++
    slotCsrNumbers.flatMap fun n => dword ((t.csr k n).getD 0#64).toNat)

/-- Hidden gate frames, innermost first; those of partition-owned gates are withheld from a lease (R370, R391). -/
def Slot.frameItems (k : Nat) (level : Nat) : List Frame → Slot → List Byte
  | [], _ => []
  | f :: rest, t =>
    let u := t.popFrame f rest
    (if f.own && level == 2 then [] else { u with wdc := BitVec.ofNat 32 f.remaining }.context k) ++ Slot.frameItems k level rest u

/-- The messages of a core's inbound and carried-code queues, in arrival order. -/
def Core.messages (k : Core) : List Msg := byStamp (k.queue 0 ++ k.queue 1 ++ k.queue 2 ++ k.carried)

/-- A bank of accumulator tiles, row-major; a BUSY working tile reads free values (R244). -/
def LCore.bankBytes (l : LCore) (vis : Bool) (busy : Nat → Bool) (free : Nat) : List Byte :=
  (List.range 8).flatMap fun t => (List.range 2048).flatMap fun i =>
    leBytes 4 (if !vis && busy t then Config.freeLane (free + 2048 * t + i) else l.elem vis t (i / 64) (i % 64)).toNat

/-- A plane's element bytes, in the layout of its slice (R199). -/
def Plane.bytes (p : Plane) : List Byte :=
  (List.range 2048).map fun i =>
    if p.bi4 then BitVec.ofInt 4 (p.w (i / 32) (2 * (i % 32) + 1)) ++ BitVec.ofInt 4 (p.w (i / 32) (2 * (i % 32)))
    else BitVec.ofInt 8 (p.w (i / 32) (i % 32))
/-- A byte for each block of a plane, of which a column has one in BI8 and two in BI4: [3:0] the downshift, [7] the NaN mark (R199, R209). -/
def Plane.shiftBytes (p : Plane) : List Byte :=
  (List.range (if p.bi4 then 128 else 64)).map fun i =>
    let (n, b) := if p.bi4 then (i / 2, i % 2) else (i, 0)
    BitVec.ofNat 8 (p.shift n b + if p.nan n b then 128 else 0)

/-- The matrix image of a lease on a core; five bytes hold the planes' format and T, and the active mark. -/
def LCore.matrixImage (l : LCore) (busy : Nat → Bool) (free : Nat) : List Byte :=
  padTo 141312 (l.bankBytes false busy free ++ l.bankBytes true busy free ++
    ((List.range 8).flatMap fun t => (List.range 2).flatMap fun b => (List.range 8).flatMap fun j =>
      dword (recWord (l.recOf (b == 1) t) j).toNat) ++
    l.planeA.bytes ++ l.planeB.bytes ++ l.planeA.shiftBytes ++ l.planeB.shiftBytes ++
    packed 0x06 5 [l.planeA.bi4.toNat, l.planeB.bi4.toNat, l.planeA.t, l.planeB.t, l.activeB.toNat])

/-- A wait-table entry, then its `wid` (R317). -/
def WaitEntry.item (w : WaitEntry) (g : GafferCmd) : List Byte :=
  dword (2 ^ 63 + (if w.isLdf then 2 ^ 62 else 0) + g.frameSeen w.pa / 8 * 8 % 2 ^ 52) ++
  dword (w.lease * 2 ^ 48 + w.tag * 2 ^ 40 + w.type * 2 ^ 32 + w.sid.toNat * 2 ^ 16 + w.core) ++
  dword w.arg0.toNat ++ dword w.arg1.toNat ++ dword w.wid.toNat

/-- The 32 entries of a lookaside buffer; those out of the issuer's reach read zero. -/
def State.plbItem (s : State) (g : GafferCmd) (c : Nat) : List Byte :=
  padTo 256 ((s.coreAt c).plb.flatMap fun e =>
    if s.winReach g e.lease then
      dword (2 ^ 63 + (if e.r then 2 ^ 59 else 0) + (if e.w then 2 ^ 58 else 0) + (if e.x then 2 ^ 57 else 0) +
        (if e.g then 2 ^ 56 else 0) + e.dom * 2 ^ 48 + e.lease * 2 ^ 40 + e.seg)
    else dword 0)

/-- An entry of a die's translation cache: lease and DVA page; PA frame; ceilings, kind and size. The packing of its first and last words is
free. -/
def Xlat.item (x : Xlat) (g : GafferCmd) : List Byte :=
  packed 0x09 8 [x.lease, x.page * x.span] ++ dword (if g.level = 2 then 0 else x.pa) ++
    packed 0x109 8 [x.wc1.toNat, x.xc1.toNat, x.lv1, x.wc2.toNat, x.xc2.toNat, x.lv2, x.kind, x.span]

/-- An item of a delta buffer (R338): its packing is free. -/
def Delta.item (e : Delta) (g : GafferCmd) : List Byte := packed 0x0D 16 [0, e.lease, g.frameSeen e.pa, e.region, e.val.toNat]
def Tracker.item (t : Tracker) : List Byte := packed 0x0D 16 [1, t.lease, t.region, t.mag.toNat, t.share.toNat]

/-- An event of the gaffer's log: its packing is free. -/
def LogEntry.item (e : LogEntry) : List Byte := packed 0x13 64 [e.part, e.code, e.a, e.b, e.c, e.d]

/-- The record of an account (R66). -/
def Account.item (a : Account) : List Byte :=
  dword (BitVec.ofInt 64 a.balance).toNat ++
  dword (a.part * 2 ^ 16 + a.lease * 2 ^ 8 + (if a.exh then 2 else 0) + if a.en then 1 else 0)

/-- The entry of a drift region (R336). -/
def Region.item (r : Region) : List Byte :=
  dword (r.l.toNat * 2 ^ 32 + r.u.toNat) ++ dword (r.loss.toNat * 2 ^ 32 + if r.pend then 1 else 0) ++
  ((List.range 8).flatMap fun d => leBytes 4 (tabGet 0#32 r.share d).toNat) ++
  dword (r.grants * 2 ^ 32 + r.self) ++ dword (r.forced * 2 ^ 32 + r.drains)

/-- The status of a lehr (R354). -/
def State.lehrStatus (s : State) (port : Nat) : Nat :=
  let f := tabGet 0 s.lehrFlags port
  (if f.testBit 2 then 2 ^ 31 else 0) + (if f.testBit 1 then 2 ^ 30 else 0) + (if f.testBit 0 then 2 ^ 29 else 0) +
    ((tabGet [] s.lehrs port).filter (·.accepted)).length

/-- A sum over the cores on which a lease has changed state. -/
def State.leaseTotal (s : State) (lease : Nat) (f : LCore → Nat) : Nat :=
  (s.lcores.filter fun e => e.1 / 4096 == lease).foldl (fun n e => n + f e.2) 0

/-- The VF of a lease: its own, or, of a control lease, its partition's (R59). -/
def State.vfOf (s : State) (lease : Nat) : Option Nat :=
  match (s.leaseD lease).vf with
  | some v => some v
  | none => (s.parts.find? fun p => p.2.control == lease).map fun p => p.2.vf

/-- The counts of a lease. -/
def State.countsItem (s : State) (lease : Nat) : List Byte :=
  let l := s.leaseD lease
  let refused := ((s.vfOf lease).map fun v => (s.windowAt (.vf v)).refused).getD 0
  [l.dropped, l.stale, l.lost, l.carriedRefused, refused, s.leaseTotal lease (fun c => bitsOf (c.ctl 0x3F818) 63 32),
    s.leaseTotal lease (fun c => bitsOf (c.ctl 0x3F818) 31 0)].flatMap dword

/-- Die incarnations, then the stale-response and stale-request counts. -/
def State.incarnationItem (s : State) : List Byte :=
  dword ((List.range 8).foldl (fun n d => n + (s.dieAt d).inc.toNat * 8 ^ d) 0) ++
  ((List.range 8).flatMap fun d => dword (s.dieAt d).staleResp) ++ (List.range 8).flatMap fun h => dword (s.homeAt h).staleReq

/-- The identifier that a launch sends next (R86, R87): while every serial group that has begun waits for its task, that of the one group that
has more to send. Where several wait, the first whose task ends goes on, which is not fixed yet. -/
def Launch.upcomingId (l : Launch) : Option (Nat × Nat) :=
  match l.nextId with
  | some (group, i, _) => some (group, i)
  | none => match l.groups.filter fun g => decide (g.2.2.2.2 + 1 < seqCount (hdrUsed l.hdr)) with
    | [g] => some (g.1, g.2.2.2.2 + 1)
    | _ => none

/-- A live launch: where every identifier is sent, or the next one is not fixed yet, it is a free value. -/
def Launch.item (l : Launch) (tag : Nat) : List Byte :=
  let fs := hdrUsed l.hdr
  dword tag ++ dword (BitVec.ofInt 64 l.open_).toNat ++
  (match l.upcomingId with
   | some (group, i) => dword (widOf fs (group * seqCount fs + i))
   | none => packed 0x12 8 [tag, l.sent]) ++ dword l.hdrDva

/-! ### Objects -/

/-- Items from an index on; an index past the last names nothing. -/
def itemsFrom {α : Type} (idx : Nat) (xs : List α) (f : α → List Byte) : Except (Nat × Option (List Byte)) (List Byte) := do
  need (idx == 0 || decide (idx < xs.length)) 2
  return (xs.drop idx).flatMap f

/-- Whether an issuer may read an account (R391). -/
def State.accountReach (s : State) (g : GafferCmd) (a : Account) : Bool :=
  match g.level with
  | 0 => true
  | 1 => a.part == g.part
  | _ => a.part == g.part && (a.lease == 0 || a.lease == g.lease) && (s.leaseAt g.lease).isSome

/-- Events that an issuer may read: the house reads every one, or a partition's where it names one. -/
def GafferCmd.eventSeen (g : GafferCmd) (e : LogEntry) : Bool :=
  if g.level = 0 then g.winPart == 0 || e.part == g.winPart else e.part == g.part

/-- The bytes of an object, as its issuer sees it (R390, R391). R405 offers the certificate of the device's public key here at level 0 and
R390 gives it no code: it is object 0x14 (log entry 10). The partition's record, which R55 says software reads in the state window, is none
of R390's objects: no object shows it (DESIGN CHOICE; log entry 68). -/
def State.winBytes (s : State) (g : GafferCmd) : Except (Nat × Option (List Byte)) (List Byte) := do
  let lease := g.winLease
  let unit := g.winUnit
  let idx := g.winIdx
  let free := s.free
  let l := s.lcoreAt lease unit
  let onCore : Except (Nat × Option (List Byte)) Unit := match s.holderOf unit with
    | none => throw (2, none)
    | some h => do
      need (s.winReach g h) 1
      need (h == lease) 2
  need (decide (1 ≤ g.winObj) && decide (g.winObj ≤ 0x14) && lease != 255) 3
  need (g.winPart == 0 || g.level == 0 || g.winPart == g.part) 1
  need (g.winPart == 0 || (tabFind s.parts g.winPart).isSome) 2
  need (g.level != 2 || lease == g.lease) 1
  need (s.leaseAt lease).isSome 2
  need (s.winReach g lease) 1
  match g.winObj with
  | 0x01 => do
    onCore
    need (decide (idx < 8)) 2
    return (s.slotAt unit idx).context idx
  | 0x02 => do
    onCore
    need (decide (idx < 8)) 2
    let t := s.slotAt unit idx
    return Slot.frameItems idx g.level t.frames t
  | 0x03 => do
    onCore
    return (s.coreAt unit).messages.flatMap msgRec
  | 0x04 => return l.spadBytes 0x3F800 2048 ++ dword l.latch.toNat
  | 0x05 => return [0x030, 0x031, 0x032, 0x033, 0x034].flatMap fun n => dword (s.leaseCsr lease unit n).toNat
  | 0x06 => return l.matrixImage (fun t => s.passOnTile lease unit t) free
  | 0x07 => do
    need (decide (unit < 8)) 2
    itemsFrom idx ((s.homeAt unit).waits.filter fun w => s.winReach g w.lease) (fun w => w.item g)
  | 0x08 => do
    onCore
    return s.plbItem g unit
  | 0x09 => do
    need (decide (unit < 8)) 2
    itemsFrom idx ((s.dieAt unit).dtc.filter fun x => s.winReach g x.lease) (fun x => x.item g)
  | 0x0A => do
    need (decide (idx < 4096)) 2
    need (s.accountReach g (s.accountAt idx)) 1
    return (s.accountAt idx).item
  | 0x0B => do
    need (decide (unit < 256)) 2
    return s.occRecord lease unit
  | 0x0C => do
    need (decide (idx < 1024)) 2
    return (s.regionAt lease idx).item
  | 0x0D => do
    need (decide (unit < 8)) 2
    let d := s.dieAt unit
    itemsFrom idx (((d.deltas.filter fun x => s.winReach g x.lease).map fun x => x.item g) ++
      (d.trackers.filter fun x => s.winReach g x.lease).map Tracker.item) id
  | 0x0E => do
    need (decide (idx < 4)) 2
    return dword (s.lehrStatus idx)
  | 0x0F => return s.countsItem lease
  | 0x10 => do
    need (g.level != 2) 1
    return s.incarnationItem
  | 0x11 => return (s.leaseD lease).item
  | 0x12 => do
    need (decide (idx < 256)) 2
    return (s.launches.filter fun e => e.2.lease == lease && !e.2.completed && decide (idx ≤ e.1)).flatMap fun e => e.2.item e.1
  | 0x13 => do
    need (g.level != 2) 1
    itemsFrom idx (s.log.filter g.eventSeen) LogEntry.item
  | _ => do
    need (g.level == 0) 1
    return Config.freeCertificate

/-- The checks of STATEWIN, and the object. -/
def winObject (s : State) (g : GafferCmd) : Except (Nat × Option (List Byte)) (List Byte) := do
  s.mayRun g 2 (some 10)
  need (bitsOf (g.word 1) 63 48 == 0 && g.word 2 % 64 == 0) 3
  let bs ← s.winBytes g
  if g.word 3 < bs.length then throw (3, g.returns bs.length) else return bs

/-- Whether what a STATEWIN reads holds poison: a queued message, the ring area of a scratchpad, a tile or a plane, an entry of a wait table. -/
def State.winPoisoned (s : State) (g : GafferCmd) : Bool :=
  let l := s.lcoreAt g.winLease g.winUnit
  match g.winObj with
  | 0x03 => (s.coreAt g.winUnit).messages.any (·.poison)
  | 0x04 => l.spadPoisoned 0x3F800 2048
  | 0x06 => !l.accPoison.isEmpty || !l.planePoison.isEmpty
  | 0x07 => (((s.homeAt g.winUnit).waits.filter fun w => s.winReach g w.lease).drop g.winIdx).any (·.poison)
  | _ => false

/-- STATEWIN (R389). Poison that it reads is consumed: the issuing lease is reset, and nothing is written (R381). Its status is then BADARG, as for
a block that faults: R74 names none (DESIGN CHOICE; log entry 69). -/
def doStatewin (s : State) (g : GafferCmd) : State × Nat × Option (List Byte) :=
  match winObject s g with
  | .error (st, d) => (s, st, d)
  | .ok bs => if s.winPoisoned g then (s.poisoned g.lease, 3, none) else ({ s with free := s.free + 65536 } : State).fillBuffer g (g.word 2) bs bs.length

/-- STATEWIN (R389): the gaffer's oldest command. -/
def execStatewin (s : State) : Host.Outcome State Fault Refusal := runEvent (fun s => s.performWith 0x12 none doStatewin) s

end Sys2Proof.Machine
end

