-- ==== Sys2Proof/Machine/Dispatch.lean ====
section
/-! DEFINITION. The meaning of every instruction: one arm per constructor. -/

namespace Sys2Proof.Machine

def exec (i : Instr) (s : State) : Host.Outcome State Fault Refusal :=
  match i with
  | .lui d imm => Sys2Proof.Machine.execLui d imm s
  | .auipc d imm => Sys2Proof.Machine.execAuipc d imm s
  | .jal d off => Sys2Proof.Machine.execJal d off s
  | .jalr d a imm => Sys2Proof.Machine.execJalr d a imm s
  | .beq a b off => Sys2Proof.Machine.execBeq a b off s
  | .bne a b off => Sys2Proof.Machine.execBne a b off s
  | .blt a b off => Sys2Proof.Machine.execBlt a b off s
  | .bge a b off => Sys2Proof.Machine.execBge a b off s
  | .bltu a b off => Sys2Proof.Machine.execBltu a b off s
  | .bgeu a b off => Sys2Proof.Machine.execBgeu a b off s
  | .lb d a imm => Sys2Proof.Machine.execLb d a imm s
  | .lh d a imm => Sys2Proof.Machine.execLh d a imm s
  | .lw d a imm => Sys2Proof.Machine.execLw d a imm s
  | .ld d a imm => Sys2Proof.Machine.execLd d a imm s
  | .lbu d a imm => Sys2Proof.Machine.execLbu d a imm s
  | .lhu d a imm => Sys2Proof.Machine.execLhu d a imm s
  | .lwu d a imm => Sys2Proof.Machine.execLwu d a imm s
  | .sb a b imm => Sys2Proof.Machine.execSb a b imm s
  | .sh a b imm => Sys2Proof.Machine.execSh a b imm s
  | .sw a b imm => Sys2Proof.Machine.execSw a b imm s
  | .sd a b imm => Sys2Proof.Machine.execSd a b imm s
  | .addi d a imm => Sys2Proof.Machine.execAddi d a imm s
  | .slti d a imm => Sys2Proof.Machine.execSlti d a imm s
  | .sltiu d a imm => Sys2Proof.Machine.execSltiu d a imm s
  | .xori d a imm => Sys2Proof.Machine.execXori d a imm s
  | .ori d a imm => Sys2Proof.Machine.execOri d a imm s
  | .andi d a imm => Sys2Proof.Machine.execAndi d a imm s
  | .slli d a sh => Sys2Proof.Machine.execSlli d a sh s
  | .srli d a sh => Sys2Proof.Machine.execSrli d a sh s
  | .srai d a sh => Sys2Proof.Machine.execSrai d a sh s
  | .rori d a sh => Sys2Proof.Machine.execRori d a sh s
  | .add d a b => Sys2Proof.Machine.execAdd d a b s
  | .sub d a b => Sys2Proof.Machine.execSub d a b s
  | .sll d a b => Sys2Proof.Machine.execSll d a b s
  | .slt d a b => Sys2Proof.Machine.execSlt d a b s
  | .sltu d a b => Sys2Proof.Machine.execSltu d a b s
  | .xor d a b => Sys2Proof.Machine.execXor d a b s
  | .srl d a b => Sys2Proof.Machine.execSrl d a b s
  | .sra d a b => Sys2Proof.Machine.execSra d a b s
  | .or d a b => Sys2Proof.Machine.execOr d a b s
  | .and d a b => Sys2Proof.Machine.execAnd d a b s
  | .mul d a b => Sys2Proof.Machine.execMul d a b s
  | .mulh d a b => Sys2Proof.Machine.execMulh d a b s
  | .mulhu d a b => Sys2Proof.Machine.execMulhu d a b s
  | .div d a b => Sys2Proof.Machine.execDiv d a b s
  | .divu d a b => Sys2Proof.Machine.execDivu d a b s
  | .rem d a b => Sys2Proof.Machine.execRem d a b s
  | .remu d a b => Sys2Proof.Machine.execRemu d a b s
  | .clmul d a b => Sys2Proof.Machine.execClmul d a b s
  | .clmulh d a b => Sys2Proof.Machine.execClmulh d a b s
  | .clz d a => Sys2Proof.Machine.execClz d a s
  | .ctz d a => Sys2Proof.Machine.execCtz d a s
  | .cpop d a => Sys2Proof.Machine.execCpop d a s
  | .ror d a b => Sys2Proof.Machine.execRor d a b s
  | .bswap d a => Sys2Proof.Machine.execBswap d a s
  | .faddS d a b m => Sys2Proof.Machine.execFaddS d a b m s
  | .fsubS d a b m => Sys2Proof.Machine.execFsubS d a b m s
  | .fmulS d a b m => Sys2Proof.Machine.execFmulS d a b m s
  | .fdivS d a b m => Sys2Proof.Machine.execFdivS d a b m s
  | .fsqrtS d a m => Sys2Proof.Machine.execFsqrtS d a m s
  | .fsgnjS d a b => Sys2Proof.Machine.execFsgnjS d a b s
  | .fsgnjnS d a b => Sys2Proof.Machine.execFsgnjnS d a b s
  | .fsgnjxS d a b => Sys2Proof.Machine.execFsgnjxS d a b s
  | .fminS d a b => Sys2Proof.Machine.execFminS d a b s
  | .fmaxS d a b => Sys2Proof.Machine.execFmaxS d a b s
  | .fleS d a b => Sys2Proof.Machine.execFleS d a b s
  | .fltS d a b => Sys2Proof.Machine.execFltS d a b s
  | .feqS d a b => Sys2Proof.Machine.execFeqS d a b s
  | .fcvtWS d a m => Sys2Proof.Machine.execFcvtWS d a m s
  | .fcvtLS d a m => Sys2Proof.Machine.execFcvtLS d a m s
  | .fcvtSW d a m => Sys2Proof.Machine.execFcvtSW d a m s
  | .fcvtSL d a m => Sys2Proof.Machine.execFcvtSL d a m s
  | .fclassS d a => Sys2Proof.Machine.execFclassS d a s
  | .fmaddS d a b c m => Sys2Proof.Machine.execFmaddS d a b c m s
  | .trap => Sys2Proof.Machine.execTrap s
  | .bkpt => Sys2Proof.Machine.execBkpt s
  | .resume d a => Sys2Proof.Machine.execResume d a s
  | .kill d a => Sys2Proof.Machine.execKill d a s
  | .slotrd d a => Sys2Proof.Machine.execSlotrd d a s
  | .plbinv d a b => Sys2Proof.Machine.execPlbinv d a b s
  | .tlbi1 d a b => Sys2Proof.Machine.execTlbi1 d a b s
  | .tlbi2 d a b => Sys2Proof.Machine.execTlbi2 d a b s
  | .mgmt d a => Sys2Proof.Machine.execMgmt d a s
  | .slotwr d a b => Sys2Proof.Machine.execSlotwr d a b s
  | .csrrw d a csr => Sys2Proof.Machine.execCsrrw d a csr s
  | .csrrs d a csr => Sys2Proof.Machine.execCsrrs d a csr s
  | .csrrc d a csr => Sys2Proof.Machine.execCsrrc d a csr s
  | .csrrwi d u csr => Sys2Proof.Machine.execCsrrwi d u csr s
  | .csrrsi d u csr => Sys2Proof.Machine.execCsrrsi d u csr s
  | .csrrci d u csr => Sys2Proof.Machine.execCsrrci d u csr s
  | .loop l a n => Sys2Proof.Machine.execLoop l a n s
  | .fmt w => Sys2Proof.Machine.execFmt w s
  | .send d a b => Sys2Proof.Machine.execSend d a b s
  | .sendc d a b => Sys2Proof.Machine.execSendc d a b s
  | .jarm d a b => Sys2Proof.Machine.execJarm d a b s
  | .jdec d a b => Sys2Proof.Machine.execJdec d a b s
  | .tagen d a => Sys2Proof.Machine.execTagen d a s
  | .tagdis d a => Sys2Proof.Machine.execTagdis d a s
  | .tagpd d a => Sys2Proof.Machine.execTagpd d a s
  | .lnch d a => Sys2Proof.Machine.execLnch d a s
  | .yield => Sys2Proof.Machine.execYield s
  | .endTask => Sys2Proof.Machine.execEndTask s
  | .waita d a b => Sys2Proof.Machine.execWaita d a b s
  | .wake d a => Sys2Proof.Machine.execWake d a s
  | .barr d a => Sys2Proof.Machine.execBarr d a s
  | .gate n => Sys2Proof.Machine.execGate n s
  | .gret => Sys2Proof.Machine.execGret s
  | .gqry d a => Sys2Proof.Machine.execGqry d a s
  | .qpush q a => Sys2Proof.Machine.execQpush q a s
  | .qpop d q => Sys2Proof.Machine.execQpop d q s
  | .qcnt d q => Sys2Proof.Machine.execQcnt d q s
  | .vaddF p d a b => Sys2Proof.Machine.execVaddF p d a b s
  | .vsubF p d a b => Sys2Proof.Machine.execVsubF p d a b s
  | .vmulF p d a b => Sys2Proof.Machine.execVmulF p d a b s
  | .vfmaF p d a b => Sys2Proof.Machine.execVfmaF p d a b s
  | .vminF p d a b => Sys2Proof.Machine.execVminF p d a b s
  | .vmaxF p d a b => Sys2Proof.Machine.execVmaxF p d a b s
  | .vabsF p d a => Sys2Proof.Machine.execVabsF p d a s
  | .vnegF p d a => Sys2Proof.Machine.execVnegF p d a s
  | .vdivF p d a b => Sys2Proof.Machine.execVdivF p d a b s
  | .vsqrtF p d a => Sys2Proof.Machine.execVsqrtF p d a s
  | .vexp2F p d a => Sys2Proof.Machine.execVexp2F p d a s
  | .vrcpF p d a => Sys2Proof.Machine.execVrcpF p d a s
  | .vfmasF p d a b => Sys2Proof.Machine.execVfmasF p d a b s
  | .vaddI p d a b => Sys2Proof.Machine.execVaddI p d a b s
  | .vsubI p d a b => Sys2Proof.Machine.execVsubI p d a b s
  | .vmulI p d a b => Sys2Proof.Machine.execVmulI p d a b s
  | .vminI p d a b => Sys2Proof.Machine.execVminI p d a b s
  | .vmaxI p d a b => Sys2Proof.Machine.execVmaxI p d a b s
  | .vminuI p d a b => Sys2Proof.Machine.execVminuI p d a b s
  | .vmaxuI p d a b => Sys2Proof.Machine.execVmaxuI p d a b s
  | .vand p d a b => Sys2Proof.Machine.execVand p d a b s
  | .vor p d a b => Sys2Proof.Machine.execVor p d a b s
  | .vxor p d a b => Sys2Proof.Machine.execVxor p d a b s
  | .vshl p d a b => Sys2Proof.Machine.execVshl p d a b s
  | .vsrl p d a b => Sys2Proof.Machine.execVsrl p d a b s
  | .vsra p d a b => Sys2Proof.Machine.execVsra p d a b s
  | .vcmpFEQ p d a b => Sys2Proof.Machine.execVcmpFEQ p d a b s
  | .vcmpFLT p d a b => Sys2Proof.Machine.execVcmpFLT p d a b s
  | .vcmpFLE p d a b => Sys2Proof.Machine.execVcmpFLE p d a b s
  | .vcmpIEQ p d a b => Sys2Proof.Machine.execVcmpIEQ p d a b s
  | .vcmpILT p d a b => Sys2Proof.Machine.execVcmpILT p d a b s
  | .vcmpILTU p d a b => Sys2Proof.Machine.execVcmpILTU p d a b s
  | .vsel p d a b => Sys2Proof.Machine.execVsel p d a b s
  | .pand d a b => Sys2Proof.Machine.execPand d a b s
  | .por d a b => Sys2Proof.Machine.execPor d a b s
  | .pxor d a b => Sys2Proof.Machine.execPxor d a b s
  | .pnot d a => Sys2Proof.Machine.execPnot d a s
  | .pset d a => Sys2Proof.Machine.execPset d a s
  | .pget d a => Sys2Proof.Machine.execPget d a s
  | .ppop p d a => Sys2Proof.Machine.execPpop p d a s
  | .vbcast p d a => Sys2Proof.Machine.execVbcast p d a s
  | .vbcastq p d q => Sys2Proof.Machine.execVbcastq p d q s
  | .vmvxv d a j => Sys2Proof.Machine.execVmvxv d a j s
  | .vmvvx d a j => Sys2Proof.Machine.execVmvvx d a j s
  | .vperm p d a b => Sys2Proof.Machine.execVperm p d a b s
  | .vslide p d a b => Sys2Proof.Machine.execVslide p d a b s
  | .viota p d => Sys2Proof.Machine.execViota p d s
  | .vrsumF p d a => Sys2Proof.Machine.execVrsumF p d a s
  | .vrmaxF p d a => Sys2Proof.Machine.execVrmaxF p d a s
  | .vrsumI p d a => Sys2Proof.Machine.execVrsumI p d a s
  | .vcvtFI p d a => Sys2Proof.Machine.execVcvtFI p d a s
  | .vcvtIF p d a => Sys2Proof.Machine.execVcvtIF p d a s
  | .vcvtFH p d a h => Sys2Proof.Machine.execVcvtFH p d a h s
  | .vcvtHF p d a h => Sys2Proof.Machine.execVcvtHF p d a h s
  | .vqnt p d a b => Sys2Proof.Machine.execVqnt p d a b s
  | .vdqnt p d a b => Sys2Proof.Machine.execVdqnt p d a b s
  | .vbexp p d a => Sys2Proof.Machine.execVbexp p d a s
  | .vld p d a => Sys2Proof.Machine.execVld p d a s
  | .vst p d a => Sys2Proof.Machine.execVst p d a s
  | .vlds p d a b => Sys2Proof.Machine.execVlds p d a b s
  | .vsts p d a b => Sys2Proof.Machine.execVsts p d a b s
  | .vldx p d a b => Sys2Proof.Machine.execVldx p d a b s
  | .vstx p d a b => Sys2Proof.Machine.execVstx p d a b s
  | .vredx p d a b => Sys2Proof.Machine.execVredx p d a b s
  | .ldsG a => Sys2Proof.Machine.execLdsG a s
  | .swsG => Sys2Proof.Machine.execSwsG s
  | .mmaG t a b => Sys2Proof.Machine.execMmaG t a b s
  | .mwait a => Sys2Proof.Machine.execMwait a s
  | .mzero t => Sys2Proof.Machine.execMzero t s
  | .aswap d t b => Sys2Proof.Machine.execAswap d t b s
  | .mrec d t b => Sys2Proof.Machine.execMrec d t b s
  | .mrd d t b => Sys2Proof.Machine.execMrd d t b s
  | .mwr t a b => Sys2Proof.Machine.execMwr t a b s
  | .maddv t a b => Sys2Proof.Machine.execMaddv t a b s
  | .mstat d a => Sys2Proof.Machine.execMstat d a s
  | .ginit d a b => Sys2Proof.Machine.execGinit d a b s
  | .gadd d a b => Sys2Proof.Machine.execGadd d a b s
  | .gaddv d a b => Sys2Proof.Machine.execGaddv d a b s
  | .gaband d a => Sys2Proof.Machine.execGaband d a s
  | .gstat d a => Sys2Proof.Machine.execGstat d a s
  | .grec d a b => Sys2Proof.Machine.execGrec d a b s
  | .crd d a => Sys2Proof.Machine.execCrd d a s
  | .cwr d a => Sys2Proof.Machine.execCwr d a s
  | .cmov d a => Sys2Proof.Machine.execCmov d a s
  | .cfill d a b => Sys2Proof.Machine.execCfill d a b s
  | .cwait d a => Sys2Proof.Machine.execCwait d a s
  | .cstat d a => Sys2Proof.Machine.execCstat d a s
  | .coll d a => Sys2Proof.Machine.execColl d a s
  | .lda z sc d a => Sys2Proof.Machine.execLda z sc d a s
  | .stl z sc a b => Sys2Proof.Machine.execStl z sc a b s
  | .amoadd z sc d a b => Sys2Proof.Machine.execAmoadd z sc d a b s
  | .amoswap z sc d a b => Sys2Proof.Machine.execAmoswap z sc d a b s
  | .amocas z sc d a b => Sys2Proof.Machine.execAmocas z sc d a b s
  | .amoand z sc d a b => Sys2Proof.Machine.execAmoand z sc d a b s
  | .amoor z sc d a b => Sys2Proof.Machine.execAmoor z sc d a b s
  | .amoxor z sc d a b => Sys2Proof.Machine.execAmoxor z sc d a b s
  | .amomin z sc d a b => Sys2Proof.Machine.execAmomin z sc d a b s
  | .amomax z sc d a b => Sys2Proof.Machine.execAmomax z sc d a b s
  | .amominu z sc d a b => Sys2Proof.Machine.execAmominu z sc d a b s
  | .amomaxu z sc d a b => Sys2Proof.Machine.execAmomaxu z sc d a b s
  | .amofadd sc d a b => Sys2Proof.Machine.execAmofadd sc d a b s
  | .redadd z sc a b => Sys2Proof.Machine.execRedadd z sc a b s
  | .redfadd sc a b => Sys2Proof.Machine.execRedfadd sc a b s
  | .redmax z sc a b => Sys2Proof.Machine.execRedmax z sc a b s
  | .redmin z sc a b => Sys2Proof.Machine.execRedmin z sc a b s
  | .lde d a b => Sys2Proof.Machine.execLde d a b s
  | .ldfW d a => Sys2Proof.Machine.execLdfW d a s
  | .ldfD d a => Sys2Proof.Machine.execLdfD d a s
  | .stfW a b => Sys2Proof.Machine.execStfW a b s
  | .stfD a b => Sys2Proof.Machine.execStfD a b s
  | .sete a b => Sys2Proof.Machine.execSete a b s
  | .drain d a => Sys2Proof.Machine.execDrain d a s
  | .fence sc => Sys2Proof.Machine.execFence sc s
  | .tfence => Sys2Proof.Machine.execTfence s
  | .pbar => Sys2Proof.Machine.execPbar s
  | .pbarw => Sys2Proof.Machine.execPbarw s
  | .launchSubmit => Sys2Proof.Machine.execLaunchSubmit s
  | .distributorAccept => Sys2Proof.Machine.execDistributorAccept s
  | .distributeIdentifier => Sys2Proof.Machine.execDistributeIdentifier s
  | .gangDistribute => Sys2Proof.Machine.execGangDistribute s
  | .launchComplete => Sys2Proof.Machine.execLaunchComplete s
  | .launchTagFree => Sys2Proof.Machine.execLaunchTagFree s
  | .partnew => Sys2Proof.Machine.execPartnew s
  | .partdel => Sys2Proof.Machine.execPartdel s
  | .leasenew => Sys2Proof.Machine.execLeasenew s
  | .leasedel => Sys2Proof.Machine.execLeasedel s
  | .rights => Sys2Proof.Machine.execRights s
  | .qgrant => Sys2Proof.Machine.execQgrant s
  | .qtake => Sys2Proof.Machine.execQtake s
  | .slices => Sys2Proof.Machine.execSlices s
  | .s1root => Sys2Proof.Machine.execS1root s
  | .s2root => Sys2Proof.Machine.execS2root s
  | .budgetAssign => Sys2Proof.Machine.execBudgetAssign s
  | .budgetSet => Sys2Proof.Machine.execBudgetSet s
  | .budgetAdd => Sys2Proof.Machine.execBudgetAdd s
  | .budgetBind => Sys2Proof.Machine.execBudgetBind s
  | .wdlim => Sys2Proof.Machine.execWdlim s
  | .driftlim => Sys2Proof.Machine.execDriftlim s
  | .fgroup => Sys2Proof.Machine.execFgroup s
  | .aperture => Sys2Proof.Machine.execAperture s
  | .vfreset => Sys2Proof.Machine.execVfreset s
  | .attest => Sys2Proof.Machine.execAttest s
  | .statewin => Sys2Proof.Machine.execStatewin s
  | .evroute => Sys2Proof.Machine.execEvroute s
  | .evackResolve => Sys2Proof.Machine.execEvackResolve s
  | .evackKill => Sys2Proof.Machine.execEvackKill s
  | .windowRegisterWrite => Sys2Proof.Machine.execWindowRegisterWrite s
  | .vtbWrite => Sys2Proof.Machine.execVtbWrite s
  | .gtbWrite => Sys2Proof.Machine.execGtbWrite s
  | .cullWrite => Sys2Proof.Machine.execCullWrite s
  | .cullszWrite => Sys2Proof.Machine.execCullszWrite s
  | .latchRelease => Sys2Proof.Machine.execLatchRelease s
  | .messageArrival => Sys2Proof.Machine.execMessageArrival s
  | .handlerStart => Sys2Proof.Machine.execHandlerStart s
  | .messageAgeing => Sys2Proof.Machine.execMessageAgeing s
  | .watchdogExpiry => Sys2Proof.Machine.execWatchdogExpiry s
  | .glimitExpiry => Sys2Proof.Machine.execGlimitExpiry s
  | .sliceEnd => Sys2Proof.Machine.execSliceEnd s
  | .preemptionSwitch => Sys2Proof.Machine.execPreemptionSwitch s
  | .chargeArrival => Sys2Proof.Machine.execChargeArrival s
  | .noticeDelivery => Sys2Proof.Machine.execNoticeDelivery s
  | .ldfRetry => Sys2Proof.Machine.execLdfRetry s
  | .slotUnblock => Sys2Proof.Machine.execSlotUnblock s
  | .storeBufferDrain => Sys2Proof.Machine.execStoreBufferDrain s
  | .fill => Sys2Proof.Machine.execFill s
  | .writeback => Sys2Proof.Machine.execWriteback s
  | .evict => Sys2Proof.Machine.execEvict s
  | .pageWalk => Sys2Proof.Machine.execPageWalk s
  | .vectorCommandExecute => Sys2Proof.Machine.execVectorCommandExecute s
  | .copyStart => Sys2Proof.Machine.execCopyStart s
  | .ecopy => Sys2Proof.Machine.execEcopy s
  | .copyComplete => Sys2Proof.Machine.execCopyComplete s
  | .engineHeldDelivery => Sys2Proof.Machine.execEngineHeldDelivery s
  | .engineFaultUpcall => Sys2Proof.Machine.execEngineFaultUpcall s
  | .collectiveStart => Sys2Proof.Machine.execCollectiveStart s
  | .collectiveComplete => Sys2Proof.Machine.execCollectiveComplete s
  | .collectiveAbort => Sys2Proof.Machine.execCollectiveAbort s
  | .gangBarrierComplete => Sys2Proof.Machine.execGangBarrierComplete s
  | .gangOperationAccept => Sys2Proof.Machine.execGangOperationAccept s
  | .passComplete => Sys2Proof.Machine.execPassComplete s
  | .gatherContribution => Sys2Proof.Machine.execGatherContribution s
  | .gatherInitPerform => Sys2Proof.Machine.execGatherInitPerform s
  | .gatherAbandonPerform => Sys2Proof.Machine.execGatherAbandonPerform s
  | .gatherQueryPerform => Sys2Proof.Machine.execGatherQueryPerform s
  | .ldfHome => Sys2Proof.Machine.execLdfHome s
  | .stfHome => Sys2Proof.Machine.execStfHome s
  | .seteHome => Sys2Proof.Machine.execSeteHome s
  | .continuationSend => Sys2Proof.Machine.execContinuationSend s
  | .carriedCodeExecute => Sys2Proof.Machine.execCarriedCodeExecute s
  | .jdecApply => Sys2Proof.Machine.execJdecApply s
  | .culletRefill => Sys2Proof.Machine.execCulletRefill s
  | .driftGrant => Sys2Proof.Machine.execDriftGrant s
  | .ddrain => Sys2Proof.Machine.execDdrain s
  | .forcedDrain => Sys2Proof.Machine.execForcedDrain s
  | .dieReset => Sys2Proof.Machine.execDieReset s
  | .staleResponseDrop => Sys2Proof.Machine.execStaleResponseDrop s
  | .lehrAccept => Sys2Proof.Machine.execLehrAccept s
  | .lehrRetire => Sys2Proof.Machine.execLehrRetire s
  | .pwrfailN => Sys2Proof.Machine.execPwrfailN s
  | .powerLoss => Sys2Proof.Machine.execPowerLoss s
  | .packageReset => Sys2Proof.Machine.execPackageReset s
  | .leaseReset => Sys2Proof.Machine.execLeaseReset s
  | .uncorrectableError => Sys2Proof.Machine.execUncorrectableError s
  | .homeTagParityError => Sys2Proof.Machine.execHomeTagParityError s
  | .pairLinkFailure => Sys2Proof.Machine.execPairLinkFailure s
  | .hostLinkDown => Sys2Proof.Machine.execHostLinkDown s
  | .fabricPortDown => Sys2Proof.Machine.execFabricPortDown s
  | .fabricReplay => Sys2Proof.Machine.execFabricReplay s
  | .fabricAdmission => Sys2Proof.Machine.execFabricAdmission s
  | .fabricAck => Sys2Proof.Machine.execFabricAck s
  | .fabricTimeout => Sys2Proof.Machine.execFabricTimeout s
  | .clk => Sys2Proof.Machine.execClk s
  | .illegalInstruction => Sys2Proof.Machine.execIllegalInstruction s
  | .clockLowering => Sys2Proof.Machine.execClockLowering s
  | .correctableError => Sys2Proof.Machine.execCorrectableError s
  | .hostLinkWrite => Sys2Proof.Machine.execHostLinkWrite s
  | .staleRequestDiscard => Sys2Proof.Machine.execStaleRequestDiscard s
  | .migrationEngineCopy => Sys2Proof.Machine.execMigrationEngineCopy s

end Sys2Proof.Machine
end

