-- ==== Sys2Proof/Machine/Schedule.lean ====
section
/-! DEFINITION. One step: which move comes next (log entry 2), the choice of the slot that issues (R99, R100), the fetch of its word
(R106, R294), and the clk of the core; and how a word is placed where the next step fetches it (log entry 1). -/

namespace Sys2Proof.Machine

/-! ### Fetch -/

/-- The rights and the place of a fetch (R106, R136, R143, R183). -/
def fetchAt (a : Nat) : M (BitVec 32) := accessing { write := false, fetch := true } do
  let ea := BitVec.ofNat 64 a
  if 2 ^ 47 ≤ a then faultM causeIaddr (some ea)
  let p ← partyM
  let acc : Acc := { write := false, fetch := true }
  let s ← getS
  if inLocal a then
    checkOffset p ea (a - Config.localBase) 4 false
    checkRights p.core p.lease p.dom a acc
    let l := s.lcoreAt p.lease p.core
    if l.spadPoisoned (a - Config.localBase) 4 then throw .poison
    return BitVec.ofNat 32 (l.readSpad (a - Config.localBase) 4)
  else
    checkRights p.core p.lease p.dom a acc
    let x ← translateHeld p a acc
    let bs ← readLoc p.core none a 4 x
    return BitVec.ofNat 32 (leNat bs)

/-- The word at the PC of the issuing slot: the first it holds fetched ahead, else fetched now (R294). -/
def fetchM : M (BitVec 32) := do
  let t ← curM
  match t.ahead with
  | w :: _ => return w
  | [] => fetchAt t.pc.toNat

/-- A slot fetches one word beyond those it holds, the word at its PC and up to 16 beyond it (R294); a fetch that faults fetches nothing. -/
def State.prefetch (s : State) (c k : Nat) : State :=
  let t := s.slotAt c k
  if t.st != .ready || decide (Config.fetchAhead < t.ahead.length) then s
  else match fetchAt (t.pc.toNat + 4 * t.ahead.length) { s with core := c, slot := k } with
    | .ok w s' =>
      let u := s'.slotAt c k
      { s'.setSlot c k { u with ahead := u.ahead ++ [w] } with core := s.core, slot := s.slot }
    | .error _ _ => s

/-! ### Which slot issues -/

/-- Slots READY in an issue level. -/
def Core.readyIn (k : Core) (cls prio : Nat) : List Nat :=
  (List.range Config.slots).filter fun i =>
    let t := k.slotAt i
    t.st == .ready && t.cls == cls && t.prio == prio

/-- The running slot of a level, or the next after the one that gave up, cyclically (R100). When the next running slot is fixed R100 does not
say, nor which is the first of a level that has had none: here at the level's next issue, and the lowest number (DESIGN CHOICE; log entry
66). -/
def Core.runningIn (k : Core) (cls prio : Nat) : Option Nat :=
  let r := k.readyIn cls prio
  match tabFind k.run (cls * 4 + prio) with
  | none => r.head?
  | some v =>
    if v % 2 = 0 ∧ r.contains (v / 2) then some (v / 2)
    else match r.find? fun i => decide (v / 2 < i) with
      | some i => some i
      | none => r.head?

/-- Issue levels, highest first: class, then priority (R99). -/
def levels : List (Nat × Nat) := [2, 1, 0].flatMap fun c => [3, 2, 1, 0].map fun p => (c, p)

/-- Whether the slots of an account may issue in this clk: those of a throttled one wait after each issue (R69). -/
def Core.mayIssue (k : Core) (i : Nat) : Bool := tabGet 0 k.slow (k.slotAt i).account == 0

/-- The slot that issues, with its level; a level whose running slot is throttled issues nothing in this clk (R69; log entry 64). -/
def Core.choose (k : Core) : Option (Nat × Nat) :=
  ((levels.filterMap fun l => (k.runningIn l.1 l.2).map fun i => (l.1 * 4 + l.2, i)).filter fun e => k.mayIssue e.2).head?

/-! ### Issue -/

/-- What follows a clk in which the slot `k`, which held `t` before, had the issue port: the words it holds ahead; throttling (R69); the slot
that issued and the phase it issued in, or none where its instruction stalled (R91, R98); and the clk. -/
def State.afterIssue (c k : Nat) (t : Slot) (s : State) : State :=
  let u := s.slotAt c k
  let ahead := if u.gen != t.gen then u.ahead else if u.pc = t.pc then u.ahead else if u.pc = t.pc + 4 then u.ahead.drop 1 else []
  let s := s.setSlot c k { u with ahead := ahead }
  let q := s.coreAt c
  let slow := !q.stalled && !(s.quadAt (quadOf c)).throttled.isEmpty && s.exhausted t.account
  (s.setCore c { q with issued := if q.stalled then none else some k, issuedPhase := t.phase.toNat,
                        slow := if slow then tabPut q.slow t.account 16 else q.slow }).tick c

/-- An outcome with what follows it. -/
def thenDo (f : State → State) : Host.Outcome State Fault Refusal → Host.Outcome State Fault Refusal
  | .next s => .next (f s)
  | .fault r => .fault r
  | .refused r => .refused r

/-- The word of the slot in focus: fetched, decoded, run. -/
def runWord (s : State) : Host.Outcome State Fault Refusal :=
  match fetchM s with
  | .error e s' => .next (s'.stopped s.core s.slot e)
  | .ok w s' =>
    match decode w with
    | .ok i => exec i s'
    | .error _ => exec .illegalInstruction s'

/-- A clk of a core in which it may issue (R99, R104). -/
def issueOn (c : Nat) (s : State) : Host.Outcome State Fault Refusal :=
  let q := s.coreAt c
  if c ≥ Config.cores then .fault (.noSuchUnit c)
  else if !s.up || q.busy != 0 then .next (s.tick c)
  else match q.choose with
    | none => .next (s.tick c)
    | some (level, k) =>
      let t := q.slotAt k
      let s : State := { s.setCore c { q with run := tabPut q.run level (2 * k), stalled := false } with core := c, slot := k }
      thenDo (State.afterIssue c k t) (runWord s)

/-! ### The machine's own choice of a move (log entry 2) -/

/-- The event that performs the gaffer's oldest command. -/
def gafferMove (g : GafferCmd) : Instr :=
  match g.code with
  | 0x01 => .partnew
  | 0x02 => .partdel
  | 0x03 => .leasenew
  | 0x04 => .leasedel
  | 0x05 => .rights
  | 0x06 => .qgrant
  | 0x07 => .qtake
  | 0x08 => .slices
  | 0x09 => .s1root
  | 0x0A => .s2root
  | 0x0B => (match bitsOf (g.word 1) 13 12 with
    | 0 => .budgetAssign
    | 1 => .budgetSet
    | 2 => .budgetAdd
    | _ => .budgetBind)
  | 0x0C => .wdlim
  | 0x0D => .driftlim
  | 0x0E => .fgroup
  | 0x0F => .aperture
  | 0x10 => .vfreset
  | 0x11 => .attest
  | 0x12 => .statewin
  | 0x13 => .evroute
  | _ => .partnew

def mv (i : Instr) (a : Nat := 0) (b : Nat := 0) (c : Nat := 0) : Move := .event i { a := a, b := b, c := c }
def when (p : Bool) (m : Move) : List Move := if p then [m] else []

/-- Moves that a core may make. -/
def State.coreMoves (s : State) (c : Nat) : List Move :=
  let k := s.coreAt c
  let lease := (s.holderOf c).getD 0
  let l := s.lcoreAt lease c
  let copy : List Move := match (s.copyNow c).2 with
    | [] => []
    | q :: _ => if q.coll then [mv .collectiveStart c] else if !q.active then [mv .copyStart c]
                else if q.done < q.total then [mv .ecopy c] else [mv .copyComplete c]
  let slots := (List.range Config.slots).flatMap fun i =>
    let t := k.slotAt i
    (match t.st with
     | .blocked (.on _) => [mv .slotUnblock c i]
     | .blocked (.passes _ _) => [mv .slotUnblock c i]
     | .blocked (.launch _ _ _) => [mv .slotUnblock c i]
     | .blocked (.drain _ _) => [mv .slotUnblock c i]
     | .blocked (.swap _ _ _ _) => [mv .slotUnblock c i]
     | .blocked (.ldfRetry _ _ _) => [mv .ldfRetry c i]
     | _ => [])
  let starts := (List.range 3).flatMap fun cls =>
    when (!(k.queue cls).isEmpty || (cls == 2 && !k.reserve.isEmpty) || l.rcount != 0) (mv .handlerStart c cls)
  when (!k.transit.isEmpty || k.reserve.any fun m => m.2.fresh) (mv .messageArrival c) ++ starts ++ slots ++ s.agings c ++ copy ++
  when (!k.vecq.isEmpty) (mv .vectorCommandExecute c) ++ when (!k.sb.isEmpty) (mv .storeBufferDrain c) ++
  when (!k.held.isEmpty) (mv .engineHeldDelivery c) ++ when (!k.heldUp.isEmpty) (mv .engineFaultUpcall c) ++
  (match k.carried with
   | [] => []
   | m :: _ => [if m.jdec.isSome then mv .jdecApply c else mv .carriedCodeExecute c]) ++
  when (l.ccount != 0) (mv .culletRefill c)

/-- Moves that a home may make. -/
def State.homeMoves (s : State) (h : Nat) : List Move :=
  let v := s.homeAt h
  (match v.reqs with
   | [] => []
   | r :: _ => [if s.staleReq r then mv .staleRequestDiscard h
      else match r.body with
        | .ldf _ _ _ _ _ _ => mv .ldfHome h
        | .stf _ _ _ _ _ => mv .stfHome h
        | .sete _ _ _ _ => mv .seteHome h
        | _ => (match r.op with
          | some (.contribute _ _ _ _ _) => mv .gatherContribution h
          | some .gone => mv .gatherContribution h
          | some (.init _) => mv .gatherInitPerform h
          | some .abandon => mv .gatherAbandonPerform h
          | _ => mv .gatherQueryPerform h)]) ++
  when (!v.outbox.isEmpty) (mv .continuationSend h) ++
  when (!v.held.isEmpty) (.event .engineHeldDelivery { a := h, flag := true })

/-- The order of a collective that the machine takes for itself: rank by rank. -/
def combOrder : Nat → SumTree
  | 0 => .rank 0
  | n + 1 => .join (combOrder n) (.rank (n + 1))

/-- Moves of launches: the one whose turn it is (R87), and what may complete. -/
def State.launchMoves (s : State) : List Move :=
  (match s.sendsNext with
   | none => []
   | some t => (match tabFind s.launches t with
     | some l => [if (hdrUsed l.hdr).any fun f => f.2.2 == 6 then mv .gangDistribute t else mv .distributeIdentifier t]
     | none => [])) ++
  s.launches.flatMap fun l =>
    when (l.2.completed) (mv .launchTagFree l.1) ++ when (!l.2.completed && l.2.distributed && l.2.open_ == 0) (mv .launchComplete l.1)

/-- Every move but an issue that something in the state asks for. -/
def State.moves (s : State) : List Move :=
  (match s.gaffer with
   | [] => []
   | g :: _ => [.event (gafferMove g) {}]) ++
  (s.windows.filter fun w => !w.2.headers.isEmpty).map (fun w =>
    Move.event .distributorAccept { fn := if w.1 < 2 then .pf w.1 else .vf (w.1 - 2) }) ++
  when (s.releasing.any fun r => !s.inUse r.users) (mv .leaseReset 255) ++
  s.launchMoves ++ (s.cores.map (·.1)).flatMap s.coreMoves ++ (List.range 8).flatMap s.homeMoves ++
  when (!s.notices.isEmpty) (mv .noticeDelivery 0) ++
  s.gangs.flatMap (fun g =>
    when (!g.2.agreed && g.2.entered.length == g.2.size) (mv .gangBarrierComplete g.1) ++
    when g.2.agreed (mv .gangOperationAccept g.1) ++ when (!g.2.passes.isEmpty && (s.passAhead g.1).isNone) (mv .passComplete g.1)) ++
  (List.range s.colls.length).flatMap (fun i => match s.colls[i]? with
    | some x => (match s.groupOf x.cmd.lease (kGroup x.cmd.desc) with
      | some g => [Move.event .collectiveComplete { a := i, order := combOrder (g.1 - 1) }]
      | none => []) ++ when (decide (fabricLimit ≤ x.age)) (mv .collectiveAbort i)
    | none => []) ++
  s.quads.flatMap (fun q => when q.2.preempt (mv .preemptionSwitch q.1) ++
    when (!q.2.preempt && !q.2.sched.isEmpty && decide (q.2.slice ≤ q.2.clk)) (mv .sliceEnd q.1)) ++
  s.pending.map (fun a => mv .chargeArrival a.1) ++
  s.lehrs.flatMap (fun q => (List.range q.2.length).map (fun i => mv .lehrAccept q.1 i) ++ when (q.2.any (·.accepted)) (mv .lehrRetire q.1)) ++
  (s.fabric.filter fun r => decide (fabricLimit ≤ r.age)).map fun r => mv .fabricTimeout r.id

/-- Cores that may issue: those with a live task, else the one in focus. -/
def State.issuers (s : State) : List Nat :=
  match (s.cores.filter fun c => c.2.lowestLive.isSome).map (·.1) with
  | [] => [s.core]
  | l => l

/-- The machine's own choice: issues and other moves by turns, each in rotation. -/
def State.ownMove (s : State) : Move :=
  let n := s.turn / 2
  let issue := Move.issue ((s.issuers[n % s.issuers.length]?).getD 0)
  if s.turn % 2 = 0 then issue
  else match s.moves with
    | [] => issue
    | m :: ms => ((m :: ms)[n % (ms.length + 1)]?).getD m

/-- A move is made. An instruction word is no event: it runs only where a slot fetches it. -/
def runMove (m : Move) (s : State) : Host.Outcome State Fault Refusal :=
  match m with
  | .issue c => issueOn c s
  | .prefetch c k => if c < Config.cores ∧ k < Config.slots then .next (s.prefetch c k) else .fault (.noSuchUnit c)
  | .event i args => if encode i = 0#32 then exec i { s with ev := args } else .next s

/-- One step: the first of the moves chosen to come next, else the machine's own choice. -/
def stepOnce (s : State) : Host.Outcome State Fault Refusal :=
  match s.agenda with
  | m :: rest => runMove m { s with agenda := rest }
  | [] => runMove s.ownMove { s with turn := s.turn + 1 }

/-! ### A word placed for the next step -/

/-- Where a word is placed: the same DVA and PA, homed on the paired home of core 0. -/
def placePc : Nat := 0x01000000

/-- The word `w` stands where the next step fetches: slot 0 of core 0 alone is READY there, with the execute right and the
translation of its page held. -/
def State.placeWord (s : State) (w : Nat) : State :=
  let k := s.coreAt 0
  let t := (k.slotAt 0).setPfx none
  let t : Slot := { t with st := .ready, pc := BitVec.ofNat 48 placePc, lease := 0, dom := 0, frames := [], ahead := [] }
  let plb : PlbEntry := { lease := 0, dom := 0, seg := placePc / 2 ^ 21, r := false, w := false, x := true, g := false }
  let x : Xlat := { lease := 0, page := placePc / 4096, pa := placePc, ra := placePc, kind := 0, region := 0, wc1 := true, xc1 := true,
                    lv1 := 3, wc2 := true, xc2 := true, lv2 := 3, dirty := false }
  let d := s.dieAt 0
  let s := s.setCore 0 { k with slots := [(0, t)], run := [], busy := 0, jalrClk := 0, slow := [],
                                plb := plb :: k.plb.filter fun p => !(p.lease == 0 && p.dom == 0 && p.seg == plb.seg) }
  let s := s.setDie 0 { d with lines := d.lines.filter (fun l => !l.is 0 (placePc / 64)),
                               dtc := x :: d.dtc.filter fun y => !(y.lease == 0 && y.page == x.page) }
  { s with mem := memPutBytes s.mem placePc (leBytes 4 w), poison := s.poison.filter (fun l => l != placePc / 64), up := true,
           agenda := [.issue 0] }

end Sys2Proof.Machine
end

