-- ==== Sys2Proof/Machine/Step.lean ====
section
/-! DEFINITION. The step of the machine, and the placing of an instruction where the next step fetches it. -/

namespace Sys2Proof.Machine

/-- One step of the machine. -/
def step (s : State) : Host.Outcome State Fault Refusal := Sys2Proof.Machine.stepOnce s

/-- The state with the instruction whose bits are `w` stored where the next step fetches and runs it (log entry 1). Every
instruction is one word of 32 bits (R18), so the bits from `nbits` on are zero. -/
def State.withFetchWord (s : State) (nbits w : Nat) : State := s.placeWord (w % 2 ^ (min nbits 32))

end Sys2Proof.Machine
end

