-- ==== Sys2Proof/Safety.lean ====
section
/-! DEFINITION. What counts as a safe run, and the terms in which the statements about the machine are made. -/

namespace Sys2Proof.Machine

/-- The memory is in its one canonical form: addresses strictly rising, no zero byte listed. -/
def State.Canonical (s : State) : Prop := memWf s.mem = true

/-- No lease holds a right that its partition lacks, and no partition but the house's own one that the house does not give: the mask of
partition 0 is 0x0FFF, another's has neither a reserved bit nor S2 (R56 to R58). -/
structure State.MasksWithin (s : State) : Prop where
  house : ∀ v, tabFind s.parts 0 = some v → v.mask = 0x0FFF#16
  parts : ∀ p v, p ≠ 0 → tabFind s.parts p = some v → v.mask &&& 0xF008#16 = 0#16
  leases : ∀ l v, s.leaseAt l = some v → ∃ p, s.partAt v.part = some p ∧ v.mask &&& ~~~p.mask = 0#16

/-- The machine goes on for `k` steps: no event of an outside party names a unit or an address that does not exist. Every
architectural fault of the spec is a next state, so a safe run may take any of them. -/
def State.SafeFor : Nat → State → Prop
  | 0, _ => True
  | k + 1, s => ∃ t, Sys2Proof.Machine.step s = .next t ∧ State.SafeFor k t

/-- No format prefix is pending at the issuing slot (R34, R111). -/
def State.Plain (s : State) : Prop := s.cur.pfx = none

/-- The forms that take a format prefix (R34), and YIELD, which keeps one (R112; log entry 65). -/
def takesPrefix : Instr → Bool
  | .vcvtFI _ _ _ | .vcvtIF _ _ _ | .vcvtFH _ _ _ _ | .vcvtHF _ _ _ _ | .vqnt _ _ _ _ | .vdqnt _ _ _ _ | .vbexp _ _ _ | .vredx _ _ _ _
  | .ldsG _ | .mmaG _ _ _ | .yield => true
  | _ => false

/-- The byte of memory at a physical address. -/
def State.byteAt (s : State) (pa : Nat) : Byte := memGet s.mem pa

/-- `i` completes in `s`, answering `t`. -/
def Runs (i : Instr) (s t : State) : Prop := exec i s = .next t

/-- The slot in focus of `t` is the one of `s` with x[d] := v and flags `f` ORed into `ff`, its word completed; nothing else of
the machine differs: no memory, no other slot, core, lease or queue (R30, R109, R119). -/
structure Wrote (s t : State) (d : BitVec 5) (v : Word) (f : FpFlags) : Prop where
  only : t = s.setCur t.cur
  slot : t.cur = { s.cur.complete .seq with x := t.cur.x, ff := t.cur.ff }
  dest : t.cur.getX d = if d = 0#5 then 0#64 else v
  rest : ∀ r, r ≠ d → t.cur.getX r = s.cur.getX r
  flags : t.cur.ff = ffRaise s.cur.ff f

/-- `i` completes in `s` with x[d] := v, flags `f` raised, and the next word to come. -/
def Writes (s : State) (i : Instr) (d : BitVec 5) (v : Word) (f : FpFlags := 0#5) : Prop :=
  ∃ t, Runs i s t ∧ Wrote s t d v f

/-- `i` completes in `s` as what `f` makes of the slot in focus, the word completed, and nothing else changed. -/
def Slots (s : State) (i : Instr) (f : Slot → Slot) : Prop := Runs i s (s.setCur ((f s.cur).complete .seq))

/-- `i` is taken as illegal in `s`: the shared entry of ILLOP (R23). -/
def Illegal (s : State) (i : Instr) : Prop := Runs i s (s.stopped s.core s.slot .illop)

/-- `i` takes a fault in `s`: the shared entry of a faulting instruction (R186, R369, R372). -/
def Faults (s : State) (i : Instr) (f : FaultInfo) : Prop := Runs i s (s.takeFault s.core s.slot f 0 .fault)

/-- `i` completes, having brought the machine to `s'`, with the next word to come. -/
def Completes (s : State) (i : Instr) (s' : State) : Prop := Runs i s (s'.completed s.core s.slot .seq)

/-- `i` leaves its slot BLOCKED on `w`, having brought the machine to `s'` (R98). -/
def Blocks (s : State) (i : Instr) (s' : State) (w : Wait) : Prop := Runs i s (s'.stopped s.core s.slot (.block w))

end Sys2Proof.Machine
end

