-- ==== Sys2Proof/Certificates/Slice0/Obligations.lean ====
section
/-! DEFINITION. The statements about the machine, for the provers. Each docstring names the rules of spec/ that its statement
formalises, and the log entry where a clause is the model's own choice. -/

set_option Elab.async false

open Sys2Proof Sys2Proof.Machine

/-! ### The machine as a whole -/

/-- Decode and encode agree (R18 to R29): every well-formed instruction that has a word is read back from that word, with every
operand at every value the encoding admits; the events and commands of the package have no word. -/
def Obligations.DecodeEncodeAgree : Prop :=
  ∀ i : Instr, i.wellFormed = true → encode i ≠ 0#32 → decode (encode i) = .ok i

/-- What decodes is well formed, and its word is the only one of it: no bit of a word is dropped and no reserved encoding falls
through to a neighbour (R18 to R29, R22). -/
def Obligations.DecodeIsExact : Prop :=
  ∀ (w : BitVec 32) (i : Instr), decode w = .ok i → i.wellFormed = true ∧ encode i = w

/-- Every step keeps the canonical form of memory, from every state (the model's form of R134's byte memory). -/
def Obligations.StepKeepsMemory : Prop :=
  ∀ s t : State, s.Canonical → Sys2Proof.Machine.step s = .next t → t.Canonical

/-- The machine right after reset (R407): no task lives; every lookaside buffer and translation cache is empty, and so is every queue and
buffer of the cores, the dies, the homes, the gaffer and the fabric; memory is canonical, and the house's lease 0 alone exists, with every
quadrant its own (log entry 3). -/
def Obligations.ResetState : Prop :=
  State.reset.Canonical ∧ State.reset.MasksWithin ∧
  (∀ c k, (State.reset.slotAt c k).st = .free ∧ (State.reset.slotAt c k).frames = [] ∧ (State.reset.slotAt c k).wdc = 0#32) ∧
  (∀ c, (State.reset.coreAt c).plb = [] ∧ (State.reset.coreAt c).sb = [] ∧ (State.reset.coreAt c).cyc = 0#64) ∧
  (∀ d, (State.reset.dieAt d).lines = [] ∧ (State.reset.dieAt d).dtc = [] ∧ (State.reset.dieAt d).inc = 0#3) ∧
  (∀ l, (State.reset.leaseAt l).isSome = true ↔ l = 0) ∧ (∀ q, (State.reset.quadAt q).holder = some 0) ∧
  State.reset.interleave = 64 ∧ State.reset.launches = [] ∧ State.reset.fabric = [] ∧
  (∀ c, let k := State.reset.coreAt c
    (∀ cls, k.queue cls = []) ∧ k.transit = [] ∧ k.reserve = [] ∧ k.carried = [] ∧ k.vecq = [] ∧ k.copyq = [] ∧ k.held = [] ∧ k.heldUp = []) ∧
  (∀ d, (State.reset.dieAt d).deltas = [] ∧ (State.reset.dieAt d).trackers = []) ∧
  (∀ h, let v := State.reset.homeAt h
    v.reqs = [] ∧ v.waits = [] ∧ v.outbox = [] ∧ v.held = [] ∧ v.walks = [] ∧ v.cache = []) ∧
  (∀ p, State.reset.lehr p = []) ∧ (∀ fn, (State.reset.windowAt fn).headers = []) ∧
  State.reset.gangs = [] ∧ State.reset.gaffer = [] ∧ State.reset.notices = [] ∧ State.reset.colls = [] ∧ State.reset.peerBytes = [] ∧
  State.reset.fabOut = [] ∧ State.reset.pending = [] ∧ State.reset.msix = []

/-- A step runs the decoded instruction: where a core's turn to issue is next, the step is `exec` of what the word at its chosen
slot's PC decodes to, at the state with that slot in focus and marked running, followed by the words it holds ahead, the throttle
and the clk; a word that does not decode is the illegal instruction (R23, R99, R294). The word is the first the slot holds ahead, else
the one fetched, and a fetch that stops is taken as its fault; a fetch with the right held, of a line of the die's own home,
reads the four bytes there and changes nothing but that the line is in the row's cache (R106, R134, R136). The order of moves is log entry 2. -/
def Obligations.StepRunsDecoded : Prop :=
  (∀ (s b : State) (c k level : Nat) (rest : List Move),
    ((s.agenda = .issue c :: rest ∧ b = { s with agenda := rest }) ∨
      (s.agenda = [] ∧ s.ownMove = .issue c ∧ b = { s with turn := s.turn + 1 })) →
    c < 4096 → s.up = true → (s.coreAt c).busy = 0 → (s.coreAt c).choose = some (level, k) →
    let q := s.coreAt c
    let t := s.slotAt c k
    let s' : State := { b.setCore c { q with run := tabPut q.run level (2 * k), stalled := false } with core := c, slot := k }
    let after := State.afterIssue c k t
    let ran := fun (w : BitVec 32) (s2 : State) => thenDo after (match decode w with
      | .ok i => exec i s2
      | .error _ => exec .illegalInstruction s2)
    (∀ w ws, t.ahead = w :: ws → Sys2Proof.Machine.step s = ran w s') ∧
    (∀ w s2, t.ahead = [] → fetchAt t.pc.toNat s' = .ok w s2 → Sys2Proof.Machine.step s = ran w s2) ∧
    (∀ e s2, t.ahead = [] → fetchAt t.pc.toNat s' = .error e s2 → Sys2Proof.Machine.step s = .next (after (s2.stopped c k e)))) ∧
  (∀ (s : State) (a : Nat) (p : PlbEntry) (l : Line), a < 0x7FFFFFF00000 →
    let die := dieOf s.core
    let pa := l.x.paOf a
    ((s.coreAt s.core).plb.find? fun p => p.lease == s.cur.lease && p.dom == s.cur.dom.toNat && p.seg == a / 2 ^ 21) = some p →
    p.x = true → s.lineOf die s.cur.lease (a / 64) = some l → l.x.xc1 = true → l.x.xc2 = true → l.x.cached = true →
    ownView die pa = true → s.rangePoisoned pa 4 = false →
    fetchAt a s = .ok (BitVec.ofNat 32 (leNat (s.homeRead pa 4))) (s.rowHold s.core s.cur.lease (a / 64)))

/-- Words written out from the tables of R24 to R29 and the worked examples of R106 to R133 decode to what they stand for. The all-
zeros word and the all-ones word are illegal, and so is a word whose bits [1:0] are not 0b11, or whose major opcode is
unassigned (R21, R22). -/
def Obligations.WordsDecode : Prop :=
  (decode 0xFFF32293#32 = .ok (.slti 5 6 0xFFF#12) ∧ decode 0x43F3D393#32 = .ok (.srai 7 7 63) ∧
  decode 0x407302B3#32 = .ok (.sub 5 6 7) ∧ decode 0x02C5D533#32 = .ok (.divu 10 11 12) ∧
  decode 0x0A7312B3#32 = .ok (.clmulh 5 6 7) ∧ decode 0x58059553#32 = .ok (.fsqrtS 10 11 1) ∧
  decode 0x407302C3#32 = .ok (.fmaddS 5 6 7 8 0) ∧ decode 0x00008067#32 = .ok (.jalr 0 1 0) ∧
  decode 0x0032800B#32 = .ok (.loop 0 5 3) ∧ decode 0x1030100B#32 = .ok (.fmt 0x103) ∧
  decode 0x0200300B#32 = .ok .endTask ∧ decode 0x0201630B#32 = .ok (.qpop 6 2)) ∧
  (decode 0#32 = .error .opcode ∧ decode 0xFFFFFFFF#32 = .error .opcode ∧
  (∀ w : BitVec 32, w.extractLsb' 0 2 ≠ 3#2 → decode w = .error .opcode) ∧
  (∀ w : BitVec 32, fieldOp w ∉ [0x03#7, 0x0B#7, 0x13#7, 0x17#7, 0x23#7, 0x2B#7, 0x33#7, 0x37#7, 0x43#7, 0x53#7, 0x5B#7, 0x63#7,
    0x67#7, 0x6F#7, 0x73#7, 0x7B#7] → decode w = .error .opcode))

/-- What a completed word leaves of its slot (R109, R111): the prefix is consumed and the PC moves to the next word, but where the
word ends an active level: then, level 1 first, a level with more than one trip left loops, its count one less, and one on its
last trip is left with count 0. Nothing but the PC, `lc` and `ss` changes. LOOP (R109): the three illegal cases, the skip of a
body of no trips, which completes as the last word of the body would, and the entry of a level with its count, body start and
last word. -/
def Obligations.HardwareLoops : Prop :=
  (∀ t : Slot,
    let u : Slot := { t.setPfx none with pc := t.pc + 4 }
    let ends := fun (v : Slot) (l : Nat) => v.loopOn l = true ∧ v.leN l = t.pc
    let again := fun (v : Slot) (l : Nat) => ({ v.setLc l (v.lcN l - 1) with pc := v.lsN l } : Slot)
    let out := fun (v : Slot) (l : Nat) => (v.setLc l 0).setLoop l false
    (t.complete .seq).pfx = none ∧
    (ends t 1 → 1 < (t.lcN 1).toNat → t.complete .seq = again u 1) ∧
    (ends t 1 → (t.lcN 1).toNat ≤ 1 →
      (ends t 0 → 1 < (t.lcN 0).toNat → t.complete .seq = again (out u 1) 0) ∧
      (ends t 0 → (t.lcN 0).toNat ≤ 1 → t.complete .seq = out (out u 1) 0) ∧ (¬ ends t 0 → t.complete .seq = out u 1)) ∧
    (¬ ends t 1 →
      (ends t 0 → 1 < (t.lcN 0).toNat → t.complete .seq = again u 0) ∧
      (ends t 0 → (t.lcN 0).toNat ≤ 1 → t.complete .seq = out u 0) ∧ (¬ ends t 0 → t.complete .seq = u)) ∧
    t.complete .seq = { t with pc := (t.complete .seq).pc, lc := (t.complete .seq).lc, ss := (t.complete .seq).ss }) ∧
  (∀ (s : State) (l : BitVec 1) (a : BitVec 5) (n : BitVec 12), s.Plain →
    let t := s.cur
    let e := t.pc + 4 * n.zeroExtend 48
    let count := (t.getX a).toNat % 2 ^ 32
    let bad := t.loopOn l.toNat || (decide (l = 0#1) && t.loopOn 1) ||
      (decide (l = 1#1) && t.loopOn 0 && decide ((t.leN 0).toNat < e.toNat))
    (bad = true → Illegal s (.loop l a n)) ∧
    (bad = false → count = 0 → Runs (.loop l a n) s (s.setCur (({ t with pc := e } : Slot).complete .seq))) ∧
    (bad = false → count ≠ 0 →
      Slots s (.loop l a n) fun t => (((t.setLc l.toNat (BitVec.ofNat 64 count)).setLs l.toNat (t.pc + 4)).setLe l.toNat e).setLoop l.toNat true))

/-! ### Scalar integer and bit forms -/

/-- The OP-IMM forms (R120), each from its word: the result of every form, no flag, nothing else changed; a shift word with any
other imm[11:6] is no instruction. LUI and AUIPC (R105): the immediate at bits [31:12], sign-extended; AUIPC adds it to the PC,
wrapping. -/
def Obligations.ImmediateForms : Prop :=
  (∀ (s : State) (d a : BitVec 5) (imm : BitVec 12) (sh : BitVec 6) (hi : BitVec 6), s.Plain →
    let x := s.cur.getX a
    let v := imm.signExtend 64
    let word := fun (f3 : BitVec 3) => rWord (imm.extractLsb' 5 7) (imm.extractLsb' 0 5) a f3 d 0x13#7
    let shift := fun (top : BitVec 6) (f3 : BitVec 3) => rWord (top ++ sh.extractLsb' 5 1) (sh.extractLsb' 0 5) a f3 d 0x13#7
    (decode (word 0#3) = .ok (.addi d a imm) ∧ Writes s (.addi d a imm) d (x + v)) ∧
    (decode (word 2#3) = .ok (.slti d a imm) ∧ Writes s (.slti d a imm) d (if x.toInt < v.toInt then 1 else 0)) ∧
    (decode (word 3#3) = .ok (.sltiu d a imm) ∧ Writes s (.sltiu d a imm) d (if x.toNat < v.toNat then 1 else 0)) ∧
    (decode (word 4#3) = .ok (.xori d a imm) ∧ Writes s (.xori d a imm) d (x ^^^ v)) ∧
    (decode (word 6#3) = .ok (.ori d a imm) ∧ Writes s (.ori d a imm) d (x ||| v)) ∧
    (decode (word 7#3) = .ok (.andi d a imm) ∧ Writes s (.andi d a imm) d (x &&& v)) ∧
    (decode (shift 0#6 1#3) = .ok (.slli d a sh) ∧ Writes s (.slli d a sh) d (x <<< sh.toNat)) ∧
    (decode (shift 0#6 5#3) = .ok (.srli d a sh) ∧ Writes s (.srli d a sh) d (x >>> sh.toNat)) ∧
    (decode (shift 16#6 5#3) = .ok (.srai d a sh) ∧ Writes s (.srai d a sh) d (x.sshiftRight sh.toNat)) ∧
    (decode (shift 24#6 5#3) = .ok (.rori d a sh) ∧ Writes s (.rori d a sh) d ((x >>> sh.toNat) ||| (x <<< (64 - sh.toNat)))) ∧
    (hi ≠ 0#6 → ∀ i, decode (shift hi 1#3) ≠ .ok i) ∧
    (hi ≠ 0#6 → hi ≠ 16#6 → hi ≠ 24#6 → ∀ i, decode (shift hi 5#3) ≠ .ok i)) ∧
  (∀ (s : State) (d : BitVec 5) (imm : BitVec 20), s.Plain →
    let u : Word := (imm ++ 0#12 : BitVec 32).signExtend 64
    let word := fun (op : BitVec 7) =>
      rWord (imm.extractLsb' 13 7) (imm.extractLsb' 8 5) (imm.extractLsb' 3 5) (imm.extractLsb' 0 3) d op
    (decode (word 0x37#7) = .ok (.lui d imm) ∧ Writes s (.lui d imm) d u) ∧
    (decode (word 0x17#7) = .ok (.auipc d imm) ∧ Writes s (.auipc d imm) d (s.cur.pc.zeroExtend 64 + u)))

/-- The OP forms of funct7 0000000 and 0100000 (R121), each from its word: the sources are read before rd is written, so rd may
name either; shifts take x[rs2][5:0] alone. -/
def Obligations.OpForms : Prop :=
  ∀ (s : State) (d a b : BitVec 5), s.Plain →
    let x := s.cur.getX a
    let y := s.cur.getX b
    let sh := y.toNat % 64
    let word := fun (f7 : BitVec 7) (f3 : BitVec 3) => rWord f7 b a f3 d 0x33#7
    (decode (word 0#7 0#3) = .ok (.add d a b) ∧ Writes s (.add d a b) d (x + y)) ∧
    (decode (word 32#7 0#3) = .ok (.sub d a b) ∧ Writes s (.sub d a b) d (x - y)) ∧
    (decode (word 0#7 1#3) = .ok (.sll d a b) ∧ Writes s (.sll d a b) d (x <<< sh)) ∧
    (decode (word 0#7 2#3) = .ok (.slt d a b) ∧ Writes s (.slt d a b) d (if x.toInt < y.toInt then 1 else 0)) ∧
    (decode (word 0#7 3#3) = .ok (.sltu d a b) ∧ Writes s (.sltu d a b) d (if x.toNat < y.toNat then 1 else 0)) ∧
    (decode (word 0#7 4#3) = .ok (.xor d a b) ∧ Writes s (.xor d a b) d (x ^^^ y)) ∧
    (decode (word 0#7 5#3) = .ok (.srl d a b) ∧ Writes s (.srl d a b) d (x >>> sh)) ∧
    (decode (word 32#7 5#3) = .ok (.sra d a b) ∧ Writes s (.sra d a b) d (x.sshiftRight sh)) ∧
    (decode (word 0#7 6#3) = .ok (.or d a b) ∧ Writes s (.or d a b) d (x ||| y)) ∧
    (decode (word 0#7 7#3) = .ok (.and d a b) ∧ Writes s (.and d a b) d (x &&& y))

/-- The multiply and divide forms (R122): the halves of the 128-bit product, truncating division, and the corners of a zero
divisor and of MIN by -1; no case raises a flag or a fault, and funct3 010 is no instruction. -/
def Obligations.MulDivForms : Prop :=
  ∀ (s : State) (d a b : BitVec 5), s.Plain →
    let x := s.cur.getX a
    let y := s.cur.getX b
    let ones := 0xFFFFFFFFFFFFFFFF#64
    let min := 0x8000000000000000#64
    let word := fun (f3 : BitVec 3) => rWord 1#7 b a f3 d 0x33#7
    (decode (word 0#3) = .ok (.mul d a b) ∧ Writes s (.mul d a b) d (BitVec.ofNat 64 (x.toNat * y.toNat))) ∧
    (decode (word 1#3) = .ok (.mulh d a b) ∧
      Writes s (.mulh d a b) d ((x.signExtend 128 * y.signExtend 128).extractLsb' 64 64)) ∧
    (decode (word 3#3) = .ok (.mulhu d a b) ∧
      Writes s (.mulhu d a b) d ((x.zeroExtend 128 * y.zeroExtend 128).extractLsb' 64 64)) ∧
    (decode (word 4#3) = .ok (.div d a b) ∧
      Writes s (.div d a b) d (if y = 0 then ones else if x = min ∧ y = ones then min else BitVec.ofInt 64 (x.toInt.tdiv y.toInt))) ∧
    (decode (word 5#3) = .ok (.divu d a b) ∧
      Writes s (.divu d a b) d (if y = 0 then ones else BitVec.ofNat 64 (x.toNat / y.toNat))) ∧
    (decode (word 6#3) = .ok (.rem d a b) ∧
      Writes s (.rem d a b) d (if y = 0 then x else if x = min ∧ y = ones then 0
        else BitVec.ofInt 64 (x.toInt - y.toInt * x.toInt.tdiv y.toInt))) ∧
    (decode (word 7#3) = .ok (.remu d a b) ∧
      Writes s (.remu d a b) d (if y = 0 then x else BitVec.ofNat 64 (x.toNat - y.toNat * (x.toNat / y.toNat)))) ∧
    (∀ i, decode (word 2#3) ≠ .ok i)

/-- The bit forms (R123): the carry-less product as its loop computes it, the counts by what they count, ROR, and BSWAP byte by
byte; a unary form with a non-zero rs2 field, and funct3 111, are no instruction; the worked words of the rule decode to their lines. -/
def Obligations.BitForms : Prop :=
  ∀ (s : State) (d a b : BitVec 5), s.Plain →
    let x := s.cur.getX a
    let y := s.cur.getX b
    let product := (List.range 64).foldl (fun (p : BitVec 128) i => if y.getLsbD i then p ^^^ (x.zeroExtend 128 <<< i) else p) 0#128
    let word := fun (b : BitVec 5) (f3 : BitVec 3) => rWord 5#7 b a f3 d 0x33#7
    (decode (word b 0#3) = .ok (.clmul d a b) ∧ Writes s (.clmul d a b) d (product.extractLsb' 0 64)) ∧
    (decode (word b 1#3) = .ok (.clmulh d a b) ∧ Writes s (.clmulh d a b) d (product.extractLsb' 64 64)) ∧
    (decode (word 0 2#3) = .ok (.clz d a) ∧ ∃ n, n ≤ 64 ∧ Writes s (.clz d a) d (BitVec.ofNat 64 n) ∧
      (∀ i, 64 - n ≤ i → x.getLsbD i = false) ∧ (n < 64 → x.getLsbD (63 - n) = true)) ∧
    (decode (word 0 3#3) = .ok (.ctz d a) ∧ ∃ n, n ≤ 64 ∧ Writes s (.ctz d a) d (BitVec.ofNat 64 n) ∧
      (∀ i, i < n → x.getLsbD i = false) ∧ (n < 64 → x.getLsbD n = true)) ∧
    (decode (word 0 4#3) = .ok (.cpop d a) ∧ Writes s (.cpop d a) d (BitVec.ofNat 64 ((List.range 64).countP fun i => x.getLsbD i))) ∧
    (decode (word b 5#3) = .ok (.ror d a b) ∧
      Writes s (.ror d a b) d ((x >>> (y.toNat % 64)) ||| (x <<< (64 - y.toNat % 64)))) ∧
    (decode (word 0 6#3) = .ok (.bswap d a) ∧ ∃ v : Word, Writes s (.bswap d a) d v ∧
      ∀ i, i < 8 → v.extractLsb' (8 * i) 8 = x.extractLsb' (8 * (7 - i)) 8) ∧
    (b ≠ 0 → ∀ f3, f3 = 2#3 ∨ f3 = 3#3 ∨ f3 = 4#3 ∨ f3 = 6#3 → ∀ i, decode (word b f3) ≠ .ok i) ∧
    (∀ i, decode (word b 7#3) ≠ .ok i) ∧
    decode 0xFFF32293#32 = .ok (.slti 5 6 0xFFF#12) ∧ decode 0x43F3D393#32 = .ok (.srai 7 7 63) ∧
    decode 0x6082D293#32 = .ok (.rori 5 5 8) ∧ decode 0x407302B3#32 = .ok (.sub 5 6 7) ∧
    decode 0x02C5D533#32 = .ok (.divu 10 11 12) ∧ decode 0x0A7312B3#32 = .ok (.clmulh 5 6 7) ∧
    decode 0x0A0342B3#32 = .ok (.cpop 5 6)

/-! ### Scalar FP32 forms -/

/-- The rounding FP32 forms (R124, R125, R127, R128, R129, R131, R132): operands from bits [31:0], the rounding of rm or of
`ff.RM`, one result zero-extended (FP32) or sign-extended (an integer), the flags ORed into `ff`, nothing else changed. The
arithmetic is the model's exact-then-round functions; `FpRounding` states what their one rounding delivers. -/
def Obligations.FpRoundingForms : Prop :=
  ∀ (s : State) (d a b c : BitVec 5) (m : BitVec 3), s.Plain →
    let x : Lane := (s.cur.getX a).setWidth 32
    let y : Lane := (s.cur.getX b).setWidth 32
    let z : Lane := (s.cur.getX c).setWidth 32
    let rm := if m = 7#3 then (s.cur.ff.extractLsb' 5 3).toNat else m.toNat
    let fp := fun (i : Instr) (r : Lane × FpFlags) => Writes s i d (r.1.zeroExtend 64) r.2
    let int := fun (i : Instr) (n : Nat) (r : Int × FpFlags) =>
      Writes s i d (BitVec.ofInt 64 r.1) r.2 ∧ -(2 ^ (n - 1)) ≤ r.1 ∧ r.1 < 2 ^ (n - 1)
    fp (.faddS d a b m) (fpAdd rm x y) ∧ fp (.fsubS d a b m) (fpSub rm x y) ∧ fp (.fmulS d a b m) (fpMul rm x y) ∧
    fp (.fdivS d a b m) (fpDiv rm x y) ∧ fp (.fsqrtS d a m) (fpSqrt rm x) ∧ fp (.fmaddS d a b c m) (fpFma rm x y z) ∧
    fp (.fcvtSW d a m) (fpOfInt rm x.toInt) ∧ fp (.fcvtSL d a m) (fpOfInt rm (s.cur.getX a).toInt) ∧
    int (.fcvtWS d a m) 32 (fpToInt (-2147483648) 2147483647 rm x) ∧
    int (.fcvtLS d a m) 64 (fpToInt (-9223372036854775808) 9223372036854775807 rm x)

/-- The one rounding (R125, R127): a magnitude m × 2^e that binary32 holds exactly is delivered as it is, with no flag; zero keeps
its sign; the value delivered for a normal result under RTZ is never above the exact one and less than one unit in the last
place below it. In each of the four modes a magnitude of 24 + k bits is cut to 24 and goes up as the mode says, with NX where it is
inexact; one that then passes the largest finite magnitude gives infinity or that magnitude, with OF and NX; one below the normal range is
cut at 2^-149, with UF and NX where it is inexact. Every form is that one rounding of its exact result (R125, R128, R129, R131): a sum and a
fused product in whole units of the smaller power of two, a product, a quotient and a root to 40 bits and more with a last bit that says whether
they go on; to an integer the exact value is rounded and saturated (R132). A NaN operand of an arithmetic form gives the canonical NaN with no
flag (R126); NV and DZ are raised in the cases of R127 and no others. -/
def Obligations.FpRounding : Prop :=
  let sg := fun (s : Bool) (m : Nat) => (if s then -(m : Int) else (m : Int))
  -- a whole number of units 2^e, rounded once; an exact zero is -0 under RDN alone
  let rnd := fun (rm : Nat) (n e : Int) => if n = 0 then (fpZero (decide (rm = 2)), 0#5) else roundFp rm (decide (n < 0)) n.natAbs e
  let units := fun (s : Bool) (m : Nat) (e q : Int) => sg s m * 2 ^ (e - q).toNat
  let nv := (canonNaN, flagNV)
  (∀ (rm : Nat) (w : Lane), fpExp w ≠ 255 → ∀ neg m e, fpVal w = .fin neg m e → roundFp rm neg m e = (w, 0#5)) ∧
  (∀ (rm : Nat) (neg : Bool) (e : Int), roundFp rm neg 0 e = (fpZero neg, 0#5)) ∧
  (∀ (neg : Bool) (m : Nat), 2 ^ 24 ≤ m → m < 2 ^ 120 → ∃ q e', fpVal (roundFp 1 neg m 0).1 = .fin neg q e' ∧
    0 ≤ e' ∧ q * 2 ^ e'.toNat ≤ m ∧ m < (q + 1) * 2 ^ e'.toNat) ∧
  (∀ (rm : Nat) (neg : Bool) (m k : Nat), rm < 4 →
    let q := m / 2 ^ k
    let r := m % 2 ^ k
    let up : Bool := (rm == 0 && (decide (2 ^ k < 2 * r) || (decide (2 * r = 2 ^ k) && decide (q % 2 = 1)))) ||
      (rm == 2 && neg && decide (0 < r)) || (rm == 3 && !neg && decide (0 < r))
    let n := q + if up then 1 else 0
    (2 ^ (23 + k) ≤ m → m < 2 ^ (24 + k) → n * 2 ^ k < 2 ^ 128 →
      (∃ p e', fpVal (roundFp rm neg m 0).1 = .fin neg p e' ∧ 0 ≤ e' ∧ p * 2 ^ e'.toNat = n * 2 ^ k) ∧
      (roundFp rm neg m 0).2 = if r = 0 then 0#5 else flagNX) ∧
    (2 ^ (23 + k) ≤ m → m < 2 ^ (24 + k) → 2 ^ 128 ≤ n * 2 ^ k →
      roundFp rm neg m 0 = (if rm = 0 ∨ (rm = 2 ∧ neg = true) ∨ (rm = 3 ∧ neg = false) then fpInf neg else fpPack neg 0x7F7FFFFF,
        flagOF ||| flagNX)) ∧
    (1 ≤ k → 0 < m → m + 2 ^ k < 2 ^ (23 + k) →
      roundFp rm neg m (-149 - (k : Int)) = (fpPack neg n, if r = 0 then 0#5 else flagNX ||| flagUF))) ∧
  (∀ (rm : Nat) (x y : Lane), fpIsNaN x = true → fpAdd rm x y = (canonNaN, 0#5) ∧ fpAdd rm y x = (canonNaN, 0#5) ∧
    fpSub rm x y = (canonNaN, 0#5) ∧ fpSub rm y x = (canonNaN, 0#5) ∧
    fpMul rm x y = (canonNaN, 0#5) ∧ fpMul rm y x = (canonNaN, 0#5) ∧ fpDiv rm x y = (canonNaN, 0#5) ∧
    fpDiv rm y x = (canonNaN, 0#5) ∧ fpSqrt rm x = (canonNaN, 0#5) ∧
    ∀ z : Lane, fpFma rm x y z = (canonNaN, 0#5) ∧ fpFma rm y x z = (canonNaN, 0#5) ∧
      fpFma rm y z x = (if (fpIsInf y = true ∧ fpIsZero z = true) ∨ (fpIsZero y = true ∧ fpIsInf z = true) then nv else (canonNaN, 0#5))) ∧
  (∀ (rm : Nat) (x y : Lane) (s t : Bool) (m n : Nat) (e f : Int), fpVal x = .fin s m e → fpVal y = .fin t n f →
    let q := min e f
    fpAdd rm x y = (if m = 0 ∧ n = 0 ∧ s = t then (fpZero s, 0#5) else rnd rm (units s m e q + units t n f q) q) ∧
    fpSub rm x y = (if m = 0 ∧ n = 0 ∧ s ≠ t then (fpZero s, 0#5) else rnd rm (units s m e q - units t n f q) q) ∧
    fpMul rm x y = roundFp rm (s != t) (m * n) (e + f) ∧
    (n ≠ 0 → fpDiv rm x y = roundFp rm (s != t) (2 * (m * 2 ^ 64 / n) + if m * 2 ^ 64 % n = 0 then 0 else 1) (e - f - 65)) ∧
    (n = 0 → fpDiv rm x y = if m = 0 then nv else (fpInf (s != t), flagDZ)) ∧
    (∀ (z : Lane) (u : Bool) (k : Nat) (g : Int), fpVal z = .fin u k g →
      let q := min (e + f) g
      fpFma rm x y z = if m * n = 0 ∧ k = 0 ∧ (s != t) = u then (fpZero u, 0#5)
        else rnd rm (units (s != t) (m * n) (e + f) q + units u k g q) q) ∧
    (∀ (z : Lane) (u : Bool), fpVal z = .inf u → fpFma rm x y z = (fpInf u, 0#5)) ∧
    (m = 0 → fpSqrt rm x = (fpZero s, 0#5)) ∧ (m ≠ 0 → s = true → fpSqrt rm x = nv) ∧
    (m ≠ 0 → s = false → ∀ r : Nat, let k : Nat := if e % 2 = 0 then 60 else 61
      r * r ≤ m * 2 ^ k → m * 2 ^ k < (r + 1) * (r + 1) →
      fpSqrt rm x = roundFp rm false (2 * r + if r * r = m * 2 ^ k then 0 else 1) ((e - (k : Int)) / 2 - 1)) ∧
    (rm < 4 → ∀ lo hi : Int,
      let k := (-e).toNat
      let whole := m * 2 ^ e.toNat / 2 ^ k
      let r := m % 2 ^ k
      let up : Bool := (rm == 0 && (decide (2 ^ k < 2 * r) || (decide (2 * r = 2 ^ k) && decide (whole % 2 = 1)))) ||
        (rm == 2 && s && decide (0 < r)) || (rm == 3 && !s && decide (0 < r))
      let v := sg s (whole + if up then 1 else 0)
      let inexact := e < 0 ∧ r ≠ 0
      fpToInt lo hi rm x = if hi < v then (hi, flagNV) else if v < lo then (lo, flagNV) else (v, if inexact then flagNX else 0#5))) ∧
  (∀ (rm : Nat) (x y : Lane) (s : Bool), fpVal x = .inf s →
    (∀ t, fpVal y = .inf t → fpAdd rm x y = (if s = t then (fpInf s, 0#5) else nv) ∧ fpSub rm x y = (if s = t then nv else (fpInf s, 0#5)) ∧
      fpMul rm x y = (fpInf (s != t), 0#5) ∧ fpDiv rm x y = nv) ∧
    (∀ t n f, fpVal y = .fin t n f → fpAdd rm x y = (fpInf s, 0#5) ∧ fpAdd rm y x = (fpInf s, 0#5) ∧ fpSub rm x y = (fpInf s, 0#5) ∧
      fpSub rm y x = (fpInf (!s), 0#5) ∧ fpMul rm x y = (if n = 0 then nv else (fpInf (s != t), 0#5)) ∧ fpMul rm y x = fpMul rm x y ∧
      fpDiv rm x y = (fpInf (s != t), 0#5) ∧ fpDiv rm y x = (fpZero (s != t), 0#5)) ∧
    (∀ z : Lane, fpIsZero y = true → fpFma rm x y z = nv ∧ fpFma rm y x z = nv) ∧
    (∀ z : Lane, fpIsNaN y = false → fpIsZero y = false → fpIsNaN z = false →
      let inf := if fpVal z = .inf (!(s != fpSign y)) then nv else (fpInf (s != fpSign y), 0#5)
      fpFma rm x y z = inf ∧ fpFma rm y x z = inf) ∧
    fpSqrt rm x = (if s then nv else (fpInf false, 0#5)) ∧
    ∀ lo hi : Int, fpToInt lo hi rm x = (if s then lo else hi, flagNV)) ∧
  (∀ (rm : Nat) (n lo hi : Int) (x : Lane), fpOfInt rm n = (if n = 0 then (0#32, 0#5) else roundFp rm (decide (n < 0)) n.natAbs 0) ∧
    (fpIsNaN x = true → fpToInt lo hi rm x = (0, flagNV)))

/-- Sign injection, minimum, maximum and the compares (R130), written out by their cases. -/
def Obligations.FpChoiceForms : Prop :=
  ∀ (s : State) (d a b : BitVec 5), s.Plain →
    let x : Lane := (s.cur.getX a).setWidth 32
    let y : Lane := (s.cur.getX b).setWidth 32
    let nan := fpIsNaN x || fpIsNaN y
    let zeros := x.extractLsb' 0 31 == 0#31 && y.extractLsb' 0 31 == 0#31
    let key := fun (w : Lane) => if w.getLsbD 31 then -((w.extractLsb' 0 31).toNat : Int) - 1 else ((w.extractLsb' 0 31).toNat : Int)
    let sign := fun (n : Bool) => ((if n then 1#1 else 0#1) ++ x.extractLsb' 0 31 : BitVec 32).zeroExtend 64
    let choose := fun (first : Bool) => if fpIsNaN x && fpIsNaN y then canonNaN else if fpIsNaN x then y else if fpIsNaN y then x
      else if first then x else y
    let bool := fun (c : Bool) => if c then 1#64 else 0#64
    let inv := if nan then flagNV else 0#5
    Writes s (.fsgnjS d a b) d (sign (y.getLsbD 31)) ∧ Writes s (.fsgnjnS d a b) d (sign (!y.getLsbD 31)) ∧
    Writes s (.fsgnjxS d a b) d (sign (x.getLsbD 31 != y.getLsbD 31)) ∧
    Writes s (.fminS d a b) d ((choose (decide (key x < key y))).zeroExtend 64) ∧
    Writes s (.fmaxS d a b) d ((choose (decide (key y < key x))).zeroExtend 64) ∧
    Writes s (.feqS d a b) d (bool (!nan && (x == y || zeros))) ∧
    Writes s (.fltS d a b) d (bool (!nan && !zeros && decide (key x < key y))) inv ∧
    Writes s (.fleS d a b) d (bool (!nan && (zeros || decide (key x ≤ key y)))) inv

/-- FCLASS.S (R133): exactly one of bits [8:0], by the class of the operand; bits [63:9] are zero and no flag is raised; and the
worked words of the rule decode to their lines. -/
def Obligations.FpClassForm : Prop :=
  ∀ (s : State) (d a : BitVec 5), s.Plain →
    let x : Lane := (s.cur.getX a).setWidth 32
    let e := x.extractLsb' 23 8
    let f := x.extractLsb' 0 23
    let bit := if e = 255#8 then (if f ≠ 0 then 8 else if x.getLsbD 31 then 0 else 7)
      else if e = 0#8 then (if f = 0 then (if x.getLsbD 31 then 3 else 4) else if x.getLsbD 31 then 2 else 5)
      else if x.getLsbD 31 then 1 else 6
    (decode (rWord 0x70#7 0#5 a 1#3 d 0x53#7) = .ok (.fclassS d a) ∧ Writes s (.fclassS d a) d (BitVec.ofNat 64 (2 ^ bit))) ∧
    decode 0x007302D3#32 = .ok (.faddS 5 6 7 0) ∧ decode 0x007372D3#32 = .ok (.faddS 5 6 7 7) ∧
    decode 0x58059553#32 = .ok (.fsqrtS 10 11 1) ∧ decode 0xA07312D3#32 = .ok (.fltS 5 6 7) ∧
    decode 0xC00312D3#32 = .ok (.fcvtWS 5 6 1) ∧ decode 0xD02302D3#32 = .ok (.fcvtSL 5 6 0) ∧
    decode 0xE00312D3#32 = .ok (.fclassS 5 6) ∧ decode 0x407302C3#32 = .ok (.fmaddS 5 6 7 8 0)

/-! ### Control flow -/

/-- JAL and JALR (R106): the link and the new PC; a misaligned JALR target and a target above the private space fault, with no
register written and the PC at the jump. JALR drops the words fetched ahead (R294) and holds the port three clk (R104). A taken
transfer (R110): the PC is the target, a level whose body [ls, le + 4) the target leaves is no longer active, one it stays in
keeps its count, and no end check is made. -/
def Obligations.Jumps : Prop :=
  (∀ (s : State) (d a : BitVec 5) (off : BitVec 21) (imm : BitVec 12), s.Plain →
    let link : Word := s.cur.pc.zeroExtend 64 + 4
    let t1 : Word := s.cur.pc.zeroExtend 64 + off.signExtend 64
    let t2 : Word := s.cur.getX a + imm.signExtend 64
    (t1.extractLsb' 47 17 = 0#17 →
      Runs (.jal d off) s (s.setCur ((s.cur.setX d link).complete (.jump (t1.setWidth 48))))) ∧
    (t1.extractLsb' 47 17 ≠ 0#17 → Faults s (.jal d off) { cause := causeIaddr, addr := some t1 }) ∧
    (t2.extractLsb' 0 2 = 0#2 → t2.extractLsb' 47 17 = 0#17 →
      let s' := s.setCur { s.cur.setX d link with ahead := [] }
      let s' := s'.setCore s.core { s'.coreAt s.core with busy := 3, jalrClk := 3, jalrSlot := s.slot }
      Runs (.jalr d a imm) s (s'.completed s.core s.slot (.jump (t2.setWidth 48)))) ∧
    (t2.extractLsb' 0 2 ≠ 0#2 → Faults s (.jalr d a imm) { cause := causeAlign, addr := some t2 }) ∧
    (t2.extractLsb' 0 2 = 0#2 → t2.extractLsb' 47 17 ≠ 0#17 → Faults s (.jalr d a imm) { cause := causeIaddr, addr := some t2 })) ∧
  (∀ (t : Slot) (p : BitVec 48),
    (t.complete (.jump p)).pc = p ∧ (t.complete (.jump p)).lc = t.lc ∧ (t.complete (.jump p)).pfx = none ∧
    (∀ l, l < 2 → ((t.complete (.jump p)).loopOn l = true ↔
      t.loopOn l = true ∧ (t.lsN l).toNat ≤ p.toNat ∧ p.toNat < (t.leN l).toNat + 4)) ∧
    (t.complete (.jump p)).x = t.x)

/-- The six branches (R107), each from its word: a taken branch transfers to its target, or faults with IADDR where that lies above
the private space; one not taken goes to the next word and never faults on its target. -/
def Obligations.BranchForms : Prop :=
  ∀ (s : State) (a b : BitVec 5) (off : BitVec 13), s.Plain →
    let x := s.cur.getX a
    let y := s.cur.getX b
    let t : Word := s.cur.pc.zeroExtend 64 + off.signExtend 64
    let word := fun (f3 : BitVec 3) =>
      rWord (off.extractLsb' 12 1 ++ off.extractLsb' 5 6) b a f3 (off.extractLsb' 1 4 ++ off.extractLsb' 11 1) 0x63#7
    ∀ e ∈ [(Instr.beq a b off, 0#3, decide (x = y)), (.bne a b off, 1#3, decide (x ≠ y)),
        (.blt a b off, 4#3, decide (x.toInt < y.toInt)), (.bge a b off, 5#3, decide (y.toInt ≤ x.toInt)),
        (.bltu a b off, 6#3, decide (x.toNat < y.toNat)), (.bgeu a b off, 7#3, decide (y.toNat ≤ x.toNat))],
      (off.extractLsb' 0 2 = 0#2 → decode (word e.2.1) = .ok e.1) ∧
      (e.2.2 = false → Slots s e.1 id) ∧
      (e.2.2 = true → t.extractLsb' 47 17 = 0#17 → Runs e.1 s (s.setCur (s.cur.complete (.jump (t.setWidth 48))))) ∧
      (e.2.2 = true → t.extractLsb' 47 17 ≠ 0#17 → Faults s e.1 { cause := causeIaddr, addr := some t })

/-- YIELD (R112, R113): `wdc` is 0, the warned mark is gone, the word completes, and where the slot is its level's running slot the
turn passes to the next; the slot stays READY, and a pending prefix stays pending (R34 reads otherwise; log entry 65). END
(R114): where no vector command of the slot is left, the loop state is gone, the open count goes down, and the slot is FREE; in
a gate callee END is illegal. The queue forms (R116, R366): in a gate callee without vectors each faults with GVEC; else QPUSH
appends where fewer than four entries wait, QPOP takes the head where one waits, QCNT never blocks; a full or an empty queue
blocks the slot on its instruction. -/
def Obligations.YieldEndAndQueues : Prop :=
  (∀ s : State,
    let t : Slot := (({ s.cur with wdc := 0, warned := false } : Slot).complete .seq).setPfx s.cur.pfx
    let s1 := s.setCur t
    let s2 := s1.giveUp s.core s.slot
    let q := s1.coreAt s.core
    let level := t.cls * 4 + t.prio
    decode 0x0000300B#32 = .ok .yield ∧ Runs .yield s (s2.completed s.core s.slot .stay) ∧ t.pfx = s.cur.pfx ∧ t.st = s.cur.st ∧
    (tabFind q.run level = some (2 * s.slot) → s2 = s1.setCore s.core { q with run := tabPut q.run level (2 * s.slot + 1) }) ∧
    (tabFind q.run level ≠ some (2 * s.slot) → s2 = s1.setCore s.core q)) ∧
  (∀ s : State, s.Plain →
    (s.cur.frames ≠ [] → Illegal s .endTask) ∧
    (s.cur.frames = [] → (∀ v ∈ (s.coreAt s.core).vecq, v.slot ≠ s.slot) →
      Runs .endTask s (s.freeSlot s.core s.slot) ∧ (s.freeSlot s.core s.slot).cur.st = .free ∧
      (∀ l, l < 2 → (s.freeSlot s.core s.slot).cur.loopOn l = false) ∧ (s.freeSlot s.core s.slot).cur.lc = (0, 0) ∧
      (s.freeSlot s.core s.slot).mem = s.mem ∧
      (∀ v, s.cur.counted = true → tabFind s.launches s.cur.tag = some v →
        ∃ u, tabFind (s.freeSlot s.core s.slot).launches s.cur.tag = some u ∧ u.open_ = v.open_ - 1))) ∧
  (∀ (s : State) (d a : BitVec 5) (q : BitVec 3), s.Plain →
    let allowed := ∀ f ∈ s.cur.frames.head?, f.vec = true
    let held := s.cur.getQ q.toNat
    (¬ allowed → ∀ i ∈ [Instr.qpush q a, .qpop d q, .qcnt d q], Faults s i { cause := 0x1A }) ∧ (allowed →
    (held.length < 4 → Slots s (.qpush q a) fun t => t.setQ q.toNat (held ++ [t.getX a])) ∧
    (4 ≤ held.length → Blocks s (.qpush q a) s (.on (.qpush q a))) ∧
    (∀ v rest, held = v :: rest → Slots s (.qpop d q) fun t => (t.setQ q.toNat rest).setX d v) ∧
    (held = [] → Blocks s (.qpop d q) s (.on (.qpop d q))) ∧
    Writes s (.qcnt d q) d (BitVec.ofNat 64 held.length)))

/-! ### CSRs, faults and the forms on slots -/

/-- The six CSR forms (R31, R117, R118), after the slot's vector commands, and for `mst` its gang's passes, have reported: the old
value to x[rd] whatever is written, `skb` and the BUSY bits of `mst` as they were at issue; PRIV for a read of the fault CSRs, or a
write of a runtime CSR or a locked `gtb`, with nothing written. A read of `hlc` or `hrc` completes with the count as it stands and does not wait
for the store buffer, which is the model's choice (R118, log entry 68). The CSRs that every class writes, and their fields, are written out;
a runtime CSR goes through the model's one write of it. -/
def Obligations.CsrForms : Prop :=
  ∀ (s : State) (d a u : BitVec 5) (csr : BitVec 12), s.Plain →
    let n := csr.toNat
    let s0 := s.finishVec s.core s.slot
    let s' := if n = 0x020 then s0.finishGang s0.cur.gang else s0
    let src := s.cur.getX a
    let imm : Word := u.zeroExtend 64
    let issue := s.csrValue s.core s.slot n
    let reported := s'.csrValue s'.core s'.slot n
    let old := if n = 0x020 then (issue &&& 0xFF00#64) ||| (reported &&& 0xFF#64) else if n = 0x021 then issue else reported
    let own := decide (0x030 ≤ n) && decide (n ≤ 0x03B)
    let priv := fun (i : Instr) => Runs i s (s'.takeFault s.core s.slot { cause := causePriv } 0 .fault)
    ∀ e ∈ [(Instr.csrrw d a csr, some src), (.csrrs d a csr, if a = 0 then none else some (old ||| src)),
        (.csrrc d a csr, if a = 0 then none else some (old &&& ~~~src)), (.csrrwi d u csr, some imm),
        (.csrrsi d u csr, if u = 0 then none else some (old ||| imm)),
        (.csrrci d u csr, if u = 0 then none else some (old &&& ~~~imm))],
      ((n = 0x060 ∨ n = 0x061 ∨ n = 0x062) → s'.cur.cls ≠ 2 → priv e.1) ∧
      (e.2.isSome = true → own = true → (s'.cur.cls ≠ 2 ∨ (n = 0x038 ∧ s'.gtbIsLocked s'.cur.lease = true)) → priv e.1) ∧
      (e.2 = none → ¬ ((n = 0x060 ∨ n = 0x061 ∨ n = 0x062) ∧ s'.cur.cls ≠ 2) →
        Runs e.1 s ((s'.setCur (s'.cur.setX d old)).completed s.core s.slot .seq)) ∧
      (∀ v, e.2 = some v → own = false → ¬ ((n = 0x060 ∨ n = 0x061 ∨ n = 0x062) ∧ s'.cur.cls ≠ 2) →
        let pc := v.setWidth 48 &&& 0xFFFFFFFFFFFC#48
        let t := s'.cur
        let t' : Slot := if n = 0x005 then { t with ff := if v.getLsbD 7 then v.setWidth 8 &&& 0x1F#8 else v.setWidth 8 }
          else if n = 0x006 then { t with phase := v.setWidth 4 } else if n = 0x009 then { t with ctype := v.setWidth 8 }
          else if n = 0x00A then { t with bexp := v.setWidth 8 } else if n = 0x010 then t.setLc 0 (v &&& 0xFFFFFFFF#64)
          else if n = 0x011 then t.setLs 0 pc else if n = 0x012 then t.setLe 0 pc
          else if n = 0x013 then t.setLc 1 (v &&& 0xFFFFFFFF#64) else if n = 0x014 then t.setLs 1 pc
          else if n = 0x015 then t.setLe 1 pc else t
        Runs e.1 s (((s'.setCur t').setCur (t'.setX d old)).completed s.core s.slot .seq)) ∧
      (∀ v, e.2 = some v → own = true → s'.cur.cls = 2 → ¬ (n = 0x038 ∧ s'.gtbIsLocked s'.cur.lease = true) →
        let s1 := s'.setCur s'.cur
        let s2 := s1.setLeaseCsr s1.core s1.cur.lease n v
        Runs e.1 s ((s2.setCur (s2.cur.setX d old)).completed s.core s.slot .seq))

/-- Taking a lease-owned fault outside a gate callee (R186): the slot is PARKED at its PC with every register as it was; `fca`,
`fad` and `fsl` say what, where and who; the runtime's reserved entry of the slot holds type 0xF1 with its arguments; memory and
the other slots are as before. The other ways a fault is taken: an illegal word consumes its prefix and reports cause 1 (R23); a
runtime-class task is killed and reported as lease event 1 with reason 3 (R186, R376); a stage-2 fault parks the slot and is
logged for the house, with no upcall (R372). The address of ILLOP in x12 is a free value (log entry 11). -/
def Obligations.FaultEntry : Prop :=
  (∀ (s : State) (c k : Nat) (f : FaultInfo) (addr lv x15 : Word) (p : Park),
    (s.slotAt c k).frames = [] → f.stage2 = false → (s.slotAt c k).cls ≠ 2 → f.addr = some addr → f.level = some lv →
    let t := s.slotAt c k
    let s' := s.takeFault c k f x15 p
    let sid : Word := BitVec.ofNat 64 (t.gen.toNat * 256 + k)
    s'.slotAt c k = { t with st := .parked p } ∧
    (s'.lcoreAt t.lease c).fca = BitVec.ofNat 16 f.cause ∧ (s'.lcoreAt t.lease c).fad = addr ∧
    (s'.lcoreAt t.lease c).fsl = BitVec.ofNat 16 (t.gen.toNat * 256 + k) ∧
    (∃ m, tabFind (s'.coreAt c).reserve k = some m ∧ m.type = 0xF1 ∧ m.lease = t.lease ∧ m.core = c ∧
      m.args = [sid, BitVec.ofNat 64 f.cause, addr, t.pc.zeroExtend 64, lv, x15]) ∧
    s'.mem = s.mem ∧ s'.leases = s.leases ∧ (∀ j, j ≠ k → s'.slotAt c j = s.slotAt c j) ∧
    (∀ c', c' ≠ c → s'.coreAt c' = s.coreAt c')) ∧
  (∀ (s : State) (c k : Nat) (f : FaultInfo), (s.slotAt c k).frames = [] →
    let t := s.slotAt c k
    ((s.slotAt c k).cls ≠ 2 → let s' := s.stopped c k .illop
      (s'.slotAt c k).pfx = none ∧ (s'.slotAt c k).pc = t.pc ∧ (s'.slotAt c k).x = t.x ∧ (s'.slotAt c k).st = .parked .fault ∧
      (s'.lcoreAt t.lease c).fca = 1#16 ∧ s'.mem = s.mem) ∧
    (f.stage2 = false → (s.slotAt c k).cls = 2 → let s' := s.takeFault c k f 0 .fault
      (s'.slotAt c k).st = .free ∧ (s'.slotAt c k).frames = [] ∧ s'.mem = s.mem ∧
      s' = (s.killTask c k).raiseEvent t.lease c [1, BitVec.ofNat 64 (t.gen.toNat * 256 + k), 3, BitVec.ofNat 64 f.cause] t.tag) ∧
    (f.stage2 = true → let s' := s.takeFault c k f 0 .fault
      s'.slotAt c k = { t with st := .parked (.stage2 f.cause) } ∧ s'.lcoreAt t.lease c = s.lcoreAt t.lease c ∧
      (s'.coreAt c).reserve = (s.coreAt c).reserve ∧ s'.mem = s.mem ∧
      ∃ e, e ∈ s'.log ∧ e.part = 0 ∧ e.code = f.cause ∧ e.d = t.lease))

/-- A fault in a gate callee (R369): a fatal one of a partition-owned callee, not of GATE itself, unwinds the innermost frame:
the caller's registers, loop state and (from a callee with vectors) vectors are back, x10 is GATE_FAIL, x11 the cause, the slot READY after its
GATE (while a vector command of the
callee is under way it stalls first, log entry 49); GLIMIT of a lease-owned callee
does the same and raises lease event 5; any other cause of one is the upcall of a plain fault. -/
def Obligations.CalleeFaults : Prop :=
  ∀ (s : State) (c k : Nat) (f : FaultInfo) (fr : Frame) (rest : List Frame), (s.slotAt c k).frames = fr :: rest →
    f.stage2 = false → f.gate = false →
    let t := s.slotAt c k
    let s' := s.takeFault c k f 0 .fault
    -- the caller goes on after its GATE, which is a completed word of its loop body (`CompletedWord`)
    let resumes := fun (fr : Frame) (u : Slot) =>
      (fr.loops = 0#2 → u.pc = fr.pc ∧ u.lc = fr.lc ∧ u.ls = fr.ls ∧ u.le = fr.le) ∧
      ∃ w : Slot, w.pc = fr.pc - 4 ∧ w.lc = fr.lc ∧ w.ls = fr.ls ∧ w.le = fr.le ∧ (∀ l, l < 2 → w.loopOn l = fr.loops.getLsbD l) ∧
        let v := w.complete .seq
        u.pc = v.pc ∧ u.lc = v.lc ∧ u.ls = v.ls ∧ u.le = v.le ∧ ∀ l, l < 2 → u.loopOn l = v.loopOn l
    let back := fun (s' : State) => let u := s'.slotAt c k
      resumes fr u ∧ (u.v, u.p, u.q) = (if fr.vec then (fr.v, fr.p, fr.q) else (t.v, t.p, t.q)) ∧
      u.frames = rest ∧ u.st = .ready ∧ u.dom = fr.dom ∧ u.ff = fr.ff ∧ u.ctype = fr.ctype ∧ u.bexp = fr.bexp ∧ u.getX 10 = 0xFFFFFFFFFFFFFFFF#64 ∧
      u.getX 11 = BitVec.ofNat 64 f.cause ∧ (∀ r, r ≠ 10 → r ≠ 11 → r ≠ 0 → u.getX r = tabGet 0 fr.x r.toNat) ∧ u.pfx = none ∧
      s'.mem = s.mem
    (fr.own = true → (∀ v ∈ (s.coreAt c).vecq, v.slot ≠ k) → back s' ∧ ∃ e, e ∈ s'.log ∧ e.part = t.part ∧ e.code = f.cause) ∧
    (fr.own = true → (∃ v ∈ (s.coreAt c).vecq, v.slot = k ∧ v.gen = t.gen) → s' = s.setCore c { s.coreAt c with stalled := true }) ∧
    (fr.own = false → f.cause = 0x1B → back s' ∧
      s' = (s.setSlot c k (t.unwind 0x1B)).raiseEvent t.lease c [5, BitVec.ofNat 64 (t.gen.toNat * 256 + k), BitVec.ofNat 64 fr.index, 0x1B] t.tag) ∧
    (fr.own = false → f.cause ≠ 0x1B → t.cls ≠ 2 → s'.slotAt c k = { t with st := .parked .fault } ∧
      (s'.lcoreAt t.lease c).fca = BitVec.ofNat 16 f.cause)

/-- TRAP and BKPT (R374), with no vector command of the slot left: the instruction completes, and its upcall carries x10 in x12,
the PC of the trap in x13 and 0 in x14, and `fad` holds the word of x12 by the model's choice (log entry 69); the slot is PARKED behind it. -/
def Obligations.TrapForms : Prop :=
  ∀ s : State, s.Plain → s.cur.frames = [] → s.cur.cls ≠ 2 → (∀ v ∈ (s.coreAt s.core).vecq, v.slot ≠ s.slot) →
    ∀ e ∈ [(Instr.trap, 0x20), (.bkpt, 0x21)], ∃ t, Runs e.1 s t ∧
      t.cur = { s.cur.complete .seq with st := .parked .trap } ∧
      (t.lcoreAt s.cur.lease s.core).fca = BitVec.ofNat 16 e.2 ∧ (t.lcoreAt s.cur.lease s.core).fad = s.cur.getX 10 ∧
      (∃ m, tabFind (t.coreAt s.core).reserve s.slot = some m ∧ m.type = 0xF1 ∧
        m.args = [BitVec.ofNat 64 (sidOf s.cur s.slot), BitVec.ofNat 64 e.2, s.cur.getX 10, s.cur.pc.zeroExtend 64, 0, 0]) ∧
      t.mem = s.mem

/-- The forms on slots (R187, R188): PRIV outside the runtime class; the statuses and effects of RESUME, KILL, SLOTRD and SLOTWR, a
`sid` word with a reserved bit set naming nothing (BADSEL is decided before STALE for SLOTWR, log entry 17). Invalidation and
management (R73, R184, R189, R190): PLBINV, TLBI1 and TLBI2 answer their statuses and a refused one changes nothing (in what
order several statuses are decided is the model's, log entry 66); performed, no entry that the pages named overlap is left in
any lookaside buffer, translation cache, walk cache or die, and the form completes at once where no slot is blocked in an access
that used one, else when none is any more (log entry 36). MGMT by a task below partition level is PRIV; else its block, checked
for a store and read, goes to the end of the gaffer's queue and the slot is BLOCKED. -/
def Obligations.SlotAndSystemForms : Prop :=
  (∀ (s : State) (d a b : BitVec 5), s.Plain →
    let w := s.cur.getX a
    let k := w.toNat % 8
    let g := (w.toNat / 256) % 256
    let v := s.slotAt s.core k
    let parked := v.parkedAs (BitVec.ofNat 8 g)
    let sidOk := w.toNat / 8 % 32 = 0
    let done := fun (i : Instr) (s1 : State) (x : Word) => Completes s i (s1.setCur (s1.cur.setX d x))
    let quiet := s.finishVec s.core k
    let u := quiet.slotAt quiet.core k
    let sel := w.toNat / 65536 % 4096
    (s.cur.cls ≠ 2 → ∀ i ∈ [Instr.resume d a, .kill d a, .slotrd d a, .slotwr d a b, .plbinv d a b],
      Faults s i { cause := causePriv }) ∧
    (s.cur.cls = 2 →
      (¬ (w.toNat < 65536 ∧ sidOk) → done (.resume d a) s 3 ∧ done (.kill d a) s 3) ∧
      (w.toNat < 65536 → sidOk → parked = true → done (.resume d a) (s.setSlot s.core k { v with st := .ready }) 0) ∧
      (w.toNat < 65536 → sidOk → parked = false → done (.resume d a) (s.countStale s.cur.lease) 1) ∧
      (w.toNat < 65536 → sidOk → k = s.slot → BitVec.ofNat 8 g = s.cur.gen → done (.kill d a) s 2) ∧
      (w.toNat < 65536 → sidOk → ¬ (k = s.slot ∧ BitVec.ofNat 8 g = s.cur.gen) → v.st ≠ .free → v.gen = BitVec.ofNat 8 g →
        done (.kill d a) (s.killReport s.core k 2 0) 0) ∧
      (w.toNat < 65536 → sidOk → ¬ (k = s.slot ∧ BitVec.ofNat 8 g = s.cur.gen) → ¬ (v.st ≠ .free ∧ v.gen = BitVec.ofNat 8 g) →
        done (.kill d a) (s.countStale s.cur.lease) 1) ∧
      (¬ (w.toNat < 2 ^ 28 ∧ sidOk) → done (.slotrd d a) s 0 ∧ done (.slotwr d a b) s 3) ∧
      (w.toNat < 2 ^ 28 → sidOk → sel = 0 → done (.slotrd d a) quiet (u.summary k)) ∧
      (w.toNat < 2 ^ 28 → sidOk → sel ≠ 0 → u.parkedAs (BitVec.ofNat 8 g) = true → done (.slotrd d a) quiet (u.readSel k sel)) ∧
      (w.toNat < 2 ^ 28 → sidOk → sel ≠ 0 → u.parkedAs (BitVec.ofNat 8 g) = false → done (.slotrd d a) quiet 0) ∧
      (w.toNat < 2 ^ 28 → sidOk → u.writeSel sel (s.cur.getX b) = none → done (.slotwr d a b) quiet 3) ∧
      (∀ u', w.toNat < 2 ^ 28 → sidOk → u.writeSel sel (s.cur.getX b) = some u' → u.parkedAs (BitVec.ofNat 8 g) = true →
        done (.slotwr d a b) (quiet.setSlot quiet.core k u') 0) ∧
      (∀ u', w.toNat < 2 ^ 28 → sidOk → u.writeSel sel (s.cur.getX b) = some u' → u.parkedAs (BitVec.ofNat 8 g) = false →
        done (.slotwr d a b) quiet 1))) ∧
  (∀ (s : State) (d a b : BitVec 5), s.Plain →
    let t := s.cur
    let x := (t.getX a).toNat
    let y := (t.getX b).toNat
    let bad := decide (512 ≤ x) || decide (2 ^ 53 ≤ y) || (!y.testBit 52 && decide (y / 2 ^ 26 % 2 ^ 26 < y % 2 ^ 26))
    let tgt := if y / 2 ^ 32 % 256 = 0 then t.lease else y / 2 ^ 32 % 256
    let part := y / 2 ^ 32 % 16
    let named := fun (base size : Nat) => decide (y % 2 ^ 32 = 0) || (decide (x < base + size) && decide (base < x + 4096 * (y % 2 ^ 32)))
    (t.cls = 2 → bad = true → Writes s (.plbinv d a b) d 3) ∧
    (t.cls = 2 → bad = false →
      let hit := fun (e : PlbEntry) => e.hit t.lease (x % 256) (y % 2 ^ 26) (y / 2 ^ 26 % 2 ^ 26) (x.testBit 8) (y.testBit 52)
      let s1 := (s.quiesce fun l => l == t.lease).dropPlb hit
      let us := s1.users fun u dva _ =>
        hit { lease := u.lease, dom := u.dom.toNat, seg := dva / 2 ^ 21, r := false, w := false, x := false, g := false }
      (us = [] → Completes s (.plbinv d a b) (s1.setCur (s1.cur.setX d 0))) ∧
      (us ≠ [] → Blocks s (.plbinv d a b) s1 (.drain d us)) ∧
      ∀ c ∈ s1.cores, ∀ e ∈ c.2.plb,
        ¬ (e.lease = t.lease ∧ (x.testBit 8 = true ∨ e.dom = x % 256) ∧
          (y.testBit 52 = true ∨ (y % 2 ^ 26 ≤ e.seg ∧ e.seg ≤ y / 2 ^ 26 % 2 ^ 26)))) ∧
    (¬ (t.cls = 2 ∧ t.dom = 0) → Faults s (.tlbi1 d a b) { cause := causePriv } ∧ Faults s (.tlbi2 d a b) { cause := causePriv }) ∧
    (t.cls = 2 → t.dom = 0 → (x % 4096 ≠ 0 ∨ 2 ^ 47 ≤ x ∨ 2 ^ 40 ≤ y) → Writes s (.tlbi1 d a b) d 3) ∧
    (t.cls = 2 → t.dom = 0 → s.levelOf t = 0 → x % 4096 = 0 → x < 2 ^ 47 → y < 2 ^ 40 → s.leaseAt tgt = none →
      Writes s (.tlbi1 d a b) d 2) ∧
    (t.cls = 2 → t.dom = 0 → s.levelOf t = 2 → x % 4096 = 0 → x < 2 ^ 47 → y < 2 ^ 40 → tgt ≠ t.lease →
      Writes s (.tlbi1 d a b) d 1) ∧
    (t.cls = 2 → t.dom = 0 → s.levelOf t = 0 → x % 4096 = 0 → x < 2 ^ 47 → y < 2 ^ 40 → (s.leaseAt tgt).isSome = true →
      let gone := fun (e : Xlat) => e.lease == tgt && named (e.page * e.span) e.span
      let s1 := ((s.quiesce fun l => l == tgt).dropXlat gone fun l => l.x.lease == tgt && named (l.line * 64) 64).dropPointers
        fun p => !p.second && p.owner == tgt && p.overlaps x (y % 2 ^ 32)
      let us := s1.users fun _ _ e => e.any gone
      (us = [] → Completes s (.tlbi1 d a b) (s1.setCur (s1.cur.setX d 0))) ∧
      (us ≠ [] → Blocks s (.tlbi1 d a b) s1 (.drain d us)) ∧
        (∀ h, ∀ p ∈ (s1.homeAt h).walks, p.second = false → p.owner = tgt → named (p.upper * 2 ^ (39 - 9 * p.level)) (2 ^ (39 - 9 * p.level)) = false) ∧
        ∀ die, die < 8 → (∀ e ∈ (s1.dieAt die).dtc, e.lease = tgt → named (e.page * e.span) e.span = false) ∧
          ∀ e ∈ (s1.dieAt die).lines, e.x.lease = tgt → named (e.line * 64) 64 = false) ∧
    (t.cls = 2 → t.dom = 0 → (x % 4096 ≠ 0 ∨ 12 * 2 ^ 48 ≤ x ∨ 2 ^ 36 ≤ y ∨ part = 0) → Writes s (.tlbi2 d a b) d 3) ∧
    (t.cls = 2 → t.dom = 0 → x % 4096 = 0 → x < 12 * 2 ^ 48 → y < 2 ^ 36 → part ≠ 0 → s.levelOf t ≠ 0 →
      Writes s (.tlbi2 d a b) d 1) ∧
    (t.cls = 2 → t.dom = 0 → x % 4096 = 0 → x < 12 * 2 ^ 48 → y < 2 ^ 36 → part ≠ 0 → s.levelOf t = 0 → (s.partAt part).isSome = true →
      let s1 := s.invalidate2 part x (y % 2 ^ 32)
      let us := s1.users fun _ _ e => e.any (s1.gone2 part x (y % 2 ^ 32))
      (us = [] → Completes s (.tlbi2 d a b) (s1.setCur (s1.cur.setX d 0))) ∧
      (us ≠ [] → Blocks s (.tlbi2 d a b) s1 (.drain d us)) ∧
        (∀ h, ∀ p ∈ (s1.homeAt h).walks,
          (p.second = true → p.owner = part → named (p.upper * 2 ^ (39 - 9 * p.level)) (2 ^ (39 - 9 * p.level)) = false) ∧
          (p.second = false → p.owner ≠ 0 → (s.leaseD p.owner).part = part → named (p.place / p.via * p.via) p.via = false)) ∧
        ∀ die, die < 8 → (∀ e ∈ (s1.dieAt die).dtc, e.lease ≠ 0 → (s.leaseD e.lease).part = part → named e.ra e.span = false) ∧
          ∀ e ∈ (s1.dieAt die).lines, e.x.lease ≠ 0 → (s.leaseD e.x.lease).part = part → named e.ra 64 = false) ∧
    (s.levelOf t = 2 → Faults s (.mgmt d a) { cause := causePriv }) ∧
    (∀ p s1 pl s2 blk s3, s.levelOf t ≠ 2 → accessM (t.getX a) 64 true s = .ok p s1 → accessM (t.getX a) 64 false s1 = .ok pl s2 →
      loadM s.core s.slot pl 64 false s2 = .ok blk s3 →
      Blocks s (.mgmt d a) { s3 with gaffer := s3.gaffer ++ [({ level := s3.levelOf t, part := t.part, lease := t.lease, blk := blk, fn := none, who := some (s3.core, s3.slot), asked := some (dieOf s3.core, (s3.dieAt (dieOf s3.core)).inc) } : GafferCmd)] } (.mgmt d p)))

/-! ### Memory as programs see it -/

/-- The checks of an address, in their order, the first that fails deciding the cause (R143, R136, R366), and what passes them: an
offset of the scratchpad; or, with the right in the core's lookaside buffer and the line held on the die with its translation
(R177, R183), the translated address, no state changed. A right that the buffer's entry lacks is PERM (R183). Translation (R170
to R174, R176, R177, R182, R183). A stage-2 walk of an RA reads one entry a level, at the index that R171 gives, on memory with
no poisoned line and nothing in the unit's walk cache: the first that is no pointer answers, V = 0 with XLAT, a malformed one
with TFMT, a leaf of a kind or window that R174 refuses with KIND, all stage-2 faults, another with the output address, the kind
and the ceilings. For lease 0 RA is PA. A stage-1 entry is read where stage 2 puts its RA; a leaf is checked first by its own
stage, then by stage 2, and sets A, and D for a write, at both. A translation that the die holds serves, but for a write that
has D to set; what a walk gives is kept there. A core that holds no right reads the directory and the list of the domain: no
range, no right; malformed, or a read that faults, DRTF. The model's choices here: of entries that overlap or stand in no order
the first that contains the segment serves (R182 says any or none, log entry 12); a ceiling of stage 1 refuses before stage 2 is
walked, with no A or D set (log entry 31); the stage-2 leaf over a table page is marked as by a read (log entry 42); a write
served by a held translation whose stage-1 D is 1 makes no walk, and leaves the D of stage 2 as it is (R178, log entry 69). -/
def Obligations.AddressChecks : Prop :=
  (∀ (s : State) (p : Party) (ea : Word) (n : Nat) (write : Bool), 0 < n →
    let a := ea.toNat
    let off := a - 0x7FFFFFF00000
    let local_ := 0x7FFFFFF00000 ≤ a ∧ a < 2 ^ 47
    let fails := fun (cause : Nat) => checkPlace p ea n write s = .error (.fault { cause := cause, addr := some ea, write := write }) s
    let outside := ∃ b z, p.win = some (b, z) ∧ (off < b ∨ b + z < off + n)
    let entry := (s.coreAt p.core).plb.find? fun e => e.lease == p.lease && e.dom == p.dom && e.seg == a / 2 ^ 21
    let granted := ∃ e, entry = some e ∧ (if write then e.w else e.r) = true
    let line := (s.dieAt (dieOf p.core)).lines.find? fun l => l.x.lease == p.lease && l.line == a / 64
    (a % n ≠ 0 → fails 0x03) ∧ (a % n = 0 → 2 ^ 48 ≤ a → fails 0x04) ∧
    (a % n = 0 → 2 ^ 47 ≤ a → a < 2 ^ 48 → fails 0x06) ∧
    (a % n = 0 → local_ → 0x40000 ≤ off → fails 0x07) ∧
    (a % n = 0 → local_ → off < 0x40000 → outside → fails 0x07) ∧
    (a % n = 0 → local_ → off < 0x40000 → ¬ outside → write = true → 0x3F808 < off + n → fails 0x02) ∧
    (a % n = 0 → local_ → off < 0x40000 → ¬ outside → (write = true → off + n ≤ 0x3F808) → granted →
      checkPlace p ea n write s = .ok (.spad off) s) ∧
    (a % n = 0 → a < 0x7FFFFFC00000 → (∃ e, entry = some e ∧ (if write then e.w else e.r) = false) →
      checkPlace p ea n write s =
        .error (.fault { cause := 0x14, addr := some ea, level := some (levelWord 15 1 write false), write := write }) s) ∧
    (∀ l, a % n = 0 → a < 0x7FFFFFC00000 → granted → line = some l → (write = true → l.x.wc1 = true ∧ l.x.wc2 = true ∧ l.x.dirty = true) →
      checkPlace p ea n write s = .ok (.mem a l.x) s)) ∧
  (∀ (s : State) (lease dva : Nat) (acc : Acc),
    let rd := fun (s : State) (pa : Nat) => leNat (memBytes s.mem pa 8)
    let frame := fun (e : Nat) => e / 2 ^ 12 % 2 ^ 40 * 2 ^ 12
    let pl := fun (e : Nat) => e / 2 ^ 48 % 16
    let mk := fun (e : Nat) => e / 16 % 8
    let size := fun (k : Nat) => 2 ^ (39 - 9 * k)
    let leaf := fun (e : Nat) => e / 2 % 2 = 1
    let bad := fun (k e : Nat) => e / 2 ^ 62 ≠ 0 ∨ e / 2 ^ 9 % 8 ≠ 0 ∨ 12 ≤ pl e ∨ (¬ leaf e ∧ (e / 4 % 2 ^ 7 ≠ 0 ∨ e / 2 ^ 52 % 2 ^ 10 ≠ 0)) ∨
      (leaf e ∧ e / 2 ^ 52 % 2 ^ 10 ≠ 0 ∧ mk e ≠ 2) ∨ (leaf e ∧ k = 0) ∨ (¬ leaf e ∧ k = 3) ∨ (leaf e ∧ k < 3 ∧ frame e % size k ≠ 0)
    let fault := fun (cause k stage : Nat) => Stop.fault { cause := cause, addr := some (BitVec.ofNat 64 dva), level := some (levelWord k stage acc.write acc.fetch), stage2 := stage == 2 }
    let look : Acc := { write := false, fetch := false }
    let calm := fun (s : State) => ∀ h ∈ s.homes, ∀ w ∈ h.2.waits, w.poison = false
    (∀ (unit part ra root : Nat) (tbl ent : Nat → Nat) (k : Nat), s.poison = [] → (s.homeAt unit).walks = [] → tbl 0 = root →
      (∀ j, j < 4 → ent j = rd s (tbl j + 8 * (ra / size j % 512))) → (∀ j, tbl (j + 1) = frame (ent j)) → k < 4 →
      (∀ j, j < k → ent j % 2 = 1 ∧ ¬ bad j (ent j) ∧ ¬ leaf (ent j)) →
      let ends := fun (e : Stop) => ∃ s1 : State, stage2Walk unit part dva ra acc 4 root 0 s = .error e s1 ∧ s1.mem = s.mem
      (ent k % 2 = 0 → ends (fault 0x10 k 2)) ∧ (ent k % 2 = 1 → bad k (ent k) → ends (fault 0x11 k 2)) ∧
      (ent k % 2 = 1 → ¬ bad k (ent k) → leaf (ent k) →
        let ok := (mk (ent k) = 0 ∨ mk (ent k) = 4 ∨ mk (ent k) = 5) ∧ pl (ent k) = ra / 2 ^ 48 ∧ s.leafInWindow (frame (ent k)) (size k) = true
        (¬ ok → ends (fault 0x12 k 2)) ∧
        (ok → ∃ (x : Out2) (s1 : State), stage2Walk unit part dva ra acc 4 root 0 s = .ok x s1 ∧ s1.mem = s.mem ∧ x.pa = frame (ent k) + ra % size k ∧
          x.kind = mk (ent k) ∧ (x.wc = (ent k).testBit 2) ∧ (x.xc = (ent k).testBit 3) ∧ x.level = k ∧
          x.leaf = some (tbl k + 8 * (ra / size k % 512), ent k)))) ∧
    (∀ ra, (lease = 0 → s.inWindow ra = true → ∃ x : Out2, stage2 lease dva ra acc s = .ok x s ∧ x.pa = ra ∧ x.kind = 0 ∧ x.wc = true ∧ x.xc = true ∧ x.leaf = none) ∧
      (∀ p, lease ≠ 0 → s.partAt (s.leaseD lease).part = some p →
        stage2 lease dva ra acc s = stage2Walk (homeOf p.s2root) (s.leaseD lease).part dva ra acc 4 p.s2root 0 s)) ∧
    (∀ (x : Out2) (pe e : Nat) (w : Bool), x.leaf = some (pe, e) → s.Canonical → calm s → rd s pe = e → ∃ s1 : State, x.mark w s = .ok () s1 ∧
      rd s1 pe = e ||| 128 ||| (if w then 256 else 0)) ∧
    (let root := (s.leaseD lease).s1root
      ∀ (t : Out2) (s1 : State), stage2 lease dva (root + 8 * (dva / 2 ^ 39 % 512)) look s = .ok t s1 →
        walkTables lease dva acc s = stage1Walk (homeOf t.pa) lease dva acc 4 root 0 s1) ∧
    (∀ (unit n tbl k : Nat), k < 4 → 
      let re := tbl + 8 * (dva / size k % 512)
      let run := stage1Walk unit lease dva acc (n + 1) tbl k s
      s.heldPointer unit false lease k dva re = none →
      (∀ f s1, stage2 lease dva re look s = .error f s1 → run = .error f s1) ∧
      (∀ (t : Out2) (s1 s2 : State), stage2 lease dva re look s = .ok t s1 → t.mark false s1 = .ok () s2 → s2.linePoisoned t.pa = false →
        let e := rd s2 t.pa
        let s3 := s2.homeTouch t.pa false
        (e % 2 = 0 → run = .error (fault 0x10 k 1) s3) ∧ (e % 2 = 1 → bad k e → run = .error (fault 0x11 k 1) s3) ∧
        (e % 2 = 1 → ¬ bad k e → ¬ leaf e → ∃ s4 : State, s4.mem = s2.mem ∧ run = stage1Walk unit lease dva acc n (frame e) (k + 1) s4) ∧
        (e % 2 = 1 → ¬ bad k e → leaf e →
          let refused := fun (w x : Bool) => (acc.write = true ∧ w = false) ∨ (acc.fetch = true ∧ x = false)
          let kinds := ¬ (6 ≤ mk e ∨ (mk e = 2 ∧ 8 < pl e) ∨ (mk e = 3 ∧ pl e ≠ 10))
          (¬ kinds → run = .error (fault 0x12 k 1) s3) ∧
          (kinds → refused (e.testBit 2) (e.testBit 3) → run = .error (fault 0x13 k 1) s3) ∧
          (kinds → ¬ refused (e.testBit 2) (e.testBit 3) →
            (∀ f s4, stage2 lease dva (frame e + dva % size k) acc s3 = .error f s4 → run = .error f s4) ∧
            (∀ (x : Out2) (s4 : State), stage2 lease dva (frame e + dva % size k) acc s3 = .ok x s4 →
              let apart := (x.kind = 4 ∧ mk e = 3) ∨ (x.kind = 5 ∧ mk e ≠ 5)
              (apart → run = .error (fault 0x12 x.level 2) s4) ∧
              (¬ apart → refused x.wc x.xc → run = .error (fault 0x13 x.level 2) s4) ∧
              (¬ apart → ¬ refused x.wc x.xc → ∃ (y : Xlat) (s5 s6 : State), x.mark acc.write s4 = .ok () s5 ∧ run = .ok y s6 ∧
                y.lease = lease ∧ y.covers lease dva = true ∧ y.paOf dva = x.pa ∧ (y.kind = if mk e = 0 ∧ x.kind = 4 then 4 else mk e) ∧
                y.wc1 = e.testBit 2 ∧ y.xc1 = e.testBit 3 ∧ y.lv1 = k ∧ y.wc2 = x.wc ∧ y.xc2 = x.xc ∧ y.lv2 = x.level ∧
                (y.dirty = true ↔ acc.write = true ∨ e.testBit 8 = true) ∧
                (s5.Canonical → calm s5 → rd s5 t.pa = e → rd s6 t.pa = e ||| 128 ||| (if acc.write then 256 else 0)))))))) ∧
    (∀ die, let held := (s.dieAt die).dtc.find? fun x => x.covers lease dva
      (∀ x, held = some x → (acc.write = true → x.dirty = true) → acc.refused x.wc1 x.xc1 = false → acc.refused x.wc2 x.xc2 = false →
        translate die lease dva acc s = .ok x s) ∧
      (∀ x, held = some x → ¬ (acc.write = true ∧ acc.fetch = true) → acc.refused x.wc1 x.xc1 = true → translate die lease dva acc s = .error (fault 0x13 x.lv1 1) s) ∧
      (∀ x, held = some x → ¬ (acc.write = true ∧ acc.fetch = true) → acc.refused x.wc1 x.xc1 = false → acc.refused x.wc2 x.xc2 = true → translate die lease dva acc s = .error (fault 0x13 x.lv2 2) s) ∧
      ((held = none ∨ ∃ x, held = some x ∧ acc.write = true ∧ x.dirty = false ∧ x.wc1 = true ∧ x.wc2 = true) →
        (∀ f s1, walkTables lease dva acc s = .error f s1 → translate die lease dva acc s = .error f s1) ∧
        (∀ y s1, walkTables lease dva acc s = .ok y s1 → ∃ s2 : State, translate die lease dva acc s = .ok y s2 ∧ y ∈ (s2.dieAt die).dtc ∧ s2.mem = s1.mem))) ∧
    (∀ (c dom : Nat), (s.coreAt c).plb.find? (fun p => p.lease == lease && p.dom == dom && p.seg == dva / 2 ^ 21) = none →
      let seg := dva / 2 ^ 21
      let run := plbRights c lease dom dva acc s
      let read := fun (off : Nat) (s : State) => readRights (dieOf c) lease off s
      let fails := ∃ s1 : State, run = .error (.fault { cause := 0x15, addr := some (BitVec.ofNat 64 dva), level := some (levelWord 15 1 acc.write acc.fetch) }) s1
      let gives := fun (r w x g : Bool) => ∃ (s1 : State) (p : PlbEntry), run = .ok p s1 ∧
        p = { lease := lease, dom := dom, seg := seg, r := r, w := w, x := x, g := g } ∧ p ∈ (s1.coreAt c).plb
      (∀ off x s1, translate (dieOf c) lease (0x7FFFFFC00000 + off) look s = .ok x s1 → s1.linePoisoned (x.paOf (0x7FFFFFC00000 + off)) = false →
        ∃ s2 : State, read off s = .ok (rd s1 (x.paOf (0x7FFFFFC00000 + off))) s2 ∧ s2.mem = s1.mem) ∧
      (∀ f s1, read (8 * dom) s = .error (.fault f) s1 → fails) ∧
      (∀ d s1, read (8 * dom) s = .ok d s1 →
        let count := d / 2 ^ 32 % 2 ^ 16
        let off := d % 2 ^ 32
        let found := searchRights (dieOf c) lease seg count off s1
        let good := d / 2 ^ 48 % 2 ^ 16 = 0 ∧ count ≠ 0 ∧ off % 8 = 0 ∧ off + 8 * count ≤ 0x100000
        (d / 2 ^ 48 % 2 ^ 16 ≠ 0 → fails) ∧ (count ≠ 0 → (off % 8 ≠ 0 ∨ 0x100000 < off + 8 * count) → fails) ∧
        (d / 2 ^ 48 % 2 ^ 16 = 0 → count = 0 → gives false false false false) ∧
        (good → ∀ f s2, found = .error (.fault f) s2 → fails) ∧
        (good → ∀ e s2, found = .ok e s2 → 2 ^ 64 ≤ e → fails) ∧
        (good → ∀ e s2, found = .ok e s2 → e < 2 ^ 64 → gives (e.testBit 52) (e.testBit 53) (e.testBit 54) (e.testBit 55))) ∧
      (∀ off, searchRights (dieOf c) lease seg 0 off s = .ok 0 s) ∧
      (∀ n off e s1, read off s = .ok e s1 →
        ((e % 2 ^ 26 ≤ seg ∧ seg ≤ e / 2 ^ 26 % 2 ^ 26) →
          searchRights (dieOf c) lease seg (n + 1) off s = .ok (if e / 2 ^ 56 % 2 ^ 8 ≠ 0 then 2 ^ 64 else e) s1) ∧
        (¬ (e % 2 ^ 26 ≤ seg ∧ seg ≤ e / 2 ^ 26 % 2 ^ 26) →
          searchRights (dieOf c) lease seg (n + 1) off s = searchRights (dieOf c) lease seg n (off + 8) s1))) ∧
    (∀ c dom, dva / 2 ^ 21 = 0x7FFFFFC00000 / 2 ^ 21 → acc.fetch = false →
      (dom = 0 → checkRights c lease dom dva acc s = .ok () s) ∧
      (dom ≠ 0 → acc.write = true → checkRights c lease dom dva acc s =
        .error (.fault { cause := 0x14, addr := some (BitVec.ofNat 64 dva), level := some (levelWord 15 1 true false) }) s)))

/-- The loads (R144): after the checks of R143 and the LOAD of the bytes, x[rd] holds them little-endian, sign- or zero-extended by
the form, and nothing else is changed by the form; a failed check is the fault it names, with no register written (R146). The
stores (R145): after the checks of R143 the low n bytes of x[rs2] go to the scratchpad at once, or enter the core's store buffer
for their address (on an SC or DEVICE page they are performed at once, R290); with room in the buffer no byte of memory changes
until they drain. A failed check is the fault it names, and stores nothing (R146). -/
def Obligations.LoadAndStoreForms : Prop :=
  (∀ (s : State) (d a : BitVec 5) (imm : BitVec 12), s.Plain →
    let ea := s.cur.getX a + imm.signExtend 64
    ∀ e ∈ [(Instr.lb d a imm, 1, fun v => (BitVec.ofNat 8 v).signExtend 64), (.lh d a imm, 2, fun v => (BitVec.ofNat 16 v).signExtend 64),
        (.lw d a imm, 4, fun v => (BitVec.ofNat 32 v).signExtend 64), (.ld d a imm, 8, fun v => BitVec.ofNat 64 v),
        (.lbu d a imm, 1, fun v => (BitVec.ofNat 8 v).zeroExtend 64), (.lhu d a imm, 2, fun v => (BitVec.ofNat 16 v).zeroExtend 64),
        (.lwu d a imm, 4, fun v => (BitVec.ofNat 32 v).zeroExtend 64)],
      (∀ pl s1 bs s2, accessM ea e.2.1 false s = .ok pl s1 → loadM s1.core s1.slot pl e.2.1 false s1 = .ok bs s2 →
        bs.length = e.2.1 ∧ Completes s e.1 (s2.setCur (s2.cur.setX d (e.2.2 (leNat bs))))) ∧
      (∀ f s1, accessM ea e.2.1 false s = .error (.fault f) s1 → Runs e.1 s (s1.takeFault s.core s.slot f 0 .fault))) ∧
  (∀ (s : State) (a b : BitVec 5) (imm : BitVec 12), s.Plain →
    let ea := s.cur.getX a + imm.signExtend 64
    ∀ e ∈ [(Instr.sb a b imm, 1), (.sh a b imm, 2), (.sw a b imm, 4), (.sd a b imm, 8)],
      let bytes := leBytes e.2 (s.cur.getX b).toNat
      (∀ off s1, accessM ea e.2 true s = .ok (.spad off) s1 →
        let l := s1.lcoreAt (s1.slotAt s1.core s1.slot).lease s1.core
        Completes s e.1 (s1.setLCore (s1.slotAt s1.core s1.slot).lease s1.core (l.writeSpad off bytes))) ∧
      (∀ dva x s1, accessM ea e.2 true s = .ok (.mem dva x) s1 →
        let s2 := s1.postEntry s1.core (s1.entryOf s1.core s1.slot dva x (.store bytes))
        Completes s e.1 s2 ∧
        (x.kind ≠ 1 → x.kind ≠ 5 → (s1.coreAt s1.core).sb.length < 16 → s2.mem = s1.mem ∧
          (s2.coreAt s1.core).sb = (s1.coreAt s1.core).sb ++ [s1.entryOf s1.core s1.slot dva x (.store bytes)])) ∧
      (∀ f s1, accessM ea e.2 true s = .error (.fault f) s1 → Runs e.1 s (s1.takeFault s.core s.slot f 0 .fault)))

/-- What a store leaves: a byte stored to the scratchpad reads back, bit 63 of the scratch map excepted, and no other byte of it
changes (R47, R48, R136); a store in the buffer is forwarded to its own slot byte by byte, the youngest first, and to no other
slot (R284); draining a slot leaves no entry of it (R284, R288). A write at a home reads back, and leaves every other byte of
memory alone (R282): reading a byte written gives the byte written, an address outside the range reads as before, and the
canonical form is kept. -/
def Obligations.StoredAndHomeBytes : Prop :=
  ((∀ (l : LCore) (off o : Nat) (bs : List Byte),
    (l.writeSpad off bs).spadByte o =
      if off ≤ o ∧ o < off + bs.length then
        (if o = 0x3F807 then bs.getD (o - off) 0 ||| 0x80#8 else bs.getD (o - off) 0) else l.spadByte o) ∧
  (∀ (sb : List SbEntry) (e : SbEntry) (bs : List Byte) (k lease a : Nat), e.op = .store bs →
    forwardByte (sb ++ [e]) k lease a =
      if e.slot = k ∧ e.lease = lease ∧ e.dva ≤ a ∧ a < e.dva + bs.length then bs[a - e.dva]? else forwardByte sb k lease a) ∧
  (∀ (s : State) (c k : Nat), ∀ e ∈ ((s.drainSlot c k).coreAt c).sb, e.slot ≠ k)) ∧
  (∀ (s : State) (pa : Nat) (bytes : List Byte), s.Canonical →
    (s.homeWrite pa bytes).Canonical ∧ (s.homeWrite pa bytes).homeRead pa bytes.length = bytes ∧
    (∀ a, a < pa ∨ pa + bytes.length ≤ a → (s.homeWrite pa bytes).byteAt a = s.byteAt a) ∧
    (∀ l, l ∈ (s.homeWrite pa bytes).poison ↔ l ∈ s.poison ∧ ¬ (pa ≤ 64 * l ∧ 64 * l + 64 ≤ pa + bytes.length)))

/-- LDA and STL (R297, R356): at row and die scope, or in the scratchpad, a load or store of the die; else a home access after the
slot's DRAIN moves and the flush of the die's copy (R287), counted on the kinds that live at home alone, and for STL on a
PERSIST page (R141, R352; log entry 54). LDA acquires after it, STL releases before it; STL at dur scope advances the persist
epoch. FENCE, TFENCE, PBAR and PBARW (R181, R288, R298, R356): after the slot's vector memory commands and DRAIN moves, FENCE
writes back from pkg scope up, waits for acceptance at dur scope and for the fabric from sys scope up, then evicts; TFENCE
writes back and discards nothing; PBARW waits for the slot's copies and records; PBAR waits for nothing. -/
def Obligations.ScopesAndFences : Prop :=
  (∀ (s : State) (z : BitVec 2) (sc : BitVec 3) (d a b : BitVec 5), s.Plain →
    let n := 2 ^ z.toNat
    let ea := s.cur.getX a
    let bytes := leBytes n (s.cur.getX b).toNat
    let acquired := fun (s : State) => if 2 ≤ sc.toNat then s.evictAll (dieOf s.core) else s
    let loaded := fun (s2 : State) (bs : List Byte) => let s3 := acquired s2; s3.setCur (s3.cur.setX d (BitVec.ofNat 64 (leNat bs)))
    let homed := fun (s1 : State) (dva : Nat) (x : Xlat) (count : Bool) => let s2 := s1.drainSlot s1.core s1.slot
      let s3 := s2.flushLine (dieOf s2.core) x.lease (dva / 64)
      if count then s3.countHome s3.core (some s3.slot) (x.paOf dva) else s3
    let epoch := fun (s : State) => if sc = 4#3 then s.setCur s.cur.epochUp else s
    (∀ pl s1 bs s2, accessM ea n false s = .ok pl s1 → (sc.toNat ≤ 1 ∨ ∃ off, pl = .spad off) →
      loadM s1.core s1.slot pl n false s1 = .ok bs s2 → Completes s (.lda z sc d a) (loaded s2 bs)) ∧
    (∀ dva x s1, accessM ea n false s = .ok (.mem dva x) s1 → 2 ≤ sc.toNat →
      let s2 := (homed s1 dva x (!(x.kind == 0 || x.kind == 3))).touchHome x (x.paOf dva) n
      s2.rangePoisoned (x.paOf dva) n = false → Completes s (.lda z sc d a) (loaded s2 (s2.homeRead (x.paOf dva) n))) ∧
    (∀ dva x s1 s3, accessM ea n true s = .ok (.mem dva x) s1 → releaseM sc.toNat (s1.drainSlot s1.core s1.slot) = .ok () s3 →
      sc.toNat ≤ 1 → Completes s (.stl z sc a b) (s3.postEntry s3.core (s3.entryOf s3.core s3.slot dva x (.store bytes)))) ∧
    (∀ dva x s1 s3, accessM ea n true s = .ok (.mem dva x) s1 → releaseM sc.toNat (s1.drainSlot s1.core s1.slot) = .ok () s3 →
      2 ≤ sc.toNat → x.kind ≠ 3 → Completes s (.stl z sc a b) (epoch ((homed s3 dva x (x.kind != 0)).storeHome x (x.paOf dva) bytes))) ∧
    (∀ dva x s1 s3, accessM ea n true s = .ok (.mem dva x) s1 → releaseM sc.toNat (s1.drainSlot s1.core s1.slot) = .ok () s3 →
      2 ≤ sc.toNat → x.kind = 3 → let s4 := (homed s3 dva x true).storeHome x (x.paOf dva) bytes
      Completes s (.stl z sc a b) (epoch (s4.record s4.core s4.slot s4.cur.gen s4.cur.epoch (x.paOf dva) bytes))) ∧
    (∀ off s1 s3, accessM ea n true s = .ok (.spad off) s1 → releaseM sc.toNat (s1.drainSlot s1.core s1.slot) = .ok () s3 →
      let l := s3.lcoreAt (s3.slotAt s3.core s3.slot).lease s3.core
      Completes s (.stl z sc a b)
        (epoch (s3.setLCore (s3.slotAt s3.core s3.slot).lease s3.core (l.writeSpad off bytes))))) ∧
  (∀ (s : State) (sc : BitVec 3), s.Plain →
    let s1 := (s.finishVecMem s.core s.slot).orderHomes s.core s.slot
    let s2 := s1.drainSlot s1.core s1.slot
    let wb := if 2 ≤ sc.toNat then s2.writebackAll (dieOf s2.core) else s2
    let ev := if 2 ≤ sc.toNat then wb.evictAll (dieOf wb.core) else wb
    let again := fun (u : State) => u.setCore s.core { u.coreAt s.core with stalled := true }
    (sc = 4#3 → s2.recordsPending s2.core s2.slot = true → Runs (.fence sc) s (again s2)) ∧
    (¬ (sc = 4#3 ∧ s2.recordsPending s2.core s2.slot = true) → 3 ≤ sc.toNat → wb.fabricPending s2.core s2.slot = true →
      Runs (.fence sc) s (again wb)) ∧
    (¬ (sc = 4#3 ∧ s2.recordsPending s2.core s2.slot = true) → ¬ (3 ≤ sc.toNat ∧ wb.fabricPending s2.core s2.slot = true) →
      Completes s (.fence sc) (if sc = 4#3 then ev.setCur ev.cur.epochUp else ev)) ∧
    Completes s .tfence (s2.writebackAll (dieOf s2.core)) ∧
    Slots s .pbar Slot.epochUp ∧
    ((s2.copiesPending s2.core s2.slot || s2.recordsPending s2.core s2.slot) = true → Runs .pbarw s (again s2)) ∧
    ((s2.copiesPending s2.core s2.slot || s2.recordsPending s2.core s2.slot) = false →
      Completes s .pbarw (s2.setCur s2.cur.epochUp)))

/-- The atomics (R313, R314) and the reductions (R315, R316): an AMO reads its sources at issue, drains its slot, performs its
operation in one step at its place and answers the old value, sign-extended but for FADD; a RED posts the operation and answers
nothing. The operations are written out by `AtomicOperations`. The atomic operations on values of n bytes (R314), and one at a
home: it answers what its bytes held once the die's copy is written back, writes the new value there where the operation writes,
and leaves every other byte as the write-back left it (R287, R303, R314; the flush before a RED is log entry 32). -/
def Obligations.Atomics : Prop :=
  (∀ (s : State) (z : BitVec 1) (sc : BitVec 2) (d a b : BitVec 5), s.Plain →
    let ea := s.cur.getX a
    let size := if z = 1#1 then 8 else 4
    (∀ e ∈ [(Instr.amoadd z sc d a b, 0), (.amoswap z sc d a b, 1), (.amocas z sc d a b, 2), (.amoand z sc d a b, 3),
        (.amoor z sc d a b, 4), (.amoxor z sc d a b, 5), (.amomin z sc d a b, 6), (.amomax z sc d a b, 7), (.amominu z sc d a b, 8),
        (.amomaxu z sc d a b, 9), (.amofadd sc d a b, 10)],
      let n := if e.2 = 10 then 4 else size
      let bv := (s.cur.getX b).toNat % 2 ^ (8 * n)
      let ev := (s.cur.getX d).toNat % 2 ^ (8 * n)
      let ext := fun (v : Nat) => if e.2 = 10 then BitVec.ofNat 64 v else signedWord n v
      (∀ dva x s1 old s3, accessM ea n true s = .ok (.mem dva x) s1 → checkAtomic ea (.mem dva x) e.2 sc.toNat s1 = .ok () s1 →
        let s2 := s1.drainSlot s1.core s1.slot
        atomicAt s2.core (s2.entryOf s2.core s2.slot dva x (.store [])) e.2 n sc.toNat bv ev true s2 = .ok old s3 →
        Completes s e.1 (s3.setCur (s3.cur.setX d (ext old)))) ∧
      (∀ off s1, accessM ea n true s = .ok (.spad off) s1 →
        let s2 := s1.drainSlot s1.core s1.slot
        let l := s2.lcoreAt s.cur.lease s2.core
        let r := atomicOp e.2 n (l.readSpad off n) bv ev
        l.spadPoisoned off n = false → s2.cur.lease = s.cur.lease →
        let s3 := if r.2 then s2.setLCore s.cur.lease s2.core (l.writeSpad off (leBytes n r.1)) else s2
        Completes s e.1 (s3.setCur (s3.cur.setX d (ext (l.readSpad off n)))))) ∧
    (∀ e ∈ [(Instr.redadd z sc a b, 0), (.redfadd sc a b, 1), (.redmax z sc a b, 2), (.redmin z sc a b, 3)],
      let n := if e.2 = 1 then 4 else size
      (∀ dva x s1, accessM ea n true s = .ok (.mem dva x) s1 → checkAtomic ea (.mem dva x) (redOp e.2) sc.toNat s1 = .ok () s1 →
        Completes s e.1 (s1.postEntry s1.core (s1.entryOf s1.core s1.slot dva x (.red e.2 n sc.toNat (s.cur.getX b))))) ∧
      (∀ off s1, accessM ea n true s = .ok (.spad off) s1 →
        let l := s1.lcoreAt (s1.slotAt s1.core s1.slot).lease s1.core
        let r := atomicOp (redOp e.2) n (l.readSpad off n) ((s.cur.getX b).toNat % 2 ^ (8 * n)) 0
        Completes s e.1 (s1.setLCore (s1.slotAt s1.core s1.slot).lease s1.core (l.writeSpad off (leBytes n r.1)))))) ∧
  ((∀ (n : Nat) (x y e : BitVec (8 * n)),
    let op := fun (k : Nat) => atomicOp k n x.toNat y.toNat e.toNat
    op 0 = ((x + y).toNat, true) ∧ op 1 = (y.toNat, true) ∧ op 2 = (if x = e then (y.toNat, true) else (x.toNat, false)) ∧
    op 3 = ((x &&& y).toNat, true) ∧ op 4 = ((x ||| y).toNat, true) ∧ op 5 = ((x ^^^ y).toNat, true) ∧
    op 6 = (if y.toInt < x.toInt then y.toNat else x.toNat, true) ∧ op 7 = (if x.toInt < y.toInt then y.toNat else x.toNat, true) ∧
    op 8 = (if y.toNat < x.toNat then y.toNat else x.toNat, true) ∧ op 9 = (if x.toNat < y.toNat then y.toNat else x.toNat, true)) ∧
  (∀ (x y : Lane), atomicOp 10 4 x.toNat y.toNat 0 = ((fpAdd 0 x y).1.toNat, true)) ∧
  (∀ (s : State) (c op n scope b e : Nat) (en : SbEntry), s.Canonical → en.x.dieAtomic scope = false → en.x.kind ≠ 3 →
    let pa := en.x.paOf en.dva
    let s' := ((s.countHome c (s.entrySlot c en) pa).flushLine (dieOf c) en.x.lease (en.dva / 64)).touchRange pa n false
    s'.rangePoisoned pa n = false →
    let old := leNat (s'.homeRead pa n)
    let r := atomicOp op n old b e
    ∃ t, atomicAt c en op n scope b e true s = .ok old t ∧
      (r.2 = true → t.homeRead pa n = leBytes n r.1) ∧
      (∀ q, q < pa ∨ pa + n ≤ q → t.byteAt q = s'.byteAt q) ∧ (r.2 = false → t.mem = s'.mem)))

/-- The full/empty forms (R148, R149, R150): LDF, its checks passed, sends its request to the home and its slot is BLOCKED (a FULL word's too, by
the model's choice, log entry 66) until the home answers (`SlotEvents`, `HomeRequests`); STF releases at pkg scope and posts its write; SETE of no words does nothing, of more than
512 words or across a page is ALIGN, both decided before its first word's address is checked (log entry 36), else it posts its request. Each request
counts as one served by a home (R141). -/
def Obligations.FullEmptyForms : Prop :=
  ∀ (s : State) (d a b : BitVec 5), s.Plain →
    let ea := s.cur.getX a
    let n := (s.cur.getX b).toNat
    let who := fun (s : State) (d : BitVec 5) =>
      ({ core := s.core, slot := s.slot, gen := s.cur.gen, lease := s.cur.lease, inc := (s.dieAt (dieOf s.core)).inc, d := d,
         unwound := s.cur.unwound } : Asker)
    let asked := fun (s1 : State) (pa : Nat) => let s2 := s1.drainSlot s1.core s1.slot; s2.countHome s2.core (some s2.slot) pa
    (∀ e ∈ [(Instr.ldfW d a, 4), (.ldfD d a, 8)], ∀ dva x s1, feWord ea e.2 false s = .ok (dva, x) s1 →
      let s2 := asked s1 (x.paOf dva)
      Blocks s e.1 (s2.enqueueReq (homeOf (x.paOf dva)) (.ldf (who s2 d) (x.paOf dva) dva e.2 s.cur.tag s.cur.wid)) (.ldf d dva e.2 x)) ∧
    (∀ e ∈ [(Instr.stfW a b, 4), (.stfD a b, 8)], ∀ dva x s1, feWord ea e.2 true s = .ok (dva, x) s1 →
      let s2 := s1.drainSlot s1.core s1.slot
      let s3 := asked (s2.writebackAll (dieOf s2.core)) (x.paOf dva)
      Completes s e.1 (s3.enqueueReq (homeOf (x.paOf dva)) (.stf (who s3 0#5) (x.paOf dva) dva e.2 (s.cur.getX b)))) ∧
    (n = 0 → Slots s (.sete a b) id) ∧
    (n ≠ 0 → (512 < n ∨ 4096 < ea.toNat % 4096 + 8 * n) → Faults s (.sete a b) { cause := 0x03, addr := some ea, write := true }) ∧
    (∀ dva x s1, n ≠ 0 → n ≤ 512 → ea.toNat % 4096 + 8 * n ≤ 4096 → feWord ea 8 true s = .ok (dva, x) s1 →
      let s2 := asked s1 (x.paOf dva)
      Completes s (.sete a b) (s2.enqueueReq (homeOf (x.paOf dva)) (.sete (who s2 0#5) (x.paOf dva) dva n)))

/-- LDE and DRAIN (R344, R347): the faults of the tolerance, the page kind and a lossy region; a read within tolerance, after the
drains it forces, acquires at pkg scope and writes the zero-extended word with `ss.DB`; DRAIN answers how many of the die's
deltas it drained and leaves none of them. Drift shares and drains of a die (R340 to R342, R345): a hub with a RED to withhold
asks for a share; a grant is a quarter of L, or U where less is left, U is then L less the shares, rounded down, and GRANTS
counts it; with nothing left there is no grant; a delta entry goes home; a forced drain, while an LDE or DRIFTLIM is in
progress, takes the die's entries home and its share back. -/
def Obligations.Drift : Prop :=
  (∀ (s : State) (d a b : BitVec 5), s.Plain →
    let ea := s.cur.getX a
    let tol : Lane := (s.cur.getX b).setWidth 32
    let sel := (s.cur.getX a).toNat
    let tu : Option Int := if fpIsInf tol then none else some (fpUnits tol)
    ((fpIsNaN tol = true ∨ (fpSign tol = true ∧ fpIsZero tol = false)) → Faults s (.lde d a b) { cause := 0x09 }) ∧
    (∀ pl s1, ¬ (fpIsNaN tol = true ∨ (fpSign tol = true ∧ fpIsZero tol = false)) → accessM ea 4 false s = .ok pl s1 →
      (match pl with | .spad _ => True | .mem _ x => x.kind ≠ 2) →
      Runs (.lde d a b) s (s1.takeFault s.core s.slot { cause := 0x0E, addr := some ea } 0 .fault)) ∧
    (∀ dva x s1, ¬ (fpIsNaN tol = true ∨ (fpSign tol = true ∧ fpIsZero tol = false)) → accessM ea 4 false s = .ok (.mem dva x) s1 →
      x.kind = 2 →
      let s2 := s1.drainSlot s1.core s1.slot
      let r := s2.regionAt s.cur.lease x.region
      (∀ v, tu = some v → ¬ v < fpUnits r.loss) →
      let f := s2.forceWithin s.cur.lease x.region tu 9 false
      let s3 := (f.1.countHome f.1.core (some f.1.slot) (x.paOf dva)).touchRange (x.paOf dva) 4 false
      s3.rangePoisoned (x.paOf dva) 4 = false →
      let s4 := s3.evictAll (dieOf s3.core)
      Completes s (.lde d a b)
        (s4.setCur (({ s4.cur with ss := setBit s4.cur.ss 16 f.2 } : Slot).setX d (BitVec.ofNat 64 (leNat (s3.homeRead (x.paOf dva) 4)))))) ∧
    (∀ dva x s1 v, ¬ (fpIsNaN tol = true ∨ (fpSign tol = true ∧ fpIsZero tol = false)) → accessM ea 4 false s = .ok (.mem dva x) s1 →
      x.kind = 2 → tu = some v →
      let s2 := s1.drainSlot s1.core s1.slot
      v < fpUnits (s2.regionAt s.cur.lease x.region).loss →
      Runs (.lde d a b) s ((s2.setCur { s2.cur with ss := setBit s2.cur.ss 17 true }).takeFault s.core s.slot { cause := 0x0F, addr := some ea } 0 .fault)) ∧
    (2048 ≤ sel → Faults s (.drain d a) { cause := 0x09 }) ∧
    (sel < 2048 →
      let s1 := (s.finishVecMem s.core s.slot).orderHomes s.core s.slot
      let s2 := s1.drainSlot s1.core s1.slot
      let mine := fun (e : Delta) => e.lease == s.cur.lease && (sel.testBit 10 || e.region == sel % 1024)
      ∃ s3 : State, Completes s (.drain d a) (s3.setCur (s3.cur.setX d (BitVec.ofNat 64 ((s2.dieAt (dieOf s2.core)).deltas.countP mine)))) ∧
        ∀ e ∈ (s3.dieAt (dieOf s2.core)).deltas, mine e = false)) ∧
  (∀ (s : State) (l : Lease) (d : Delta), s.Canonical →
    let die := s.ev.a
    let lease := s.ev.b
    let r := s.ev.c
    let v := s.dieAt die
    let g := s.regionAt lease r
    let quarter := (fpMul 1 g.l 0x3E800000#32).1
    (die < 8 → v.tracker lease r = none → v.trackers.length < 256 → s.leaseAt lease = some l → g.pend = false → s.redAsks die lease r = true →
      (∀ share, ((share = quarter ∧ fpUnits quarter ≤ fpUnits g.u) ∨ (share = g.u ∧ fpUnits g.u < fpUnits quarter)) → 0 < fpUnits share →
        ∃ u : State, Runs .driftGrant s u ∧ (u.regionAt lease r).shareOf die = share ∧
        (u.regionAt lease r).share = tabPut g.share die share ∧ (u.regionAt lease r).l = g.l ∧
        (u.regionAt lease r).u = fpOfUnits 1 (fpUnits g.l - (u.regionAt lease r).shares) ∧
        (u.regionAt lease r).grants = (if g.grants < 2 ^ 32 - 1 then g.grants + 1 else g.grants) ∧
        (u.dieAt die).trackers = v.trackers ++ [{ lease := lease, region := r, mag := 0, share := share }] ∧ u.mem = s.mem) ∧
      (fpUnits g.u ≤ 0 → fpUnits g.u < fpUnits quarter → Runs .driftGrant s s)) ∧
    (die < 8 → ((v.tracker lease r).isSome = true ∨ s.redAsks die lease r = false) → Runs .driftGrant s s) ∧
    (die < 8 → v.deltas[s.ev.b]? = some d → ∃ u : State, Runs .ddrain s u ∧ (u.dieAt die).deltas = listDrop v.deltas s.ev.b ∧
      leNat (u.homeRead d.pa 4) = (fpAdd 0 (BitVec.ofNat 32 (leNat (s.homeRead d.pa 4))) d.val).1.toNat ∧
      (u.dieAt die).trackers = v.trackers ∧ ∀ a, a < d.pa ∨ d.pa + 4 ≤ a → u.byteAt a = s.byteAt a) ∧
    (die < 8 → v.deltas[s.ev.b]? = none → Runs .ddrain s s) ∧
    (die < 8 → s.leaseAt lease = some l → g.pend = true → (v.tracker lease r).isSome = true → ∃ u : State, Runs .forcedDrain s u ∧
      (u.dieAt die).tracker lease r = none ∧ (∀ e ∈ (u.dieAt die).deltas, ¬ (e.lease = lease ∧ e.region = r)) ∧
      tabFind (u.regionAt lease r).share die = none ∧ (g.forced < 2 ^ 32 - 1 → (u.regionAt lease r).forced = g.forced + 1)) ∧
    (die < 8 → (g.pend = false ∨ v.tracker lease r = none) → Runs .forcedDrain s s))

/-! ### Format targets and the vector engine -/

/-- The format prefix (R23, R34, R110 to R112): FMT sets it pending and moves on, and is illegal as the last word of an active
body; before a form that takes none it is illegal and goes with it (YIELD, of which R112 says otherwise, is in YieldEndAndQueues; log
entry 65); the forms that take one accept the fields of R34's table and no others. Behind a prefix they accept, VCVT, VQNT, VDQNT and VBEXP
complete with their command queued under that prefix and the rounding it selects, VREDX reduces by the operation and at the scope that it
names (R231), and LDS.G and MMA.G bring it to their gang's barrier, BI4's ranges being the larger (R247, R249). -/
def Obligations.FormatPrefix : Prop :=
  ∀ (s : State) (d a b : BitVec 5) (p q : BitVec 3) (h : BitVec 1) (w : BitVec 12),
    let t := s.cur
    let k := s.coreAt s.core
    let x := t.getX a
    let y := t.getX b
    let rm := if w.extractLsb' 4 3 = 4#3 then (t.ff.extractLsb' 5 3).toNat else (w.extractLsb' 4 3).toNat
    let bi4 := w.extractLsb' 0 4 = 3#4
    let accepts := fun (e : List (BitVec 4) × BitVec 3 × BitVec 2 × BitVec 2) =>
      w.extractLsb' 0 4 ∈ e.1 ∧ w.extractLsb' 4 3 ≤ e.2.1 ∧ w.extractLsb' 7 2 ≤ e.2.2.1 ∧ w.extractLsb' 9 2 ≤ e.2.2.2
    let allowed := ∀ f ∈ t.frames.head?, f.vec = true
    let cmd := fun (i : Instr) (x : Word) (rm : Nat) =>
      ({ instr := i, slot := s.slot, gen := t.gen, a := x, b := 0, rm := rm, pfx := some w, bexp := t.bexp, epoch := t.epoch,
         places := [] } : VecCmd)
    let queued := fun (i : Instr) (x : Word) (rm : Nat) => s.setCore s.core { k with vecq := k.vecq ++ [cmd i x rm] }
    (s.Plain →
      let last := (s.cur.loopOn 0 && s.cur.leN 0 == s.cur.pc) || (s.cur.loopOn 1 && s.cur.leN 1 == s.cur.pc)
      (last = true → Illegal s (.fmt w)) ∧
      (last = false → Runs (.fmt w) s (s.setCur { s.cur.setPfx (some w) with pc := s.cur.pc + 4 }) ∧
        (s.cur.setPfx (some w)).pfx = some w ∧ (∀ l, l < 2 → (s.cur.setPfx (some w)).loopOn l = s.cur.loopOn l))) ∧
    (t.pfx = some w →
      (∀ i : Instr, i.wellFormed = true → encode i ≠ 0#32 → takesPrefix i = false → Illegal s i) ∧
      (∀ e ∈ [(Instr.vcvtFI p d a, [0#4], 4#3, 0#2, 0#2), (.vcvtIF p d a, [0#4], 4#3, 0#2, 0#2), (.vcvtFH p d a h, [1#4], 4#3, 0#2, 0#2),
        (.vcvtHF p d a h, [1#4], 0#3, 0#2, 0#2), (.vqnt p d a b, [2#4, 3#4], 4#3, 2#2, 0#2), (.vdqnt p d a b, [2#4, 3#4], 4#3, 2#2, 0#2),
        (.vbexp p d a, [2#4, 3#4], 0#3, 0#2, 0#2), (.vredx p d a b, [0#4, 4#4], 0#3, 0#2, 3#2), (.ldsG a, [2#4, 3#4], 0#3, 0#2, 0#2),
        (.mmaG q a b, [2#4, 3#4], 0#3, 0#2, 0#2)],
        ¬ accepts e.2 → Illegal s e.1) ∧
      (∀ e ∈ [(Instr.vcvtFI p d a, ([0#4], 4#3, 0#2, 0#2), 0#64, rm), (.vcvtIF p d a, ([0#4], 4#3, 0#2, 0#2), 0#64, rm),
        (.vcvtFH p d a h, ([1#4], 4#3, 0#2, 0#2), 0#64, rm), (.vcvtHF p d a h, ([1#4], 0#3, 0#2, 0#2), 0#64, 0),
        (.vdqnt p d a b, ([2#4, 3#4], 4#3, 2#2, 0#2), y, rm), (.vbexp p d a, ([2#4, 3#4], 0#3, 0#2, 0#2), 0#64, 0)],
        accepts e.2.1 → allowed → k.vecq.length < 2 → Completes s e.1 (queued e.1 e.2.2.1 e.2.2.2)) ∧
      (accepts ([2#4, 3#4], 4#3, 2#2, 0#2) → allowed → k.vecq.length < 2 → y.extractLsb' 0 56 = 0#56 →
        Completes s (.vqnt p d a b) (queued (.vqnt p d a b) y rm)) ∧
      (accepts ([0#4, 4#4], 0#3, 0#2, 3#2) → allowed →
        (k.vecq = [] → (∀ h, (s.homeAt h).reqs = []) → t.st = .ready → t.getP p.toNat = 0#16 →
          Completes s (.vredx p d a b) (s.setCore s.core k)) ∧
        (k.vecq.length < 2 → (∀ v ∈ k.vecq, ¬ (v.slot = s.slot ∧ v.gen = t.gen ∧ v.redx.isSome = true)) →
          let s0 := s.finishVecAll s.core
          let s1 := (s0.finishVecMem s0.core s0.slot).orderHomes s0.core s0.slot
          let s2 := s1.setCore s1.core { s1.coreAt s1.core with vecq := [cmd (.vredx p d a b) x 0] }
          let op := if w.extractLsb' 0 4 = 4#4 then 0 else 1
          let scope := if w.extractLsb' 9 2 = 1#2 then 0 else if w.extractLsb' 9 2 = 2#2 then 1 else 2
          s1.core = s.core → s1.slot = s.slot → (s1.coreAt s1.core).vecq = [] → s1.cur.st = .ready → s1.cur.gen = t.gen →
          ∀ s3, redxLanes s.core s.slot x p d b op scope t.epoch 16 s2 = .ok () s3 →
            let s4 := s3.setCore s.core { s3.coreAt s.core with vecq := [] }
            s4.cur.st = .ready → s4.cur.unwound = t.unwound → s4.cur.getP p.toNat = 0#16 → s4.core = s.core → s4.slot = s.slot →
            Completes s (.vredx p d a b) s4)) ∧
      (accepts ([2#4, 3#4], 0#3, 0#2, 0#2) → allowed →
        let s1 := s.finishVec s.core s.slot
        let entered := fun (i : Instr) (x y : Word) (s2 : State) (gk : Nat) (g : Gang) =>
          ({ s2 with gangs := tabPut s2.gangs gk { g with entered := g.entered ++
            [{ core := s2.core, slot := s2.slot, instr := i, pfx := some w, a := x, b := y, failed := none, gen := t.gen, unwound := t.unwound }] } } : State)
        (∀ gk g0 g s2, t.gang = some gk → tabFind s.gangs gk = some g0 → tabFind s2.gangs gk = some g →
          checkRange x (if bi4 then 2176 else 2112) s1 = .ok () s1 →
          checkRights s1.core s1.cur.lease s1.cur.dom.toNat x.toNat { write := false, fetch := false } s1 = .ok () s2 →
          Blocks s (.ldsG a) (entered (.ldsG a) x 0 s2 gk g) .gang) ∧
        (∀ gk g0 g, t.gang = some gk → tabFind s.gangs gk = some g0 → tabFind s1.gangs gk = some g →
          y >>> 32 = 0 → y.extractLsb' 5 3 = 0#3 → y.toNat / 256 + (if bi4 then 64 else 32) ≤ 0xFFFFFF →
          (s1.lcoreAt s1.cur.lease s1.core).active.bi4 = decide bi4 →
          checkRange x ((if bi4 then 128 else 64) * (y.toNat % 32 + 1)) s1 = .ok () s1 →
          Blocks s (.mmaG q a b) (entered (.mmaG q a b) x y s1 gk g) .gang)))

/-- The vector forms at issue (R8, R214, R216, R254, R366): with room in the engine's queue the command enters it with what it read
at issue, and the slot goes on; with a full queue it stalls, and the core issues nothing in that clk; in a gate callee without vectors the form faults with GVEC. The
tile commands fault with DESC on a selector with a reserved bit. VQNT checks its outlier list, if it has one, at issue: its alignment, its place in
the window and in a callee's, and the right to write there (R226; the order and the right are log entry 20). VBCASTQ takes its queue entry first, or is BLOCKED. -/
def Obligations.VectorIssue : Prop :=
  ∀ (s : State) (p q e : BitVec 3) (d a b : BitVec 5) (j : BitVec 4) (h : BitVec 1) (tl : BitVec 3), s.Plain →
    let t := s.cur
    let k := s.coreAt s.core
    let rm := (t.ff.extractLsb' 5 3).toNat
    let x := t.getX a
    let y := t.getX b
    let allowed := ∀ f ∈ t.frames.head?, f.vec = true
    let again := s.setCore s.core { k with stalled := true }
    let queued := fun (s : State) (i : Instr) (x y : Word) (rm : Nat) => s.setCore s.core { s.coreAt s.core with vecq := (s.coreAt s.core).vecq ++
      [{ instr := i, slot := s.slot, gen := t.gen, a := x, b := y, rm := rm, pfx := none, bexp := t.bexp, epoch := t.epoch, places := [] }] }
    (∀ f ∈ [(Instr.vaddF p d a b, 0, 0, rm), (.vsubF p d a b, 0, 0, rm), (.vmulF p d a b, 0, 0, rm), (.vfmaF p d a b, 0, 0, rm),
        (.vminF p d a b, 0, 0, rm), (.vmaxF p d a b, 0, 0, rm), (.vabsF p d a, 0, 0, rm), (.vnegF p d a, 0, 0, rm),
        (.vdivF p d a b, 0, 0, rm), (.vsqrtF p d a, 0, 0, rm), (.vexp2F p d a, 0, 0, rm), (.vrcpF p d a, 0, 0, rm),
        (.vfmasF p d a b, 0, y, rm), (.vaddI p d a b, 0, 0, 0), (.vsubI p d a b, 0, 0, 0), (.vmulI p d a b, 0, 0, 0),
        (.vminI p d a b, 0, 0, 0), (.vmaxI p d a b, 0, 0, 0), (.vminuI p d a b, 0, 0, 0), (.vmaxuI p d a b, 0, 0, 0),
        (.vand p d a b, 0, 0, 0), (.vor p d a b, 0, 0, 0), (.vxor p d a b, 0, 0, 0), (.vshl p d a b, 0, 0, 0), (.vsrl p d a b, 0, 0, 0),
        (.vsra p d a b, 0, 0, 0), (.vcmpFEQ p e a b, 0, 0, 0), (.vcmpFLT p e a b, 0, 0, 0), (.vcmpFLE p e a b, 0, 0, 0),
        (.vcmpIEQ p e a b, 0, 0, 0), (.vcmpILT p e a b, 0, 0, 0), (.vcmpILTU p e a b, 0, 0, 0), (.vsel p d a b, 0, 0, 0),
        (.pand p q e, 0, 0, 0), (.por p q e, 0, 0, 0), (.pxor p q e, 0, 0, 0), (.pnot p q, 0, 0, 0), (.pset p a, x, 0, 0),
        (.vbcast p d a, x, 0, 0), (.vmvxv d a j, x, 0, 0), (.vperm p d a b, 0, 0, 0), (.vslide p d a b, 0, y, 0), (.viota p d, 0, 0, 0),
        (.vrsumF p d a, 0, 0, 0), (.vrmaxF p d a, 0, 0, 0), (.vrsumI p d a, 0, 0, 0), (.vcvtFI p d a, 0, 0, 0), (.vcvtIF p d a, 0, 0, 0),
        (.vcvtFH p d a h, 0, 0, 0), (.vcvtHF p d a h, 0, 0, 0), (.vdqnt p d a b, y, 0, 0), (.vbexp p d a, 0, 0, 0)],
      (allowed → k.vecq.length < 2 → Completes s f.1 (queued s f.1 f.2.1 f.2.2.1 f.2.2.2)) ∧
      (allowed → 2 ≤ k.vecq.length → Runs f.1 s again) ∧ (¬ allowed → Faults s f.1 { cause := 0x1A })) ∧
    (allowed → k.vecq.length < 2 → y.extractLsb' 0 56 = 0#56 → Completes s (.vqnt p d a b) (queued s (.vqnt p d a b) y 0 0)) ∧
    (allowed → 2 ≤ k.vecq.length → y.extractLsb' 0 56 = 0#56 → Runs (.vqnt p d a b) s again) ∧
    (y.extractLsb' 48 8 ≠ 0#8 → allowed → Faults s (.vqnt p d a b) { cause := 0x09 }) ∧
    (let list := y.toNat % 2 ^ 48
      let at_ := BitVec.ofNat 64 list
      let off := list - 0x7FFFFFF00000
      let inside := ∀ base n, t.window = some (base, n) → base ≤ off ∧ off + 16 ≤ base + n
      y.extractLsb' 48 8 = 0#8 → allowed → list ≠ 0 →
      (list % 16 ≠ 0 → Faults s (.vqnt p d a b) { cause := 0x03, addr := some at_ }) ∧
      (list % 16 = 0 → (list < 0x7FFFFFF00000 ∨ 0x7FFFFFF3F800 < list + 16) → Faults s (.vqnt p d a b) { cause := 0x07, addr := some at_ }) ∧
      (list % 16 = 0 → 0x7FFFFFF00000 ≤ list → list + 16 ≤ 0x7FFFFFF3F800 →
        (¬ inside → Faults s (.vqnt p d a b) { cause := 0x07, addr := some at_ }) ∧
        (∀ r, inside → (k.plb.find? fun r => r.lease == t.lease && r.dom == t.dom.toNat && r.seg == list / 2 ^ 21) = some r →
          (r.w = false → Faults s (.vqnt p d a b) { cause := 0x14, addr := some at_, level := some 0x11F#64 }) ∧
          (r.w = true → k.vecq.length < 2 → Completes s (.vqnt p d a b) (queued s (.vqnt p d a b) y 0 0)) ∧
          (r.w = true → 2 ≤ k.vecq.length → Runs (.vqnt p d a b) s again)))) ∧
    (¬ allowed → Faults s (.vqnt p d a b) { cause := 0x1A }) ∧
    (∀ i ∈ [Instr.mrd d tl b, .mwr tl a b, .maddv tl a b],
      (allowed → y.toNat < 256 → k.vecq.length < 2 → Completes s i (queued s i y 0 0)) ∧
      (allowed → y.toNat < 256 → 2 ≤ k.vecq.length → Runs i s again) ∧
      (allowed → 256 ≤ y.toNat → Faults s i { cause := 0x09 }) ∧ (¬ allowed → Faults s i { cause := 0x1A })) ∧
    (∀ v rest, allowed → t.getQ q.toNat = v :: rest → k.vecq.length < 2 →
      Completes s (.vbcastq p d q) (queued (s.setCur (t.setQ q.toNat rest)) (.vbcastq p d q) v 0 0)) ∧
    (∀ v rest, allowed → t.getQ q.toNat = v :: rest → 2 ≤ k.vecq.length → Runs (.vbcastq p d q) s again) ∧
    (allowed → t.getQ q.toNat = [] → Blocks s (.vbcastq p d q) s (.on (.vbcastq p d q))) ∧
    (¬ allowed → Faults s (.vbcastq p d q) { cause := 0x1A })

/-- The lane forms at execution (R214, R215, R219, R220, R223, R225): the oldest command of a core's engine leaves the
queue; every active lane of v[d] takes its form's value of the lanes read before, an inactive lane keeps its own; the flags of
the active lanes are ORed into `ff`; no other register and no memory changes. -/
def Obligations.VectorLaneForms : Prop :=
  ∀ (s : State) (v : VecCmd) (rest : List VecCmd) (p q : BitVec 3) (d a b : BitVec 5) (h : BitVec 1),
    let c := s.ev.a
    let t := s.slotAt c v.slot
    let ln := fun (r : BitVec 5) (i : Nat) => (t.getV r.toNat).extractLsb' (32 * i) 32
    let on := fun (i : Nat) => (t.getP p.toNat).getLsbD i
    let no := fun (x : Lane) => (x, 0#5)
    let half := fun (i : Nat) => let r := fpToH16 v.rm (ln a i)
      ((if h = 0#1 then (ln d i).extractLsb' 16 16 ++ r.1 else r.1 ++ (ln d i).extractLsb' 0 16 : BitVec 32), r.2)
    let slide := fun (i : Nat) => let k := (i : Int) + v.b.toInt
      if 0 ≤ k ∧ k ≤ 15 then ln a k.toNat else 0#32
    c < 4096 → (s.coreAt c).vecq = v :: rest → t.st ≠ .free → t.gen = v.gen → v.poison = false →
    ∀ f ∈ [(Instr.vaddF p d a b, fun i => fpAdd v.rm (ln a i) (ln b i)), (.vsubF p d a b, fun i => fpSub v.rm (ln a i) (ln b i)),
        (.vmulF p d a b, fun i => fpMul v.rm (ln a i) (ln b i)), (.vfmaF p d a b, fun i => fpFma v.rm (ln a i) (ln b i) (ln d i)),
        (.vminF p d a b, fun i => no (fpMin (ln a i) (ln b i))), (.vmaxF p d a b, fun i => no (fpMax (ln a i) (ln b i))),
        (.vabsF p d a, fun i => no (ln a i &&& 0x7FFFFFFF#32)), (.vnegF p d a, fun i => no (ln a i ^^^ 0x80000000#32)),
        (.vdivF p d a b, fun i => fpDiv v.rm (ln a i) (ln b i)), (.vsqrtF p d a, fun i => fpSqrt v.rm (ln a i)),
        (.vexp2F p d a, fun i => fpExp2 v.rm (ln a i)), (.vrcpF p d a, fun i => fpDiv v.rm 0x3F800000#32 (ln a i)),
        (.vfmasF p d a b, fun i => fpFma v.rm (ln a i) (v.b.setWidth 32) (ln d i)),
        (.vaddI p d a b, fun i => no (ln a i + ln b i)), (.vsubI p d a b, fun i => no (ln a i - ln b i)),
        (.vmulI p d a b, fun i => no (ln a i * ln b i)),
        (.vminI p d a b, fun i => no (if (ln a i).toInt < (ln b i).toInt then ln a i else ln b i)),
        (.vmaxI p d a b, fun i => no (if (ln b i).toInt < (ln a i).toInt then ln a i else ln b i)),
        (.vminuI p d a b, fun i => no (if (ln a i).toNat < (ln b i).toNat then ln a i else ln b i)),
        (.vmaxuI p d a b, fun i => no (if (ln b i).toNat < (ln a i).toNat then ln a i else ln b i)),
        (.vand p d a b, fun i => no (ln a i &&& ln b i)), (.vor p d a b, fun i => no (ln a i ||| ln b i)),
        (.vxor p d a b, fun i => no (ln a i ^^^ ln b i)), (.vshl p d a b, fun i => no (ln a i <<< ((ln b i).toNat % 32))),
        (.vsrl p d a b, fun i => no (ln a i >>> ((ln b i).toNat % 32))),
        (.vsra p d a b, fun i => no ((ln a i).sshiftRight ((ln b i).toNat % 32))),
        (.vbcast p d a, fun _ => no (v.a.setWidth 32)), (.vbcastq p d q, fun _ => no (v.a.setWidth 32)),
        (.vperm p d a b, fun i => no (ln a ((ln b i).toNat % 16))), (.vslide p d a b, fun i => no (slide i)),
        (.vcvtFI p d a, fun i => let r := fpToInt (-2147483648) 2147483647 v.rm (ln a i); (BitVec.ofInt 32 r.1, r.2)),
        (.vcvtIF p d a, fun i => fpOfInt v.rm (ln a i).toInt), (.vcvtFH p d a h, half),
        (.vcvtHF p d a h, fun i => no (fpOfH16 ((ln a i).extractLsb' (16 * h.toNat) 16)))],
      v.instr = f.1 → ∃ u, Runs .vectorCommandExecute s u ∧ (u.coreAt c).vecq = rest ∧ u.mem = s.mem ∧
        (∀ i, i < 16 → ((u.slotAt c v.slot).getV d.toNat).extractLsb' (32 * i) 32 = if on i then (f.2 i).1 else ln d i) ∧
        (∀ r, r ≠ d.toNat → (u.slotAt c v.slot).getV r = t.getV r) ∧
        (u.slotAt c v.slot).ff = ffRaise t.ff ((List.range 16).foldl (fun g i => g ||| if on i then (f.2 i).2 else 0#5) 0#5) ∧
        (u.slotAt c v.slot) = { t with v := (u.slotAt c v.slot).v, ff := (u.slotAt c v.slot).ff }

/-- The other vector forms at execution (R215, R221 to R224, R226 to R228, R244, R254): compares write a predicate, inactive lanes
0, p0 never; the predicate forms; VSEL, VMVXV and VIOTA write every lane; a reduction leaves its result in lane 0 and zeros
elsewhere, over the pairwise tree of R224; VQNT quantises 32 values under the exponent of its source, the automatic one being the smallest
that fits, with an entry of its list for each outlier (R200 to R204); VDQNT gives them back; VBEXP the automatic exponent; MRD reads a bank's
row, a free value where its working tile is BUSY (log entry 5), MWR and MADDV write one, on a BUSY tile after its passes. A read of a word or
element with an error resets the lease (R381). The bound of a callee's list is log entry 68. -/
def Obligations.VectorOtherForms : Prop :=
  ∀ (s : State) (v : VecCmd) (rest : List VecCmd) (p e q r : BitVec 3) (d a b : BitVec 5) (j : BitVec 4),
    let c := s.ev.a
    let t := s.slotAt c v.slot
    let ln := fun (r : BitVec 5) (i : Nat) => (t.getV r.toNat).extractLsb' (32 * i) 32
    let on := fun (i : Nat) => (t.getP p.toNat).getLsbD i
    let gives := fun (f : State → Prop) => ∃ u, Runs .vectorCommandExecute s u ∧ (u.coreAt c).vecq = rest ∧ u.mem = s.mem ∧ f u
    let lanes := fun (u : State) (g : Nat → Lane) =>
      ∀ i, i < 16 → ((u.slotAt c v.slot).getV d.toNat).extractLsb' (32 * i) 32 = g i
    let raised := fun (u : State) (g : Nat → FpFlags) =>
      (u.slotAt c v.slot).ff = ffRaise t.ff ((List.range 16).foldl (fun w i => if on i then w ||| g i else w) 0#5)
    let inv := fun (i : Nat) => if fpIsNaN (ln a i) || fpIsNaN (ln b i) then flagNV else 0#5
    let elem := fun (u : State) (i : Nat) =>
      (u.lcoreAt t.lease c).elem (v.a.getLsbD 0) e.toNat (v.a.extractLsb' 1 5).toNat (16 * (v.a.extractLsb' 6 2).toNat + i)
    let key := fun (i : Nat) => accKey (v.a.getLsbD 0) e.toNat (v.a.extractLsb' 1 5).toNat (16 * (v.a.extractLsb' 6 2).toNat + i)
    let taken := s.setCore c { s.coreAt c with vecq := rest }
    -- a value of sign g, magnitude m and power n of two, rounded to a whole number
    let near := fun (rm : Nat) (g : Bool) (m : Nat) (n : Int) =>
      let k := (-n).toNat
      let whole := m * 2 ^ n.toNat / 2 ^ k
      let r := m % 2 ^ k
      let up : Bool := (rm == 0 && (decide (2 ^ k < 2 * r) || (decide (2 * r = 2 ^ k) && decide (whole % 2 = 1)))) ||
        (rm == 2 && g && decide (0 < r)) || (decide (2 < rm) && !g && decide (0 < r))
      let y := whole + if up then 1 else 0
      (if g then -(y : Int) else (y : Int))
    -- an element under the exponent `ex`; `none` where it is an outlier
    let quant := fun (bi4 : Bool) (rm ex : Nat) (x : Lane) => match fpVal x with
      | .fin g m n => (let y := near rm g m (n + 127 - ex)
        if (if bi4 then -8 else -128) ≤ y ∧ y ≤ (if bi4 then 7 else 127) then some y else none)
      | _ => none
    let bi4 := pfxBi4 v.pfx
    let source := fun (own : Nat) => match pfxEsrc v.pfx with
      | 0 => own
      | 1 => (v.a.extractLsb' 56 8).toNat
      | _ => v.bexp.toNat
    let value := fun (k : Nat) => if on (k % 16) then (t.getV (a.toNat + k / 16)).extractLsb' (32 * (k % 16)) 32 else 0#32
    let values := (List.range 32).map value
    c < 4096 → (s.coreAt c).vecq = v :: rest → t.st ≠ .free → t.gen = v.gen → v.poison = false →
    (∀ f ∈ [(Instr.vcmpFEQ p e a b, fun i => fpEq (ln a i) (ln b i), fun _ => 0#5), (.vcmpFLT p e a b, fun i => fpLt (ln a i) (ln b i), inv),
        (.vcmpFLE p e a b, fun i => fpLe (ln a i) (ln b i), inv), (.vcmpIEQ p e a b, fun i => ln a i == ln b i, fun _ => 0#5),
        (.vcmpILT p e a b, fun i => decide ((ln a i).toInt < (ln b i).toInt), fun _ => 0#5),
        (.vcmpILTU p e a b, fun i => decide ((ln a i).toNat < (ln b i).toNat), fun _ => 0#5)],
      v.instr = f.1 → gives fun u => raised u f.2.2 ∧
        ∀ i, i < 16 → ((u.slotAt c v.slot).getP e.toNat).getLsbD i = if e = 0 then true else on i && f.2.1 i) ∧
    (∀ f ∈ [(Instr.pand e q r, t.getP q.toNat &&& t.getP r.toNat), (.por e q r, t.getP q.toNat ||| t.getP r.toNat),
        (.pxor e q r, t.getP q.toNat ^^^ t.getP r.toNat), (.pnot e q, ~~~(t.getP q.toNat)), (.pset e a, v.a.setWidth 16)],
      v.instr = f.1 → gives fun u => (u.slotAt c v.slot).getP e.toNat = if e = 0 then 0xFFFF#16 else f.2) ∧
    (v.instr = .vsel p d a b → gives fun u => lanes u fun i => if on i then ln a i else ln b i) ∧
    (v.instr = .vmvxv d a j → gives fun u => lanes u fun i => if i = j.toNat then v.a.setWidth 32 else ln d i) ∧
    (v.instr = .viota p d → gives fun u => lanes u fun i => BitVec.ofNat 32 ((List.range i).countP on)) ∧
    (∀ f ∈ [(Instr.vrsumF p d a, fpAdd 0, 0#32), (.vrmaxF p d a, fun x y => (fpMax x y, 0#5), 0xFF800000#32),
        (.vrsumI p d a, fun x y => (x + y, 0#5), 0#32)],
      v.instr = f.1 → gives fun u =>
        -- the tree of R224: a node of one present operand is that operand, a node of two applies the operation
        let node := fun (x y : Option Lane × FpFlags) => match x.1, y.1 with
          | some m, some n => (some (f.2.1 m n).1, x.2 ||| y.2 ||| (f.2.1 m n).2)
          | none, o => (o, x.2 ||| y.2)
          | o, none => (o, x.2 ||| y.2)
        let level := fun (n : Nat → Option Lane × FpFlags) (j : Nat) => node (n (2 * j)) (n (2 * j + 1))
        let root := level (level (level (level fun i => (if on i then some (ln a i) else none, 0#5)))) 0
        lanes u (fun i => if i = 0 then root.1.getD f.2.2 else 0#32) ∧ (u.slotAt c v.slot).ff = ffRaise t.ff root.2) ∧
    (∀ (bi4 : Bool) (rm : Nat) (xs : List Lane),
      let fits := fun (ex : Nat) => ∀ x ∈ xs, quant bi4 rm ex x ≠ none
      ((∃ x ∈ xs, fpExp x = 255) → autoExp bi4 rm xs = 255) ∧
      ((∀ x ∈ xs, fpExp x ≠ 255) → autoExp bi4 rm xs < 255 ∧ fits (autoExp bi4 rm xs) ∧ ∀ n, n < autoExp bi4 rm xs → ¬ fits n)) ∧
    (v.instr = .vqnt p d a b →
      let q := fun (k : Nat) => if source (autoExp bi4 v.rm values) = 255 then some 0 else quant bi4 v.rm (source (autoExp bi4 v.rm values)) (value k)
      let top := match t.frames with
        | [] => 0x3F800
        | f :: _ => f.sbase + f.ssize
      let list := (v.a.extractLsb' 0 48).toNat
      let at_ := list - 0x7FFFFFF00000
      let bad := list ≠ 0 ∧ (∃ k, k < 32 ∧ q k = none) ∧ (s.lcoreAt t.lease c).spadPoisoned at_ 16 = true
      let e8 := fun (k : Nat) => BitVec.ofInt 8 ((q k).getD 0)
      let ex := BitVec.ofNat 8 (source (autoExp bi4 v.rm values))
      let byte := fun (i : Nat) => if bi4 then (if i < 16 then (e8 (2 * i) &&& 0x0F#8) ||| (e8 (2 * i + 1) <<< 4) else if i = 16 then ex else 0#8)
        else if i < 32 then e8 i else if i = 32 then ex else 0#8
      let lost := fun (l : LCore) => ({ l with mst := setBit l.mst 4 true } : LCore)
      let append := fun (l : LCore) (k : Nat) =>
        let count := l.readSpad (at_ + 4) 4
        let dropped := l.readSpad (at_ + 8) 4
        let x := if fpIsNaN (value k) then canonNaN else value k
        if count < l.readSpad at_ 4 ∧ at_ + 16 + 8 * count + 8 ≤ top then
          (l.writeSpad (at_ + 16 + 8 * count) (leBytes 8 ((l.readSpad (at_ + 12) 4 + k) % 65536 + x.toNat * 2 ^ 32))).writeSpad (at_ + 4)
            (leBytes 4 (count + 1))
        else lost (l.writeSpad (at_ + 8) (leBytes 4 (if dropped = 2 ^ 32 - 1 then dropped else dropped + 1)))
      (bad → Runs .vectorCommandExecute s (taken.poisoned t.lease)) ∧
      (¬ bad → gives fun u => u.slotAt c v.slot = { t with v := (u.slotAt c v.slot).v } ∧
        (∀ i, i < 64 → ((u.slotAt c v.slot).getV d.toNat).extractLsb' (8 * i) 8 = byte i) ∧
        (∀ r, r ≠ d.toNat → (u.slotAt c v.slot).getV r = t.getV r) ∧
        u.lcoreAt t.lease c = (List.range 32).foldl (fun (l : LCore) k => if q k = none then (if list = 0 then lost l else append l k) else l)
          (s.lcoreAt t.lease c))) ∧
    (v.instr = .vdqnt p d a b →
      let w := t.getV a.toNat
      let q := fun (k : Nat) => if bi4 then (w.extractLsb' (4 * k) 4).toInt else (w.extractLsb' (8 * k) 8).toInt
      let ex := source (if bi4 then (w.extractLsb' 128 8).toNat else (w.extractLsb' 256 8).toNat)
      let one := fun (k : Nat) => if ex = 255 then (canonNaN, 0#5) else if q k = 0 then (0#32, 0#5)
        else roundFp v.rm (decide (q k < 0)) (q k).natAbs ((ex : Int) - 127)
      let half := fun (u : State) (n : Nat) => ∀ i, i < 16 → ((u.slotAt c v.slot).getV (d.toNat + n)).extractLsb' (32 * i) 32 =
        if on i then (one (16 * n + i)).1 else (t.getV (d.toNat + n)).extractLsb' (32 * i) 32
      let flags := fun (n : Nat) => (List.range 16).foldl (fun g i => g ||| if on i then (one (16 * n + i)).2 else 0#5) 0#5
      gives fun u => half u 0 ∧ half u 1 ∧ (u.slotAt c v.slot).ff = ffRaise (ffRaise t.ff (flags 0)) (flags 1) ∧
        ∀ r, r ≠ d.toNat → r ≠ d.toNat + 1 → (u.slotAt c v.slot).getV r = t.getV r) ∧
    (v.instr = .vbexp p d a → gives fun u => lanes u fun i => if on i then BitVec.ofNat 32 (autoExp bi4 0 values) else ln d i) ∧
    (v.instr = .mrd d e b →
      ((∃ i, i < 16 ∧ key i ∈ (s.lcoreAt t.lease c).accPoison) → Runs .vectorCommandExecute s (taken.poisoned t.lease)) ∧
      ((∀ i, i < 16 → key i ∉ (s.lcoreAt t.lease c).accPoison) → gives fun u => lanes u fun i =>
        if v.a.getLsbD 0 = false ∧ s.passOnTile t.lease c e.toNat = true then Config.freeLane (s.free + i) else elem s i)) ∧
    (∀ i ∈ [Instr.mwr e a b, .maddv e a b], v.instr = i →
      let s0 := taken.finishTile t.lease c e.toNat taken.passFuel
      let bad := i = .maddv e a b ∧ ∃ n, n < 16 ∧ key n ∈ (s0.lcoreAt t.lease c).accPoison
      (s.passOnTile t.lease c e.toNat = false → s0 = taken) ∧
      (bad → Runs .vectorCommandExecute s (s0.poisoned t.lease)) ∧
      (¬ bad → s0.slotAt c v.slot = t → ∃ u, Runs .vectorCommandExecute s u ∧ (u.coreAt c).vecq = (s0.coreAt c).vecq ∧ u.mem = s0.mem ∧
        ∀ n, n < 16 → elem u n = if i = .mwr e a b then ln a n else (fpAdd 0 (elem s0 n) (ln a n)).1))

/-- The vector forms that the slot waits for (R8, R98, R216, R222, R223, R229 to R232, R366). PGET, PPOP and VMVVX enter the engine's
queue and leave the slot BLOCKED, or stall while it is full; the engine's execution writes x[rd] and nothing else of the slot; and
once no command of the slot is left, SLOT_UNBLOCK completes the form without issuing it again. A vector load or store first lets the
engine's earlier commands and the slot's posted requests end; with every active lane checked it enters the queue with the lanes'
places, which for lanes of the scratchpad that pass are their offsets; the first lane that fails faults with nothing queued. The
engine loads one lane a move, the last of them filling the active lanes of v[rd] and leaving the rest; a store's lanes go out in
ascending order. VREDX holds the engine's queue and reduces lane by lane,
clearing the bit of each; with no bit left it leaves the queue and completes, a lane that fails faults with what it has done, and where it
waits for the store buffer it stalls with what it has done, keeping its place at the head (R232). -/
def Obligations.VectorWaitedForms : Prop :=
  ∀ (s : State) (p q : BitVec 3) (d a b : BitVec 5) (j : BitVec 4),
    let t := s.cur
    let k := s.coreAt s.core
    let allowed := ∀ f ∈ t.frames.head?, f.vec = true
    let again := s.setCore s.core { k with stalled := true }
    let queued := fun (s : State) (i : Instr) (places : List (Nat × Place)) => s.setCore s.core { s.coreAt s.core with vecq :=
      (s.coreAt s.core).vecq ++ [{ instr := i, slot := s.slot, gen := s.cur.gen, a := 0, b := 0, rm := 0, pfx := s.cur.pfx,
                                   bexp := s.cur.bexp, epoch := s.cur.epoch, places := places }] }
    let quiet := k.vecq = [] ∧ ∀ h, (s.homeAt h).reqs = []
    let none_ := ∀ v ∈ k.vecq, ¬ (v.slot = s.slot ∧ v.gen = t.gen ∧ v.redx.isSome = true)
    let spads := fun (ea : Nat → Word) (pl : PlbEntry) (w : Bool) => t.frames = [] ∧
      ((k.plb.find? fun e => e.lease == t.lease && e.dom == t.dom.toNat && e.seg == 0x7FFFFFF00000 / 2 ^ 21) = some pl) ∧
      (if w then pl.w else pl.r) = true ∧ ∀ i, i < 16 → (t.getP p.toNat).getLsbD i = true →
        (ea i).toNat % 4 = 0 ∧ 0x7FFFFFF00000 ≤ (ea i).toNat ∧ (ea i).toNat < 0x7FFFFFF00000 + 0x3F800
    let forms := [(Instr.vld p d a, false, fun (t : Slot) (i : Nat) => t.getX a + BitVec.ofNat 64 (4 * i)),
      (.vst p d a, true, fun t i => t.getX a + BitVec.ofNat 64 (4 * i)),
      (.vlds p d a b, false, fun t i => t.getX a + BitVec.ofNat 64 i * t.getX b), (.vsts p d a b, true, fun t i => t.getX a + BitVec.ofNat 64 i * t.getX b),
      (.vldx p d a b, false, fun t i => t.getX a + ((t.getV b.toNat).extractLsb' (32 * i) 32).zeroExtend 64),
      (.vstx p d a b, true, fun t i => t.getX a + ((t.getV b.toNat).extractLsb' (32 * i) 32).zeroExtend 64)]
    (s.Plain →
      (∀ i ∈ [Instr.pget d q, .ppop p d q, .vmvvx d a j],
        (allowed → k.vecq.length < 2 → Blocks s i (queued s i []) (.on i)) ∧
        (allowed → 2 ≤ k.vecq.length → Runs i s again) ∧ (¬ allowed → Faults s i { cause := 0x1A })) ∧
      (∀ f ∈ forms, (¬ allowed → Faults s f.1 { cause := 0x1A }) ∧ (allowed → 2 ≤ k.vecq.length → Runs f.1 s again) ∧
        (∀ pl, quiet → spads (f.2.2 t) pl f.2.1 → Completes s f.1 (queued s f.1 (((List.range 16).filter fun i => (t.getP p.toNat).getLsbD i).map
          fun i => (i, Place.spad ((f.2.2 t i).toNat - 0x7FFFFFF00000))))) ∧
        (allowed → k.vecq.length < 2 →
          let s0 := s.finishVecAll s.core
          let s1 := (s0.finishVecMem s0.core s0.slot).orderHomes s0.core s0.slot
          (∀ pls s2, lanePlaces (s1.cur.getP p.toNat) f.2.1 (f.2.2 s1.cur) 16 s1 = .ok pls s2 → Completes s f.1 (queued s2 f.1 pls)) ∧
          (∀ g s2, lanePlaces (s1.cur.getP p.toNat) f.2.1 (f.2.2 s1.cur) 16 s1 = .error (.fault g) s2 →
            Runs f.1 s (s2.takeFault s.core s.slot g 0 .fault)))) ∧
      (allowed → quiet → t.st = .ready → t.getP p.toNat = 0#16 → Completes s (.vredx p d a b) (s.setCore s.core k)) ∧
      (allowed → 2 ≤ k.vecq.length → none_ → Runs (.vredx p d a b) s again) ∧ (¬ allowed → Faults s (.vredx p d a b) { cause := 0x1A }) ∧
      (∀ pl i, quiet → spads (fun i => t.getX a + ((t.getV b.toNat).extractLsb' (32 * i) 32).zeroExtend 64) pl true → i < 16 → p ≠ 0 →
        t.st = .ready → t.getP p.toNat = 1#16 <<< i →
        let off := (t.getX a + ((t.getV b.toNat).extractLsb' (32 * i) 32).zeroExtend 64).toNat - 0x7FFFFFF00000
        let l := s.lcoreAt t.lease s.core
        Completes s (.vredx p d a b) ((s.setLCore t.lease s.core (l.writeSpad off (leBytes 4 (fpAdd 0 (BitVec.ofNat 32 (l.readSpad off 4))
          ((t.getV d.toNat).extractLsb' (32 * i) 32)).1.toNat))).setCur (t.setP p.toNat 0))) ∧
      (allowed → k.vecq.length < 2 → none_ →
        let s0 := s.finishVecAll s.core
        let s1 := (s0.finishVecMem s0.core s0.slot).orderHomes s0.core s0.slot
        let cmd : VecCmd := { instr := .vredx p d a b, slot := s.slot, gen := t.gen, a := t.getX a, b := 0, rm := 0, pfx := none,
                              bexp := t.bexp, epoch := t.epoch, places := [] }
        let s2 := s1.setCore s1.core { s1.coreAt s1.core with vecq := [cmd] }
        let out := fun (u : State) => u.setCore s.core { u.coreAt s.core with vecq := [] }
        let run := redxLanes s.core s.slot (t.getX a) p d b 1 2 t.epoch 16 s2
        s1.core = s.core → s1.slot = s.slot → (s1.coreAt s1.core).vecq = [] → s1.cur.st = .ready → s1.cur.gen = t.gen →
        (∀ s3, run = .ok () s3 → (out s3).cur.st = .ready → (out s3).cur.unwound = t.unwound → (out s3).cur.getP p.toNat = 0#16 →
          s3.core = s.core → s3.slot = s.slot → Completes s (.vredx p d a b) (out s3)) ∧
        (∀ s3 v, run = .error .stall s3 → (s3.coreAt s3.core).vecq = [v] → v.slot = s.slot → v.gen = t.gen → v.redx.isSome = true →
          s3.core = s.core → Runs (.vredx p d a b) s (s3.setCore s.core { s3.coreAt s.core with stalled := true })) ∧
        (∀ s3 f, run = .error (.fault f) s3 → s3.core = s.core → s3.slot = s.slot →
          let s4 := (out s3).takeFault s.core s.slot f 0 .fault
          s4.core = s.core → s4.slot = s.slot → (s4.coreAt s.core).vecq = [] → (s4.cur.st ≠ .ready ∨ s4.cur.unwound ≠ t.unwound) →
          Runs (.vredx p d a b) s (s4.completed s.core s.slot .stay)))) ∧
    (∀ (c n : Nat), s.ev.a = c → s.ev.b = n → c < 4096 → n < 8 →
      let u := s.slotAt c n
      ∀ i ∈ [Instr.pget d q, .ppop p d q, .vmvvx d a j], u.st = .blocked (.on i) →
      ((∃ v ∈ (s.coreAt c).vecq, v.slot = n ∧ v.gen = u.gen) → Runs .slotUnblock s s) ∧
      ((∀ v ∈ (s.coreAt c).vecq, ¬ (v.slot = n ∧ v.gen = u.gen)) → ∃ s', Runs .slotUnblock s s' ∧
        s'.slotAt c n = (u.complete .seq).goesOn u.pc ∧ s'.mem = s.mem ∧ s'.lcores = s.lcores)) ∧
    (∀ (v : VecCmd) (rest : List VecCmd),
      let c := s.ev.a
      let u := s.slotAt c v.slot
      let taken := s.setCore c { s.coreAt c with vecq := rest }
      c < 4096 → (s.coreAt c).vecq = v :: rest → u.st ≠ .free → u.gen = v.gen → v.poison = false →
      (∀ f ∈ [(Instr.pget d q, (u.getP q.toNat).zeroExtend 64),
          (.ppop p d q, BitVec.ofNat 64 ((List.range 16).countP fun i => (u.getP q.toNat).getLsbD i && (u.getP p.toNat).getLsbD i)),
          (.vmvvx d a j, ((u.getV a.toNat).extractLsb' (32 * j.toNat) 32).zeroExtend 64)],
        v.instr = f.1 → ∃ s', Runs .vectorCommandExecute s s' ∧ s'.slotAt c v.slot = u.setX d f.2 ∧ (s'.coreAt c).vecq = rest ∧ s'.mem = s.mem) ∧
      (∀ f ∈ forms, f.2.1 = false → v.instr = f.1 → ∀ i pl more, v.places.drop v.got.length = (i, pl) :: more →
        (∀ bs s1, more ≠ [] → loadM c v.slot pl 4 true s = .ok bs s1 → Runs .vectorCommandExecute s
          (s1.setCore c { s1.coreAt c with vecq := { v with got := v.got ++ [(i, BitVec.ofNat 32 (leNat bs))] } :: rest })) ∧
        (∀ bs s1, more = [] → loadM c v.slot pl 4 true taken = .ok bs s1 → ∃ s', Runs .vectorCommandExecute s s' ∧ s'.mem = s1.mem ∧
          ∀ n, n < 16 → ((s'.slotAt c v.slot).getV d.toNat).extractLsb' (32 * n) 32 =
            match (v.got ++ [(i, BitVec.ofNat 32 (leNat bs))]).find? fun e => e.1 == n with
            | some e => e.2
            | none => ((s1.slotAt c v.slot).getV d.toNat).extractLsb' (32 * n) 32)) ∧
      (v.instr = .vredx p d a b → v.pfx = none →
        (∀ s1, redxLanes c v.slot v.a p d b 1 2 v.epoch 16 s = .ok () s1 →
          Runs .vectorCommandExecute s (s1.setCore c { s1.coreAt c with vecq := rest })) ∧
        (∀ s1, redxLanes c v.slot v.a p d b 1 2 v.epoch 16 s = .error .stall s1 → Runs .vectorCommandExecute s s1)) ∧
      (∀ f ∈ forms, f.2.1 = true → v.instr = f.1 →
        (∀ s1, vecStore c v.slot v.epoch (u.getV d.toNat) v.places taken = .ok () s1 → Runs .vectorCommandExecute s s1) ∧
        (∀ i off, v.places = [(i, .spad off)] → Runs .vectorCommandExecute s (taken.setLCore u.lease c
          ((s.lcoreAt u.lease c).writeSpad off (leBytes 4 ((u.getV d.toNat).extractLsb' (32 * i) 32).toNat)))) ∧
        (∀ i dva x, v.places = [(i, .mem dva x)] → x.kind ≠ 1 → x.kind ≠ 5 → (s.coreAt c).sb.length < 16 → Runs .vectorCommandExecute s
          (taken.setCore c { taken.coreAt c with sb := (s.coreAt c).sb ++
            [{ slot := v.slot, gen := u.gen, lease := u.lease, tag := u.tag, dva := dva, x := x, epoch := v.epoch, eng := true,
               op := .store (leBytes 4 ((u.getV d.toNat).extractLsb' (32 * i) 32).toNat) }] }))))

/-! ### Row arrays -/

/-- The gang forms at issue (R237, R247, R248, R249, R325, R366): a member, with its vector commands done and its check made, enters
the gang's barrier with its operands and is BLOCKED; a task of no gang faults with GANG, and in a callee without vectors every
form but BARR with GVEC, before GANG as log entry 68 has it. MMA.G asks for no right of its operand rows (log entry 69). The
gang events (R211 to R213, R235, R237, R238, R243, R247 to R249, R325), for a gang of any number of members: the barrier
completes when every member is in it, agreeing, or cancels it; then the operation agreed is accepted, and every member that is
still in its barrier goes on, at the word after the one it was BLOCKED on (R98): a swap exchanges the planes of every member; a
slice load makes every member's shadow plane under the largest exponent of them all; a pass that overlaps a member's record is
refused with DUP, one that would leave a member nine fragments with FRAG, on every member, and else it is queued and its
interval is in every record; BARR answers the OR of all the values. A full pass queue, a pass on the shadow plane, or an
operation of another gang on one of its cores whose barrier completed before (R239, R245), leaves the members in the barrier. A
pass waits for one that was accepted before it on one of its cores (R245), and reads its operand rows as they stand when it
completes (R249; log entry 68). The oldest pass leaves the queue and every element of its members' tiles takes the blocks of its
operand row: the exact block sums, scaled, and one rounding (R198, R205, R209 to R213). The downshift kept for a NaN block is
log entry 68. -/
def Obligations.Gangs : Prop :=
  (∀ (s : State) (tl : BitVec 3) (d a b : BitVec 5), s.Plain →
    let allowed := ∀ f ∈ s.cur.frames.head?, f.vec = true
    (¬ allowed → ∀ i ∈ [Instr.ldsG a, .swsG, .mmaG tl a b], Faults s i { cause := 0x1A }) ∧ (allowed →
    let t := s.cur
    let entered := fun (i : Instr) (x y : Word) (failed : Option FaultInfo) (s2 : State) (gk : Nat) (g : Gang) =>
      ({ s2 with gangs := tabPut s2.gangs gk { g with entered := g.entered ++
        [{ core := s2.core, slot := s2.slot, instr := i, pfx := none, a := x, b := y, failed := failed, gen := t.gen, unwound := t.unwound }] } } : State)
    let s1 := s.finishVec s.core s.slot
    (∀ i ∈ [Instr.ldsG a, .swsG, .mmaG tl a b, .barr d a], t.gang = none → Faults s i { cause := 0x0B }) ∧
    (∀ gk g0 g, t.gang = some gk → tabFind s.gangs gk = some g0 → tabFind s1.gangs gk = some g →
      Blocks s .swsG (entered .swsG 0 0 none s1 gk g) .gang ∧
      (t.getX b >>> 32 ≠ 0 → Blocks s (.mmaG tl a b)
        (entered (.mmaG tl a b) (t.getX a) (t.getX b) (some { cause := 0x0A }) s1 gk g) .gang) ∧
      ((t.getX a).extractLsb' 0 6 ≠ 0#6 → Blocks s (.ldsG a)
        (entered (.ldsG a) (t.getX a) 0 (some { cause := 0x03, addr := some (t.getX a) }) s1 gk g) .gang)) ∧
    (∀ gk g0 g s2, t.gang = some gk → tabFind s.gangs gk = some g0 → tabFind s2.gangs gk = some g →
      checkRange (t.getX a) 2112 s1 = .ok () s1 →
      checkRights s1.core s1.cur.lease s1.cur.dom.toNat (t.getX a).toNat { write := false, fetch := false } s1 = .ok () s2 →
      Blocks s (.ldsG a) (entered (.ldsG a) (t.getX a) 0 none s2 gk g) .gang) ∧
    (∀ gk g0 g, t.gang = some gk → tabFind s.gangs gk = some g0 → tabFind s1.gangs gk = some g →
      (t.getX b) >>> 32 = 0 → (t.getX b).extractLsb' 5 3 = 0#3 → ((t.getX b).toNat / 256) + 32 ≤ 0xFFFFFF →
      (s1.lcoreAt s1.cur.lease s1.core).active.bi4 = false →
      checkRange (t.getX a) (64 * ((t.getX b).toNat % 32 + 1)) s1 = .ok () s1 →
      Blocks s (.mmaG tl a b) (entered (.mmaG tl a b) (t.getX a) (t.getX b) none s1 gk g) .gang) ∧
    (∀ gk g0 g, t.gang = some gk → tabFind s.gangs gk = some g0 →
      let s2 := ((s1.finishVecMem s1.core s1.slot).orderHomes s1.core s1.slot)
      let s3 := s2.drainSlot s2.core s2.slot
      tabFind s3.gangs gk = some g → Blocks s (.barr d a) (entered (.barr d a) (t.getX a) 0 none s3 gk g) .gang))) ∧
  (let blocks := fun (bi4 : Bool) => if bi4 then 2 else 1
  (∀ (l : LCore) (p : Pass) (r : Nat), (passBlocks l p r).length = blocks p.bi4 ∧ ∀ b, b < blocks p.bi4 →
    let at_ := p.addr + if p.bi4 then 128 * r + 64 * b else 64 * r
    let block := (passBlocks l p r).getD b ([], 0)
    block.2 = (l.spadByte (at_ + if p.bi4 then 16 else 32)).toNat ∧ ∀ k, k < 32 → block.1.getD k 0 =
      if p.bi4 then ((l.spadByte (at_ + k / 2)).extractLsb' (4 * (k % 2)) 4).toInt else (l.spadByte (at_ + k)).toInt) ∧
  (∀ (acc : Lane) (p : Plane) (n lead : Nat) (rows : List (List Int × Nat)),
    let a := fun (b : Nat) => rows.getD b ([], 0)
    let sum := fun (b : Nat) => ((List.range 32).map fun k => (a b).1.getD k 0 * p.w n (32 * b + k)).sum
    let ex := fun (b : Nat) => (((a b).2 : Int) - 127) + ((lead : Int) - 127) - (p.shift n b : Int)
    let nan := ∃ b, b < rows.length ∧ ((a b).2 = 255 ∨ p.nan n b = true)
    let some_ := ∃ b, b < rows.length ∧ sum b ≠ 0
    (nan → passElem acc p n rows lead = (canonNaN, true)) ∧ (¬ nan → ¬ some_ → passElem acc p n rows lead = (acc, false)) ∧
    (¬ nan → some_ → (fpIsNaN acc = true → passElem acc p n rows lead = (canonNaN, false)) ∧
      (fpIsInf acc = true → passElem acc p n rows lead = (acc, false)) ∧
      (∀ g m e, fpVal acc = .fin g m e →
        let q := (List.range rows.length).foldl (fun q b => min q (ex b)) e
        let v : Int := (if g then -(m : Int) else (m : Int)) * 2 ^ (e - q).toNat +
          ((List.range rows.length).map fun b => sum b * 2 ^ (ex b - q).toNat).sum
        passElem acc p n rows lead = (if v = 0 then 0#32 else (roundFp 0 (decide (v < 0)) v.natAbs q).1, false)))) ∧
  (∀ (bi4 : Bool) (bs : List Byte) (t : Nat),
    let ew := fun (n b : Nat) => (bs.getD (if bi4 then 2048 + 2 * n + b else 2048 + n) 0#8).toNat
    let plane := (planeOf bi4 bs t).1
    plane.bi4 = bi4 ∧ plane.t = t ∧
    ((planeOf bi4 bs t).2 = true ↔ ∃ n b, n < 64 ∧ b < blocks bi4 ∧ ew n b ≠ 255 ∧ 15 < t - ew n b) ∧
    (∀ n b, n < 64 → b < blocks bi4 → (plane.nan n b = true ↔ ew n b = 255) ∧
      plane.shift n b = if ew n b = 255 then 0 else min 15 (t - ew n b)) ∧
    (∀ n k, n < 64 → k < 32 * blocks bi4 →
      let x := bs.getD (32 * n + if bi4 then k / 2 else k) 0#8
      let w := if bi4 then (x.extractLsb' (4 * (k % 2)) 4).toInt else x.toInt
      let e := ew n (k / 32)
      let y := plane.w n k
      ((e = 255 ∨ t - e ≤ 15) → y = w) ∧
      (e ≠ 255 → 15 < t - e → let far := 2 * (w - y * 2 ^ (t - e - 15)).natAbs
        far ≤ 2 ^ (t - e - 15) ∧ (far = 2 ^ (t - e - 15) → y % 2 = 0))) ∧
    (∀ n b, n < 64 → b < blocks bi4 → ew n b ≠ 255 → ew n b ≤ sliceMax bi4 bs) ∧
    (sliceMax bi4 bs = 0 ∨ ∃ n b, n < 64 ∧ b < blocks bi4 ∧ ew n b ≠ 255 ∧ ew n b = sliceMax bi4 bs)) ∧
  ∀ (s : State) (g : Gang), tabFind s.gangs s.ev.a = some g →
    let c := fun (e : Entrant) (u : State) => u.slotAt e.core e.slot
    let inside := fun (e : Entrant) => (c e s).gen = e.gen ∧ (c e s).unwound = e.unwound ∧ (c e s).st = .blocked .gang
    let free : State := { s with gangs := tabPut s.gangs s.ev.a { g with op := [], agreed := false } }
    let same := fun (e m : Entrant) => e.pfx = m.pfx ∧ ((∃ a a', e.instr = .ldsG a ∧ m.instr = .ldsG a') ∨ (e.instr = .swsG ∧ m.instr = .swsG) ∨
      (∃ t a b a' b', e.instr = .mmaG t a b ∧ m.instr = .mmaG t a' b' ∧ e.a = m.a ∧ e.b = m.b) ∨
      (∃ d a a', e.instr = .barr d a ∧ m.instr = .barr d a'))
    let behind := ∃ h ∈ s.gangs, h.1 ≠ s.ev.a ∧ h.2.agreed = true ∧ h.2.acts = true ∧ (∃ r ∈ h.2.rows, r ∈ g.rows) ∧ h.2.turn < g.turn
    let accepted := fun (e : Entrant) => g.agreed = true ∧ (∃ rest, g.op = e :: rest) ∧ (g.op.map fun m => (m.core, m.slot)).Nodup ∧
      (behind → ∃ d a, e.instr = .barr d a)
    let go := fun (x : Slot → Slot) (passes : List Pass) (u : State) => Runs .gangOperationAccept s u ∧ u.mem = s.mem ∧
      (∀ m ∈ g.op, inside m → c m u = ((x (c m s)).complete .seq).goesOn (c m s).pc) ∧ (∀ m ∈ g.op, ¬ inside m → c m u = c m s) ∧
      ∃ v, tabFind u.gangs s.ev.a = some v ∧ v.op = [] ∧ v.agreed = false ∧ v.entered = g.entered ∧ v.passes = passes
    (g.agreed = false → g.entered.length = g.size → g.agrees = true →
      Runs .gangBarrierComplete s { s with gangs := tabPut s.gangs s.ev.a { g with entered := [], agreed := true, op := g.entered, turn := s.nextTurn } }) ∧
    (∀ h ∈ s.gangs, h.2.agreed = true → h.2.turn < s.nextTurn) ∧
    (∀ e rest, g.agreed = true → g.op = e :: rest → behind → (¬ ∃ d a, e.instr = .barr d a) → Runs .gangOperationAccept s s) ∧
    (g.agreed = false → g.entered.length = g.size → g.agrees = false → ∃ u, Runs .gangBarrierComplete s u ∧
      u = s.cancelGang s.ev.a g ∧ ∃ v, tabFind u.gangs s.ev.a = some v ∧ v.entered = []) ∧
    ((g.agreed = true ∨ g.entered.length ≠ g.size) → Runs .gangBarrierComplete s s) ∧
    (∀ e rest, g.entered = e :: rest → ((∃ a, e.instr = .ldsG a) ∨ e.instr = .swsG ∨ (∃ t a b, e.instr = .mmaG t a b) ∨ ∃ d a, e.instr = .barr d a) →
      (g.agrees = true ↔ e.failed = none ∧ ∀ m ∈ rest, m.failed = none ∧ same e m)) ∧
    (∀ e, accepted e → e.instr = .swsG → ∃ u, go id g.passes u ∧
      (g.cores.Nodup → ∀ m ∈ g.cores, u.lcoreAt g.lease m = { s.lcoreAt g.lease m with activeB := !(s.lcoreAt g.lease m).activeB, changed := true })) ∧
    (∀ e t a b, accepted e → e.instr = .mmaG t a b → g.passes.length < 4 →
      let l := fun (m : Nat) => s.lcoreAt g.lease m
      let k0 := e.b.toNat / 256 % 2 ^ 24
      let k1 := k0 + if pfxBi4 e.pfx then 64 else 32
      let dup := ∃ m ∈ g.cores, ∃ f ∈ (l m).recOf false t.toNat, k0 < f.2 ∧ f.1 < k1
      let grown := fun (m : Nat) => insertFrag k0 k1 ((l m).recOf false t.toNat)
      (dup → ∃ u, go id g.passes u ∧ (g.cores.Nodup → ∀ m ∈ g.cores, u.lcoreAt g.lease m = { l m with mst := setBit (l m).mst 0 true })) ∧
      (¬ dup → (∃ m ∈ g.cores, 8 < (grown m).length) → ∃ u, go id g.passes u ∧
        (g.cores.Nodup → ∀ m ∈ g.cores, u.lcoreAt g.lease m = { l m with mst := setBit (l m).mst 1 true })) ∧
      (¬ dup → (∀ m ∈ g.cores, (grown m).length ≤ 8) → ∃ u p, go id (g.passes ++ [p]) u ∧ p.tile = t.toNat ∧ p.m = e.b.toNat % 32 + 1 ∧
        p.k0 = k0 ∧ p.bi4 = pfxBi4 e.pfx ∧ p.addr = e.a.toNat - 0x7FFFFFF00000 ∧ p.poison = false ∧
        (∀ m, m ∈ p.planeB ↔ m ∈ g.cores ∧ (l m).activeB = true) ∧
        (g.cores.Nodup → ∀ m ∈ g.cores, (u.lcoreAt g.lease m).recOf false t.toNat = grown m ∧
          (u.lcoreAt g.lease m).mst = setBit (l m).mst (8 + t.toNat) true))) ∧
    (∀ e a T, accepted e → e.instr = .ldsG a → s.shadowInUse g = false → (g.op.map (·.core)).Nodup →
      (∀ m ∈ g.op, (s.lcoreAt g.lease m.core).spadPoison = []) →
      let l := fun (m : Entrant) (u : State) => u.lcoreAt g.lease m.core
      let bytes := fun (m : Entrant) => (l m s).spadBytes (m.a.toNat - 0x7FFFFFF00000) (if pfxBi4 m.pfx then 2176 else 2112)
      let largest := fun (m : Entrant) => sliceMax (pfxBi4 m.pfx) (bytes m)
      (∀ m ∈ g.op, largest m ≤ T) → (∃ m ∈ g.op, largest m = T) → ∃ u, go id g.passes u ∧ ∀ m ∈ g.op,
        (if (l m u).activeB then (l m u).planeA else (l m u).planeB) = (planeOf (pfxBi4 m.pfx) (bytes m) T).1 ∧
        (l m u).active = (l m s).active ∧ (l m u).activeB = (l m s).activeB ∧ (l m u).skb.extractLsb' 16 8 = BitVec.ofNat 8 T ∧
        (l m u).mst = (if (planeOf (pfxBi4 m.pfx) (bytes m) T).2 then setBit (l m s).mst 2 true else (l m s).mst)) ∧
    (∀ e d a, accepted e → e.instr = .barr d a → ∃ u, go (·.setX d ((g.op.map (·.a)).foldl (· ||| ·) 0)) g.passes u ∧ u.lcores = s.lcores) ∧
    (∀ e rest t a b, g.agreed = true → g.op = e :: rest → e.instr = .mmaG t a b → 4 ≤ g.passes.length → Runs .gangOperationAccept s s) ∧
    (∀ e rest a, g.agreed = true → g.op = e :: rest → e.instr = .ldsG a → s.shadowInUse g = true → Runs .gangOperationAccept s s) ∧
    (∀ e d a, g.agreed = true → g.op = [e] → e.instr = .barr d a → ¬ inside e → Runs .gangOperationAccept s (free.countStale g.lease)) ∧
    ((g.agreed = false ∨ g.op = []) → Runs .gangOperationAccept s s) ∧
    let earlier := fun (p : Pass) => ∃ h ∈ s.gangs, h.1 ≠ s.ev.a ∧ (∃ r ∈ h.2.rows, r ∈ g.rows) ∧ ∃ q qs, h.2.passes = q :: qs ∧ q.no < p.no
    (∀ p ps, g.passes = p :: ps → earlier p → Runs .passComplete s s) ∧
    (∀ p ps, g.passes = p :: ps → ¬ earlier p → p.poison = false → (s.lcoreAt g.lease g.lead).spadPoison = [] → g.cores.Nodup →
      (∀ m ∈ g.cores, (s.lcoreAt g.lease m).planePoison = [] ∧ (s.lcoreAt g.lease m).accPoison = []) → ∃ u, Runs .passComplete s u ∧
      (∃ v, tabFind u.gangs s.ev.a = some v ∧ v.passes = ps) ∧ u.mem = s.mem ∧ u.cores = s.cores ∧
      let lead := s.lcoreAt g.lease g.lead
      let top := if p.planeB.contains g.lead then lead.planeB.t else lead.planeA.t
      ∀ m ∈ g.cores, ∀ r n, r < p.m → n < 64 →
        let l := s.lcoreAt g.lease m
        (u.lcoreAt g.lease m).elem false p.tile r n =
          (passElem (l.elem false p.tile r n) (if p.planeB.contains m then l.planeB else l.planeA) n (passBlocks lead p r) top).1 ∧
        ((passElem (l.elem false p.tile r n) (if p.planeB.contains m then l.planeB else l.planeA) n (passBlocks lead p r) top).2 = true →
          (u.lcoreAt g.lease m).mst.getLsbD 3 = true)) ∧
    (g.passes = [] → Runs .passComplete s s))

/-- The matrix forms of one core (R98, R245, R250 to R253, R255, R366): in a callee without vectors each faults with GVEC; else MWAIT completes where no pass that was
accepted before it is in flight on a tile of its mask, and else is BLOCKED, as ASWAP is while a pass on its tile, a vector command of
its slot or an ASWAP on its tile that the core issued before is; MZERO, which stalls while such an ASWAP waits, clears a tile and its record, once the passes on it are done; ASWAP exchanges the banks of a tile whose record is exactly [0, K), or by force; MREC shows a
record; MSTAT answers `mst`, its BUSY bits as of issue and its sticky bits once the slot's
vector commands and its gang's passes have reported (R118), and clears the sticky bits it names. -/
def Obligations.CoreMatrixForms : Prop :=
  ∀ (s : State) (tl : BitVec 3) (d a b : BitVec 5), s.Plain →
    let allowed := ∀ f ∈ s.cur.frames.head?, f.vec = true
    (¬ allowed → ∀ i ∈ [Instr.mwait a, .mzero tl, .aswap d tl b, .mrec d tl b, .mstat d a], Faults s i { cause := 0x1A }) ∧ (allowed →
    let l := s.lcoreAt s.cur.lease s.core
    let w := s.cur.getX b
    let swaps := ∃ k ∈ (s.coreAt s.core).slots, ∃ e c n, k.2.st = .blocked (.swap e tl c n) ∧ k.2.lease = s.cur.lease
    let k := w.toNat % 2 ^ 24
    let mask := (s.cur.getX a).setWidth 8
    (s.passBefore s.cur.lease s.core mask s.passNo = true → Blocks s (.mwait a) s (.passes mask s.passNo)) ∧
    (s.passBefore s.cur.lease s.core mask s.passNo = false → Completes s (.mwait a) s) ∧
    (w >>> 32 = 0 → w.extractLsb' 24 7 = 0#7 → k ≠ 0 →
      (s.passOnTile s.cur.lease s.core tl.toNat = true ∨ (∃ v ∈ (s.coreAt s.core).vecq, v.slot = s.slot ∧ v.gen = s.cur.gen) ∨ swaps) →
      Blocks s (.aswap d tl b) s (.swap d tl b (s.nextSwap s.core))) ∧
    (∀ k ∈ (s.coreAt s.core).slots, ∀ e u c n, k.2.st = .blocked (.swap e u c n) → n < s.nextSwap s.core) ∧
    (swaps → Runs (.mzero tl) s (s.setCore s.core { s.coreAt s.core with stalled := true })) ∧
    (let s1 := s.finishVec s.core s.slot
      let s2 := s1.finishGang s1.cur.gang
      let l2 := s2.lcoreAt s2.cur.lease s2.core
      let s3 := s2.setLCore s2.cur.lease s2.core { l2 with mst := l2.mst &&& ~~~(((s2.cur.getX a).extractLsb' 0 5).zeroExtend 16) }
      Completes s (.mstat d a) (s3.setCur (s3.cur.setX d (((l.mst &&& 0xFF00#16) ||| (l2.mst &&& 0xFF#16)).zeroExtend 64)))) ∧
    let put := fun (l : LCore) => s.setLCore s.cur.lease s.core l
    let done := fun (i : Instr) (s1 : State) (x : Word) => Completes s i (s1.setCur (s1.cur.setX d x))
    let idle := ∀ v ∈ (s.coreAt s.core).vecq, v.slot ≠ s.slot
    (let s1 := s.finishVec s.core s.slot
      let s2 := s1.finishTile s1.cur.lease s1.core tl.toNat s1.passFuel
      let l2 := s2.lcoreAt s2.cur.lease s2.core
      (idle → s.passOnTile s.cur.lease s.core tl.toNat = false → s2 = s) ∧
      ∃ l', (¬ swaps → Completes s (.mzero tl) (s2.setLCore s2.cur.lease s2.core l')) ∧ l'.recOf false tl.toNat = [] ∧
        (∀ r n, r < 32 → n < 64 → l'.elem false tl.toNat r n = 0 ∧ accKey false tl.toNat r n ∉ l'.accPoison) ∧
        (∀ t r n, r < 32 → n < 64 → t ≠ tl.toNat → l'.elem false t r n = l2.elem false t r n) ∧ l'.vis = l2.vis) ∧
    ((w >>> 32 ≠ 0 ∨ w.extractLsb' 24 7 ≠ 0#7 ∨ k = 0) → done (.aswap d tl b) s 2) ∧
    let free := s.passOnTile s.cur.lease s.core tl.toNat = false ∧ (∀ v ∈ (s.coreAt s.core).vecq, ¬ (v.slot = s.slot ∧ v.gen = s.cur.gen)) ∧ ¬ swaps
    (free → w >>> 32 = 0 → w.extractLsb' 24 7 = 0#7 → k ≠ 0 → w.getLsbD 31 = false → l.recOf false tl.toNat ≠ [(0, k)] → done (.aswap d tl b) s 1) ∧
    (free → w >>> 32 = 0 → w.extractLsb' 24 7 = 0#7 → k ≠ 0 → (w.getLsbD 31 = true ∨ l.recOf false tl.toNat = [(0, k)]) →
      done (.aswap d tl b) (put (l.swapTile tl.toNat)) 0 ∧
      (l.swapTile tl.toNat).recOf true tl.toNat = l.recOf false tl.toNat ∧ (l.swapTile tl.toNat).recOf false tl.toNat = l.recOf true tl.toNat) ∧
    (16 ≤ w.toNat → Writes s (.mrec d tl b) d 0xFFFFFFFFFFFFFFFF#64) ∧
    (w.toNat < 16 → let r := l.recOf (w.getLsbD 0) tl.toNat
      let f := r.getD (w.toNat / 2) (0, 0)
      Writes s (.mrec d tl b) d (BitVec.ofNat 64 (f.1 + f.2 * 2 ^ 24 + r.length * 2 ^ 48))) ∧
    (idle → s.cur.gang = none → done (.mstat d a) (put { l with mst := l.mst &&& ~~~(((s.cur.getX a).extractLsb' 0 5).zeroExtend 16) }) (l.mst.zeroExtend 64)))

/-! ### Gathers and copies -/

/-- The gather forms at issue (R265 to R268, R271, R272): GINIT of a bad shape, its header passing the
address checks, answers 5 without the engine; else each form, its
header's page checked, sends its request to the gather's home and is BLOCKED for the answer, GADD, GADDV and GABAND after a
release at pkg scope; GADD through an aperture to another node sends its contribution over the fabric, with its header's DVA there, and
is BLOCKED for the answer (R278); a header at the wrong place or an operand word with a reserved bit is its fault. The model's choices of order:
the fault of the operand word comes after the checks of the header's address and before its rights and translation (log entry 68, for GADDV 69),
and the header's address is checked before the shape of GINIT (R266, log entry 69). -/
def Obligations.GatherForms : Prop :=
  ∀ (s : State) (d a b : BitVec 5), s.Plain → (∀ f ∈ s.cur.frames.head?, f.vec = true) →
    let t := s.cur
    let ea := t.getX a
    let w := (t.getX b).toNat
    let sends := fun (i : Instr) (pa : Nat) (op : GatherOp) (s2 : State) =>
      let who : Asker := { core := s2.core, slot := s2.slot, gen := s2.cur.gen, lease := s2.cur.lease, inc := (s2.dieAt (dieOf s2.core)).inc, d := d, unwound := s2.cur.unwound }
      Blocks s i (s2.enqueueReq (homeOf pa) (.gather who pa op)) (.answer d)
    let released := fun (s : State) (s3 : State) => releaseM 2 (s.drainSlot s.core s.slot) = .ok () s3
    (ea.toNat % 64 = 0 → ea.toNat < 0x7FFFFFF00000 → (2 ^ 38 ≤ w ∨ 1 < gFmt w ∨ gK w = 0 ∨ 31 < w % 64) → Writes s (.ginit d a b) d 5) ∧
    (∀ pa s1, ¬ (2 ^ 38 ≤ w ∨ 1 < gFmt w ∨ gK w = 0 ∨ 31 < w % 64) → ginitPlace ea w s = .ok pa s1 →
      sends (.ginit d a b) pa (.init w) s1) ∧
    (∀ pa s1, gatherPlace ea false s = .ok pa s1 → sends (.gstat d a) pa .stat s1 ∧ sends (.grec d a b) pa (.record (min w 9)) s1) ∧
    (∀ pa s1 s2, gatherPlace ea true s = .ok pa s1 → released s1 s2 → sends (.gaband d a) pa .abandon s2) ∧
    (∀ pa s1 s2, ea.toNat % 64 = 0 → ea.toNat < 0x7FFFFFF00000 → w < 2 ^ 53 → gatherPlace ea true s = .ok pa s1 → released s1 s2 →
      let s3 := s2.finishVec s2.core s2.slot
      sends (.gaddv d a b) pa (.contribute false (bitsOf w 28 5) (bitsOf w 52 29) 0
        ((List.range 16).map fun i => (s3.cur.getV (w % 32)).extractLsb' (32 * i) 32)) (s3.charge t.account 1)) ∧
    (∀ pa s1 s2, ea.toNat % 64 = 0 → ea.toNat < 0x7FFFFFF00000 → w < 2 ^ 59 → w.testBit 4 = false →
      gatherPlace ea true s = .ok pa s1 → released s1 s2 →
      let s3 := s2.finishVec s2.core s2.slot
      let s3 := if w.testBit 3 then s3 else s3.finishTile s3.cur.lease s3.core (w % 8) s3.passFuel
      let l := s3.lcoreAt s3.cur.lease s3.core
      l.accPoison = [] → sends (.gadd d a b) pa (.contribute true (bitsOf w 28 5) (bitsOf w 52 29) (bitsOf w 58 53)
        ((List.range 2048).map fun i => l.elem (w.testBit 3) (w % 8) (i / 64) (i % 64))) (s3.charge t.account (2 * (64 - bitsOf w 58 53)))) ∧
    (∀ i ∈ [Instr.ginit d a b, .gaddv d a b], ea.toNat % 64 = 0 → (2 ^ 48 ≤ ea.toNat → Faults s i { cause := 0x04, addr := some ea }) ∧
      (2 ^ 47 ≤ ea.toNat → ea.toNat < 2 ^ 48 → Faults s i { cause := 0x06, addr := some ea }) ∧
      (0x7FFFFFF00000 ≤ ea.toNat → ea.toNat < 2 ^ 47 → Faults s i { cause := 0x0C, addr := some ea })) ∧
    (ea.toNat % 64 ≠ 0 → Faults s (.ginit d a b) { cause := 0x03, addr := some ea } ∧ Faults s (.gadd d a b) { cause := 0x03, addr := some ea } ∧ Faults s (.gaddv d a b) { cause := 0x03, addr := some ea }) ∧
    (ea.toNat % 64 = 0 → ea.toNat < 0x7FFFFFF00000 → (2 ^ 59 ≤ w ∨ w.testBit 4 = true) → Faults s (.gadd d a b) { cause := 0x0A }) ∧
    (∀ node base s2, ea.toNat % 64 = 0 → 2 ^ 47 ≤ ea.toNat → ea.toNat < 2 ^ 48 → w < 2 ^ 59 → w.testBit 4 = false →
      let s1 := (s.finishVecMem s.core s.slot).orderHomes s.core s.slot
      let t1 := s1.cur
      tabFind (s1.leaseD t1.lease).apertures (bitsOf ea.toNat 46 40) = some (true, node, base) → releaseM 3 (s1.drainSlot s1.core s1.slot) = .ok () s2 →
      let s3 := s2.finishVec s2.core s2.slot
      let s3 := if w.testBit 3 then s3 else s3.finishTile s3.cur.lease s3.core (w % 8) s3.passFuel
      let l := s3.lcoreAt s3.cur.lease s3.core
      let dva := base + bitsOf ea.toNat 39 0
      let data := (List.range 2048).map fun i => l.elem (w.testBit 3) (w % 8) (i / 64) (i % 64)
      l.accPoison = [] → node ≠ s3.node →
      Blocks s (.gadd d a b) ((s3.charge t1.account (2 * (64 - bitsOf w 58 53))).sendFabric
        { id := 0, core := s1.core, slot := s1.slot, gen := t1.gen, lease := t1.lease, tag := t1.tag, kind := 1, counted := false,
          dest := node * 8192, copyId := 0, d := d, inc := (s1.dieAt (dieOf s1.core)).inc, type := 0, unwound := t1.unwound,
          data := [BitVec.ofNat 64 dva, BitVec.ofNat 64 (bitsOf w 28 5), BitVec.ofNat 64 (bitsOf w 52 29), BitVec.ofNat 64 (bitsOf w 58 53)] ++
            data.map fun x => x.zeroExtend 64 }) (.answer d))

/-- The copy forms and COLL at issue (R160 to R162, R166), and CWAIT and CSTAT (R165): a descriptor misaligned, outside the window
or failing its checks, which are written out first (that a reserved bit of PEER or TARGET is DESC is log entry 36, the sizes at SRC and DST of
a collective are log entry 21), faults, and its command is not accepted; a full queue stalls; an accepted one takes the next copy ID (the wrap
at 2^32 - 1 is log entry 38), enters the queue with what the slot held, and answers its ID; one credit for every 64 bytes of it, rounded up,
is on its way to the task's account, and to no other (R68); CWAIT waits while the status is 0. -/
def Obligations.CopyForms : Prop :=
  let local_ := fun (x : Nat) => 0x7FFFFFF00000 ≤ x ∧ x < 2 ^ 47
  let side := fun (win : Option (Nat × Nat)) (base stride len rows : Nat) => ∀ r, r < rows →
    let x := (base + r * stride) % 2 ^ 64
    let off := x - 0x7FFFFFF00000
    (local_ base → local_ x ∧ off + len ≤ 0x3F808 ∧ ∀ lo n, win = some (lo, n) → lo ≤ off ∧ off + len ≤ lo + n) ∧
    (¬ local_ base → x + len ≤ 0x7FFFFFF00000 ∨ (2 ^ 47 ≤ x ∧ x + len ≤ 2 ^ 64))
  (∀ (s : State) (c lease : Nat) (win : Option (Nat × Nat)) (kind : CopyKind) (desc : List Byte),
    let f := fun (i n : Nat) => leNat ((desc.drop i).take n)
    let src := f 0 8
    let dst := f 8 8
    let len := f 16 4
    let rows := f 20 2
    let mode := f 22 1
    let type := f 23 1
    let peer := f 40 8
    let target := f 48 8
    let here := peer.testBit 12 = true ∨ peer / 2 ^ 13 % 2 ^ 19 = s.node
    s.descOk c lease win kind desc = true ↔
      len ≠ 0 ∧ rows ≠ 0 ∧ len * rows ≤ 2 ^ 32 ∧ mode < 4 ∧ (mode = 2 → type < 0xF0 ∧ target < 2 ^ 32) ∧ (mode ≠ 2 → type = 0) ∧
      (mode = 1 → target < 8) ∧ ((mode = 0 ∨ mode = 3) → target = 0 ∧ f 56 8 = 0) ∧
      (peer = 0 ∨ (peer < 2 ^ 32 ∧ (here ∨ s.routed lease (peer / 2 ^ 13 % 2 ^ 19) = true))) ∧
      (kind = .read → ¬ local_ src ∧ local_ dst ∧ peer = 0) ∧ (kind = .write → local_ src ∧ (local_ dst → peer ≠ 0)) ∧
      (kind = .fill → src = 0 ∧ f 24 8 = 0) ∧ ((kind = .fill ∨ mode = 3) → dst % 8 = 0 ∧ len % 8 = 0 ∧ f 32 8 % 8 = 0) ∧
      (local_ dst → peer ≠ 0 → ¬ (here ∧ peer % 4096 = c) → mode = 2 ∧ target = peer) ∧
      (kind ≠ .fill → side win src (f 24 8) len rows) ∧ side win dst (f 32 8) len rows) ∧
  (∀ (s : State) (lease : Nat) (win : Option (Nat × Nat)) (desc : List Byte),
    let f := fun (i n : Nat) => leNat ((desc.drop i).take n)
    let op := f 0 1
    let count := f 24 8
    let mode := f 32 1
    let size := if f 1 1 = 1 then 2 else 4
    s.collOk lease win desc = true ↔ ∃ n ms, s.groupOf lease (f 4 4) = some (n, ms) ∧ ms.length = n ∧ (∃ m ∈ ms, m.2 = (s.node, lease)) ∧
      op < 4 ∧ f 1 1 < 3 ∧ (op = 3 → f 2 2 < n) ∧ (op ≠ 3 → f 2 2 = 0) ∧ count ≠ 0 ∧ count < 2 ^ 32 ∧ (mode = 1 ∨ mode = 2) ∧
      (mode = 2 → f 33 1 < 0xF0 ∧ f 48 8 < 2 ^ 32) ∧ (mode = 1 → f 33 1 = 0 ∧ f 48 8 < 8) ∧ (desc.drop 34).take 14 = List.replicate 14 0#8 ∧
      side win (f 8 8) 0 (count * size) 1 ∧
      side win (f 16 8) 0 ((if op = 1 then (count + n - 1) / n else if op = 2 then count * n else count) * size) 1) ∧
  ∀ (s : State) (d a b : BitVec 5), s.Plain →
    let t := s.cur
    let ea := t.getX a
    let st := (s.lcoreAt t.lease s.core).copyStatus (ea.toNat % 2 ^ 32)
    (∀ i ∈ [Instr.crd d a, .cwr d a, .cmov d a, .cfill d a b, .coll d a],
      (ea.extractLsb' 0 6 ≠ 0#6 → Faults s i { cause := 0x03, addr := some ea }) ∧
      (ea.extractLsb' 0 6 = 0#6 → ¬ (0x7FFFFFF00000 ≤ ea.toNat ∧ ea.toNat < 2 ^ 47) → Faults s i { cause := 0x07, addr := some ea }) ∧
      (ea.extractLsb' 0 6 = 0#6 → 0x7FFFFFF00000 ≤ ea.toNat → ea.toNat < 2 ^ 47 → 2 ≤ (s.coreAt s.core).copyq.length →
        Runs i s (s.setCore s.core { s.coreAt s.core with stalled := true }))) ∧
    (∀ e ∈ [(Instr.crd d a, CopyKind.read, none), (.cwr d a, .write, none), (.cmov d a, .move, none), (.cfill d a b, .fill, some (t.getX b))],
      ∀ desc s1, readDesc ea s = .ok desc s1 →
      (s1.descOk s1.core t.lease t.window e.2.1 desc = false → Runs e.1 s (s1.takeFault s.core s.slot { cause := 0x09, addr := some ea } 0 .fault)) ∧
      (s1.descOk s1.core t.lease t.window e.2.1 desc = true → s1.cur = t → s1.core = s.core → s1.slot = s.slot →
        let l := s1.lcoreAt t.lease s1.core
        let id := copyIdOf (l.copyId + 1)
        ∃ u, Runs e.1 s u ∧ u.mem = s1.mem ∧ u.cur = { (t.setX d (BitVec.ofNat 64 id)).complete .seq with st := t.st } ∧
          (u.lcoreAt t.lease s1.core).copyStatus id = 0 ∧
          tabGet 0 u.pending t.account = tabGet 0 s1.pending t.account + (leNat ((desc.drop 16).take 4) * leNat ((desc.drop 20).take 2) + 63) / 64 ∧
          (∀ n, n ≠ t.account → tabGet 0 u.pending n = tabGet 0 s1.pending n) ∧
          ∃ q, (u.coreAt s1.core).copyq = (s1.coreAt s1.core).copyq ++ [q] ∧ q.id = id ∧ q.desc = desc ∧ q.slot = s1.slot ∧ q.gen = t.gen ∧
            q.lease = t.lease ∧ q.dom = t.dom ∧ q.depth = t.queueDepth ∧ q.fillPat = e.2.2 ∧ q.coll = false ∧ q.active = false ∧ q.done = 0)) ∧
    (∀ desc s1, readDesc ea s = .ok desc s1 →
      (s1.collOk t.lease t.window desc = false → Runs (.coll d a) s (s1.takeFault s.core s.slot { cause := 0x09, addr := some ea } 0 .fault)) ∧
      (s1.collOk t.lease t.window desc = true → s1.cur = t → s1.core = s.core → s1.slot = s.slot →
        let id := copyIdOf ((s1.lcoreAt t.lease s1.core).copyId + 1)
        ∃ u, Runs (.coll d a) s u ∧ u.mem = s1.mem ∧ u.cur.getX d = (if d = 0 then 0 else BitVec.ofNat 64 id) ∧
          tabGet 0 u.pending t.account = tabGet 0 s1.pending t.account +
            (leNat ((desc.drop 24).take 8) * (if leNat ((desc.drop 1).take 1) = 1 then 2 else 4) + 63) / 64 ∧
          ∃ q, (u.coreAt s1.core).copyq = (s1.coreAt s1.core).copyq ++ [q] ∧ q.id = id ∧ q.desc = desc ∧ q.coll = true ∧ q.gen = t.gen)) ∧
    Writes s (.cstat d a) d (BitVec.ofNat 64 st) ∧
    (st = 0 → Blocks s (.cwait d a) s (.on (.cwait d a))) ∧
    (st ≠ 0 → Writes s (.cwait d a) d (BitVec.ofNat 64 st))

/-! ### Messages, joins, launches, waits and gates -/

/-- SEND and SENDC (R41, R43, R153, R154): the refusals in their order, each answering its status with nothing changed; a message
to this device that finds room is counted where its sender's launch counts it and is on its way, with its arguments from x10 up; one
that names this node without LOCAL is admitted first (R401, R403; log entry 25); one to another device leaves where its port accepts it,
which is a free value (log entry 55), with its work identifier and its sender word, LOCAL clear in it (R42, R45); with no room or no acceptance, SENDC answers
FULL and SEND is BLOCKED. -/
def Obligations.SendForms : Prop :=
  ∀ (s : State) (d a b : BitVec 5), s.Plain →
    let t := s.cur
    let w := t.getX a
    let tw := t.getX b
    let type := tw.toNat % 256
    let argc := tw.toNat / 256 % 8
    let badArg := 2 ^ 32 ≤ w.toNat ∨ 2 ^ 11 ≤ tw.toNat ∨ 6 < argc
    let badType := 0xF0 ≤ type ∧ type ≠ 0xFE
    let c := w.toNat % 4096
    let args := (List.range argc).map fun i => t.getX (BitVec.ofNat 5 (10 + i))
    let msg := fun (l : Nat) => s.msgOf s.core s.slot type l c args
    let count := fun (l : Nat) => t.member && l == t.lease && decide (type < 0xF0)
    let form := fun (i : Instr) (st : Word) => Writes s i d st
    (∀ i ∈ [Instr.send d a b, .sendc d a b],
      (badArg → form i 3) ∧ (¬ badArg → badType → form i 2) ∧ (¬ badArg → type = 0xFE → argc ≠ 4 → form i 3) ∧
      (¬ badArg → ¬ badType → ¬ (type = 0xFE ∧ argc ≠ 4) → s.localWord w = true → s.destLease t.lease c = none → form i 4) ∧
      (¬ badArg → ¬ badType → ¬ (type = 0xFE ∧ argc ≠ 4) → s.localWord w = false → s.routed t.lease (w.toNat / 2 ^ 13 % 2 ^ 19) = false → form i 5) ∧
      (∀ l s1, ¬ badArg → ¬ badType → ¬ (type = 0xFE ∧ argc ≠ 4) → s.localWord w = true → s.destLease t.lease c = some l →
        (s.ownWord w = true → s.sendOwn s.core (msg l) = (s1, true) → Completes s i (s1.setCur (s1.cur.setX d 0))) ∧
        (s.ownWord w = false → s.deliver (msg l) (count l) = (s1, true) → Completes s i (s1.setCur (s1.cur.setX d 0)) ∧
        ∃ m, (s1.coreAt c).transit.getLast? = some m ∧ m.type = type ∧ m.args = args ∧ m.lease = l ∧ m.tag = t.tag ∧ m.wid = t.wid ∧
          m.sender = slotSender s.node s.core s.slot t))) ∧
    (∀ l s1, ¬ badArg → ¬ badType → ¬ (type = 0xFE ∧ argc ≠ 4) → s.localWord w = true → s.destLease t.lease c = some l →
      (if s.ownWord w then s.sendOwn s.core (msg l) else s.deliver (msg l) (count l)) = (s1, false) →
      form (.sendc d a b) 1 ∧ Blocks s (.send d a b) s (.on (.send d a b))) ∧
    (¬ badArg → ¬ badType → ¬ (type = 0xFE ∧ argc ≠ 4) → s.localWord w = false → s.routed t.lease (w.toNat / 2 ^ 13 % 2 ^ 19) = true →
      let s1 := { s with free := s.free + 1 }
      let s2 := s1.sendAway s.core s.slot w type args
      if Config.freeAccept s.free = true then
        Completes s (.send d a b) (s2.setCur (s2.cur.setX d 0)) ∧ Completes s (.sendc d a b) (s2.setCur (s2.cur.setX d 0)) ∧
        ∃ r, s2.fabric = s.fabric ++ [r] ∧ r.kind = 0 ∧ r.type = type ∧ r.data = args ∧ r.dest = w.toNat ∧ r.lease = t.lease ∧ r.tag = t.tag ∧
          r.wid = t.wid ∧ r.sender = slotSender s.node s.core s.slot t &&& ~~~0x1000#64 ∧ r.vc = .request
      else Completes s (.sendc d a b) (s1.setCur (s1.cur.setX d 1)) ∧ Blocks s (.send d a b) s1 (.on (.send d a b)))

/-- The joins, tags and LNCH (R94, R159, R327 to R329): TAGEN and TAGDIS answer the old enable and set it, hardware's types
staying as they are; TAGPD counts the queued messages of a type; JARM, in a callee on a word of its window alone, answers BADARG, BUSY or
arms the word, which a task of a launch counts in it (R89); JDEC refuses or, on its own core, decrements at once, and else is sent: to a word
of this node without LOCAL by way of the admission (log entry 25), to another device where its port accepts it, which is a free value (log
entry 55); in a callee an offset outside its window is SPAD (the order of its checks is log entry 36); a decrement of a word that is not armed
changes no join, counts in JFAULT and raises lease event 6, one by more than is left fires the join and counts in JOVER (R329, R331); LNCH reads its header and is BLOCKED until the distributor has decided (R98), which
SLOT_UNBLOCK performs: it completes with the launch's tag times 256, or the reason of its refusal, FULL where no tag is free. -/
def Obligations.JoinAndLaunchForms : Prop :=
  ∀ (s : State) (d a b : BitVec 5), s.Plain →
    let t := s.cur
    let l := s.lcoreAt t.lease s.core
    let type := (t.getX a).toNat % 256
    let bit := fun (c : Bool) => if c then 1#64 else 0#64
    let put := fun (l : LCore) => s.setLCore t.lease s.core l
    let done := fun (i : Instr) (s1 : State) (x : Word) => Completes s i (s1.setCur (s1.cur.setX d x))
    let w := (t.getX b).toNat
    let dst := (t.getX a)
    let off := w % 2 ^ 18
    let amount := w / 2 ^ 32
    let quiet := (s.coreAt s.core).vecq = [] ∧ ∀ h, (s.homeAt h).reqs = []
    let inside := ∀ base n, t.window = some (base, n) → base ≤ off ∧ off + 8 ≤ base + n
    let counted := fun (at_ : Nat) (l' : LCore) => l'.readSpad at_ 4 = min (l.readSpad at_ 4 + 1) (2 ^ 32 - 1) ∧
      (∀ x, (x < at_ ∨ at_ + 4 ≤ x) → l'.spadByte x = l.spadByte x) ∧ l' = { l with spad := l'.spad }
    let badDec := 2 ^ 32 ≤ dst.toNat ∨ w / 2 ^ 18 % 2 ^ 14 ≠ 0 ∨ amount = 0 ∨ off % 8 ≠ 0 ∨ 0x3F800 ≤ off
    (∀ e ∈ [(Instr.tagen d a, true), (.tagdis d a, false)],
      (0xF0 ≤ type → Writes s e.1 d (bit (l.enabled type))) ∧
      (type < 0xF0 → t.cls = 2 → done e.1 (put (l.setEnabled type e.2)) (bit (l.enabled type)) ∧ (l.setEnabled type e.2).enabled type = e.2 ∧
        ∀ u, u < 256 → u ≠ type → (l.setEnabled type e.2).enabled u = l.enabled u)) ∧
    (∀ e ∈ [(Instr.tagen d a, true), (.tagdis d a, false)], ∀ s1 v, type < 0xF0 → t.cls ≠ 2 → s.vtEntry s.core t.lease type = (s1, some v) →
      (v.dom ≠ t.dom.toNat → Runs e.1 s (s1.takeFault s.core s.slot { cause := causePriv } 0 .fault)) ∧
      (v.dom = t.dom.toNat → done e.1 (s1.setLCore s1.cur.lease s1.core ((s1.lcoreAt s1.cur.lease s1.core).setEnabled type e.2)) (bit (l.enabled type)))) ∧
    Writes s (.tagpd d a) d (BitVec.ofNat 64 (((List.range 3).map fun cls => ((s.coreAt s.core).queue cls).countP fun m => m.type == type).sum)) ∧
    ((t.getX a).extractLsb' 0 3 ≠ 0#3 → Faults s (.jarm d a b) { cause := 0x03, addr := some (t.getX a), write := true }) ∧
    (∀ base n, t.window = some (base, n) → dst.toNat % 8 = 0 → 0x7FFFFFF00000 ≤ dst.toNat → dst.toNat < 0x7FFFFFF00000 + 0x3F800 →
      (∃ e, ((s.coreAt s.core).plb.find? fun e => e.lease == t.lease && e.dom == t.dom.toNat && e.seg == dst.toNat / 2 ^ 21) = some e ∧ e.w = true) →
      (dst.toNat - 0x7FFFFFF00000 < base ∨ base + n < dst.toNat - 0x7FFFFFF00000 + 8) →
      Faults s (.jarm d a b) { cause := 0x07, addr := some dst, write := true }) ∧
    (∀ e, quiet → (∀ base n, t.window = some (base, n) → base ≤ dst.toNat - 0x7FFFFFF00000 ∧ dst.toNat - 0x7FFFFFF00000 + 8 ≤ base + n) →
      dst.toNat % 8 = 0 → 0x7FFFFFF00000 ≤ dst.toNat → dst.toNat < 0x7FFFFFF00000 + 0x3F800 →
      ((s.coreAt s.core).plb.find? fun e => e.lease == t.lease && e.dom == t.dom.toNat && e.seg == dst.toNat / 2 ^ 21) = some e → e.w = true →
      let at_ := dst.toNat - 0x7FFFFFF00000
      let j := l.readSpad at_ 8
      let bad := w / 2 ^ 40 % 4 ≠ 0 ∨ w % 2 ^ 32 = 0 ∨ 0xF0 ≤ w / 2 ^ 32 % 256
      let clean := l.spadPoisoned at_ 8 = false
      (bad → Writes s (.jarm d a b) d 2) ∧ (¬ bad → clean → (j.testBit 40 = true ∨ j.testBit 41 = true) → Writes s (.jarm d a b) d 1) ∧
      (¬ bad → clean → j.testBit 40 = false → j.testBit 41 = false → t.member = false →
        done (.jarm d a b) (put (l.writeSpad at_ (leBytes 8 (w + 2 ^ 40)))) 0) ∧
      (¬ bad → clean → j.testBit 40 = false → j.testBit 41 = false → t.member = true →
        let s1 := put (l.writeSpad at_ (leBytes 8 (w + 2 ^ 40)))
        done (.jarm d a b) (s1.countOpen t.lease t.tag).1 0 ∧
        (∀ v, s.liveLaunch t.lease t.tag = some v → ((s1.countOpen t.lease t.tag).1.liveLaunch t.lease t.tag).map (·.open_) = some (v.open_ + 1)))) ∧
    (badDec → Writes s (.jdec d a b) d 3) ∧
    (¬ badDec → ¬ inside → Faults s (.jdec d a b) { cause := 0x07, addr := some (BitVec.ofNat 64 (0x7FFFFFF00000 + off)) }) ∧
    (¬ badDec → inside → s.localWord dst = true → s.destLease t.lease (dst.toNat % 4096) = none → Writes s (.jdec d a b) d 4) ∧
    (¬ badDec → inside → s.localWord dst = false → s.routed t.lease (dst.toNat / 2 ^ 13 % 2 ^ 19) = false → Writes s (.jdec d a b) d 5) ∧
    (∀ n, quiet → ¬ badDec → inside → s.localWord dst = true → s.destLease t.lease (dst.toNat % 4096) = some n → dst.toNat % 4096 = s.core →
      (s.lcoreAt n s.core).spadPoisoned off 8 = false →
      done (.jdec d a b) (s.applyDec s.core n off amount t.tag) 0) ∧
    (∀ n s1, ¬ badDec → inside → s.localWord dst = true → s.destLease t.lease (dst.toNat % 4096) = some n → dst.toNat % 4096 ≠ s.core →
      let m : Msg := { s.msgOf s.core s.slot 0 n (dst.toNat % 4096) [] with jdec := some (off, amount) }
      let sent := if s.ownWord dst then s.sendOwn s.core m else s.deliver m (t.member && n == t.lease)
      (sent = (s1, true) → done (.jdec d a b) s1 0) ∧ (sent = (s1, false) → Blocks s (.jdec d a b) s (.on (.jdec d a b)))) ∧
    (¬ badDec → inside → s.localWord dst = false → s.routed t.lease (dst.toNat / 2 ^ 13 % 2 ^ 19) = true →
      let s1 := { s with free := s.free + 1 }
      if Config.freeAccept s.free = true then done (.jdec d a b) (s1.sendAway s.core s.slot dst 256 [BitVec.ofNat 64 off, BitVec.ofNat 64 amount]) 0
      else Blocks s (.jdec d a b) s1 (.on (.jdec d a b))) ∧
    (∀ j, l.spadPoisoned off 8 = false → l.readSpad off 8 = j → j.testBit 40 = true → amount < j % 2 ^ 32 →
      s.applyDec s.core t.lease off amount t.tag = put (l.writeSpad off (leBytes 8 (j - amount)))) ∧
    (∀ j, l.spadPoisoned off 8 = false → l.readSpad off 8 = j → j.testBit 40 = true → amount = j % 2 ^ 32 →
      s.applyDec s.core t.lease off amount t.tag =
        (put (l.writeSpad off (leBytes 8 (j - amount - 2 ^ 40)))).pushRec s.core t.lease (codeletRec (j / 2 ^ 32 % 256) t.tag off (j / 2 ^ 42 % 2 ^ 22))) ∧
    (∀ j, l.spadPoisoned off 8 = false → l.readSpad off 8 = j → j.testBit 40 = false → ∃ l', counted 0x3F81C l' ∧
        s.applyDec s.core t.lease off amount t.tag =
          (put l').raiseEvent t.lease s.core [6, BitVec.ofNat 64 off, BitVec.ofNat 64 amount, 0] t.tag) ∧
    (∀ j, l.spadPoisoned off 8 = false → l.readSpad off 8 = j → j.testBit 40 = true → j % 2 ^ 32 < amount → ∃ l', counted 0x3F818 l' ∧
        s.applyDec s.core t.lease off amount t.tag =
          (put (l'.writeSpad off (leBytes 8 (j - j % 2 ^ 32 - 2 ^ 40)))).pushRec s.core t.lease
            (codeletRec (j / 2 ^ 32 % 256) t.tag off (j / 2 ^ 42 % 2 ^ 22))) ∧
    ((t.getX a).toNat % 64 ≠ 0 → Faults s (.lnch d a) { cause := 0x03, addr := some (t.getX a) }) ∧
    (∀ pl s1 h s2, (t.getX a).toNat % 64 = 0 → accessM (t.getX a) 64 false s = .ok pl s1 → loadM s1.core s1.slot pl 64 false s1 = .ok h s2 →
      Blocks s (.lnch d a) s2 (.launch d h (t.getX a).toNat)) ∧
    (∀ h dva, s.ev.a = s.core → s.ev.b = s.slot → s.core < 4096 → s.slot < 8 → t.st = .blocked (.launch d h dva) →
      let now := fun (u : State) (x : Word) => ((u.cur.setX d x).complete .seq).goesOn t.pc
      (∀ s3 s4 tag, s.judgeHeader t.lease h = (s3, 0) → s3.openLaunch t.lease none h dva = some (s4, tag) →
        ∃ u, Runs .slotUnblock s u ∧ u.launches = s4.launches ∧ (s4.core = s.core → s4.slot = s.slot → u.cur = now s4 (BitVec.ofNat 64 (tag * 256)))) ∧
      (∀ s3 st, s.judgeHeader t.lease h = (s3, st) → st ≠ 0 →
        let s4 := s3.refuseHeader t.lease none h st
        ∃ u, Runs .slotUnblock s u ∧ u.launches = s4.launches ∧ (s4.core = s.core → s4.slot = s.slot → u.cur = now s4 (BitVec.ofNat 64 st))) ∧
      (∀ s3, s.judgeHeader t.lease h = (s3, 0) → (∀ tag, tag < 256 → (tabFind s3.launches tag).isSome = true ∨ s3.upcallBears tag = true) →
        let s4 := s3.refuseHeader t.lease none h 4
        ∃ u, Runs .slotUnblock s u ∧ u.launches = s4.launches ∧ (s4.core = s.core → s4.slot = s.slot → u.cur = now s4 4#64)))

/-- WAITA and WAKE (R317 to R323): in a callee WAITA is illegal, and a continuation type of hardware's is DESC; where the word does
not hold x[rs2] WAITA answers what it holds; where it does, an entry with the slot's arguments is recorded at the home, after
those that wait there (a full table first wakes its oldest, R319), the entry of a task of a launch counted in it as the ended task was
(R89), and the task ends. WAITA counts one request served by a home (R141). WAKE removes and sends the line's WAITA entries and answers how many. Where the core holds the right and the
die the line of its own home, and nothing of the slot is still to be performed, both complete with no other condition. -/
def Obligations.WaitForms : Prop :=
  ∀ (s : State) (d a b : BitVec 5), s.Plain →
    let t := s.cur
    (t.frames ≠ [] → Illegal s (.waita d a b)) ∧
    (t.frames = [] → 0xF0 ≤ t.ctype.toNat → Faults s (.waita d a b) { cause := 0x09 }) ∧
    (∀ dva x s1 s2, t.frames = [] → t.ctype.toNat < 0xF0 → watchWord (t.getX a) false s = .ok (dva, x) s1 → goHome dva x true s1 = .ok () s2 →
      s2.rangePoisoned (x.paOf dva) 8 = false →
      let v := BitVec.ofNat 64 (leNat (s2.homeRead (x.paOf dva) 8))
      let s3 := s2.touchHome x (x.paOf dva) 8
      let home := fun (u : State) => u.homeAt (homeOf (x.paOf dva))
      let live := s2.liveLaunch t.lease t.tag
      (v ≠ t.getX b → Completes s (.waita d a b) (s3.setCur (s3.cur.setX d v))) ∧
      (v = t.getX b → (∀ q ∈ (s2.coreAt s2.core).vecq, q.slot ≠ s2.slot) → s2.cur.counted = t.counted → s2.cur.tag = t.tag →
        ∃ u, Runs (.waita d a b) s u ∧ u.cur.st = .free ∧ u.mem = s2.mem ∧
          (∀ n, live = some n → (tabFind u.launches t.tag).map (·.open_) =
            some (n.open_ + (if t.member = true then 1 else 0) - if t.counted = true then 1 else 0)) ∧
          ∃ e, e.isLdf = false ∧ e.pa = x.paOf dva ∧ e.type = t.ctype.toNat ∧ e.counted = (t.member && live.isSome) ∧
            e.arg0 = t.getX 10 ∧ e.arg1 = t.getX 11 ∧ e.wid = t.wid ∧ e.lease = t.lease ∧ e.tag = t.tag ∧ e.core = s2.core ∧
            ((home s2).waits.length < 4096 → (home u).waits = (home s2).waits ++ [e] ∧ (home u).outbox = (home s2).outbox) ∧
            (∀ o rest, (home s2).waits = o :: rest → 4096 ≤ (home s2).waits.length → o.poison = false → o.isLdf = false →
              (home u).waits = rest ++ [e] ∧ (home u).outbox = (home s2).outbox ++ [o.message s2.node]))) ∧
    (∀ dva x s1, watchWord (t.getX a) true s = .ok (dva, x) s1 →
      let s2 := s1.drainSlot s1.core s1.slot
      let pa := x.paOf dva
      let hit := fun (w : WaitEntry) => !w.isLdf && w.pa / 64 == pa / 64
      let s3 := s2.wakeAll pa
      (∀ w ∈ (s2.homeAt (homeOf pa)).waits, w.poison = false) →
      Completes s (.wake d a) (s3.setCur (s3.cur.setX d (BitVec.ofNat 64 ((s2.homeAt (homeOf pa)).waits.countP hit)))) ∧
      (∀ w ∈ (s3.homeAt (homeOf pa)).waits, w.pa / 64 ≠ pa / 64) ∧
      (s3.homeAt (homeOf pa)).outbox = (s2.homeAt (homeOf pa)).outbox ++ ((s2.homeAt (homeOf pa)).waits.filter hit).map (·.message s2.node)) ∧
    (∀ (e : PlbEntry) (l : Line),
      let k := s.coreAt s.core
      let ea := (t.getX a).toNat
      let pa := l.x.paOf ea
      k.vecq = [] → k.sb = [] → (∀ h, (s.homeAt h).reqs = []) → ea % 8 = 0 → ea < 0x7FFFFFC00000 →
      (k.plb.find? fun e => e.lease == t.lease && e.dom == t.dom.toNat && e.seg == ea / 2 ^ 21) = some e →
      ((s.dieAt (dieOf s.core)).lines.find? fun l => l.x.lease == t.lease && l.line == ea / 64) = some l →
      l.remote = false → l.x.kind = 0 → windowOf pa ≤ 8 →
      (e.r = true → t.frames = [] → t.ctype.toNat < 0xF0 → s.rangePoisoned pa 8 = false →
        let v := BitVec.ofNat 64 (leNat (s.homeRead pa 8))
        let s1 := (s.countHome s.core (some s.slot) pa).touchRange pa 8 false
        v ≠ t.getX b → Completes s (.waita d a b) (s1.setCur (s1.cur.setX d v))) ∧
      (e.w = true → l.x.wc1 = true → l.x.wc2 = true → l.x.dirty = true → (s.homeAt (homeOf pa)).waits = [] →
        Completes s (.wake d a) ((s.wakeAll pa).setCur ((s.wakeAll pa).cur.setX d 0))))

/-- GATE, GRET and GQRY (R362, R363, R365, R367, R368): the fifth depth is GDEPTH and changes nothing, an entry that is not in use, malformed,
or the partition's while `gtb` is not locked is GENTRY, and one on whose code the domain has no G is PERM, all reported as GATE's own; a call
pushes the caller's frame and enters the callee with its arguments, its window in x2 and x3, and every other x register zero, and with VEC
its vectors zero, its predicates all ones and its queues empty; GRET is illegal at depth 0, and otherwise brings the caller back with x10 and
x11, its loop state and, with VEC, its vectors. -/
def Obligations.GateForms : Prop :=
  ∀ (s : State) (n : BitVec 6) (d a : BitVec 5), s.Plain →
    let t := s.cur
    let idle := ∀ v ∈ (s.coreAt s.core).vecq, v.slot ≠ s.slot
    -- the caller goes on after its GATE, which is a completed word of its loop body (`CompletedWord`)
    let resumes := fun (fr : Frame) (u : Slot) =>
      (fr.loops = 0#2 → u.pc = fr.pc ∧ u.lc = fr.lc ∧ u.ls = fr.ls ∧ u.le = fr.le) ∧
      ∃ w : Slot, w.pc = fr.pc - 4 ∧ w.lc = fr.lc ∧ w.ls = fr.ls ∧ w.le = fr.le ∧ (∀ l, l < 2 → w.loopOn l = fr.loops.getLsbD l) ∧
        let v := w.complete .seq
        u.pc = v.pc ∧ u.lc = v.lc ∧ u.ls = v.ls ∧ u.le = v.le ∧ ∀ l, l < 2 → u.loopOn l = v.loopOn l
    (t.frames.length = 4 → Faults s (.gate n) { cause := 0x18, gate := true }) ∧
    (∀ (l : Nat) (e : GateEntry),
      let sbase := bitsOf e.w1 49 32
      let ssize := bitsOf e.w2 17 0
      let formed := e.w0.testBit 60 = false ∧ bitsOf e.w0 59 56 ≤ 8 ∧ e.w0.testBit 47 = false ∧ bitsOf e.w0 1 0 = 0 ∧ bitsOf e.w1 63 50 = 0 ∧
        bitsOf e.w1 31 0 ≠ 0 ∧ sbase % 64 = 0 ∧ ssize % 64 = 0 ∧ sbase + ssize ≤ 0x3F800 ∧ bitsOf e.w2 63 18 = 0 ∧ e.w3 = 0
      (s.gateOk l e = true ↔ e.w0.testBit 63 = true ∧ formed ∧ (e.w0.testBit 62 = true → s.gtbIsLocked l = true))) ∧
    (∀ l x, s.leaseAt l = some x → (s.gtbIsLocked l = true ↔ x.mask.getLsbD 2 = false) ∧
      (x.mask.getLsbD 2 = false → s.gtbOf l s.core = 0x7FFFFFDFF800#64) ∧ (x.mask.getLsbD 2 = true → s.gtbOf l s.core = (s.lcoreAt l s.core).gtb)) ∧
    (∀ (e : GateEntry) (r : PlbEntry), ((s.coreAt s.core).plb.find? fun x => x.lease == t.lease && x.dom == t.dom.toNat && x.seg == bitsOf e.w0 47 0 / 2 ^ 21) = some r →
      gateRight e s = .ok r.g s) ∧
    (∀ e s1 s2, t.frames.length ≠ 4 → gateEntry n.toNat s = .ok e s1 → s1.gateOk t.lease e = true → gateRight e s1 = .ok false s2 →
      Runs (.gate n) s (s2.takeFault s.core s.slot
        { cause := 0x14, addr := some (BitVec.ofNat 64 (bitsOf e.w0 47 0)), level := some (levelWord 15 1 false false), gate := true } 0 .fault)) ∧
    (∀ e s1, t.frames.length ≠ 4 → gateEntry n.toNat s = .ok e s1 → s1.gateOk t.lease e = false →
      Runs (.gate n) s (s1.takeFault s.core s.slot { cause := 0x19, gate := true } 0 .fault)) ∧
    (∀ e s1 s2, t.frames.length ≠ 4 → gateEntry n.toNat s = .ok e s1 → s1.gateOk t.lease e = true → gateRight e s1 = .ok true s2 →
      (∀ v ∈ (s2.coreAt s2.core).vecq, v.slot ≠ s2.slot) →
      Runs (.gate n) s ((s2.setCur (s2.cur.enterGate n.toNat e)).completed s.core s.slot .stay)) ∧
    (∀ e : GateEntry, e.argc ≤ 8 →
      let u := t.enterGate n.toNat e
      u.pc = BitVec.ofNat 48 e.entry ∧ u.dom = BitVec.ofNat 8 e.dom ∧ u.ff = 0 ∧ u.ctype = 0 ∧ u.bexp = 127 ∧ u.frames.length = t.frames.length + 1 ∧
      u.getX 2 = BitVec.ofNat 64 (0x7FFFFFF00000 + e.sbase) ∧ u.getX 3 = BitVec.ofNat 64 e.ssize ∧
      (∀ r : BitVec 5, r ≠ 2 → r ≠ 3 → u.getX r = if 10 ≤ r.toNat ∧ r.toNat ≤ 9 + e.argc then t.getX r else 0) ∧
      u.loopOn 0 = false ∧ u.loopOn 1 = false ∧ u.epoch = t.epoch + 1 ∧ (e.vec = false → u.v = t.v ∧ u.p = t.p ∧ u.q = t.q) ∧
      (e.vec = true → (∀ r, u.getV r = 0) ∧ (∀ r, u.getP r = 0xFFFF#16) ∧ ∀ r, u.getQ r = []) ∧
      (∀ f rest, (u.frames = f :: rest) → f.pc = t.pc + 4 ∧ f.dom = t.dom ∧ f.remaining = e.limit ∧ rest = t.frames ∧ f.own = e.own ∧
        f.index = n.toNat ∧ f.sbase = e.sbase ∧ f.ssize = e.ssize ∧ f.x = t.x ∧ f.ff = t.ff ∧ f.ctype = t.ctype ∧ f.bexp = t.bexp ∧
        f.lc = t.lc ∧ f.ls = t.ls ∧ f.le = t.le ∧ (∀ l, l < 2 → f.loops.getLsbD l = t.loopOn l) ∧
        f.vec = e.vec ∧ (e.vec = true → f.v = t.v ∧ f.p = t.p ∧ f.q = t.q))) ∧
    (idle → t.frames = [] → Illegal s .gret) ∧
    (∀ f rest, idle → t.frames = f :: rest → ∃ u, Runs .gret s u ∧ u.cur.frames = rest ∧ u.cur.dom = f.dom ∧ u.cur.ff = f.ff ∧
      u.cur.getX 10 = t.getX 10 ∧ u.cur.getX 11 = t.getX 11 ∧ (∀ r : BitVec 5, r ≠ 0 → r ≠ 10 → r ≠ 11 → u.cur.getX r = tabGet 0 f.x r.toNat) ∧
      u.cur.epoch = t.epoch + 1 ∧ u.mem = s.mem ∧ u.cur.ctype = f.ctype ∧ u.cur.bexp = f.bexp ∧ resumes f u.cur ∧
      (u.cur.v, u.cur.p, u.cur.q) = (if f.vec then (f.v, f.p, f.q) else (t.v, t.p, t.q))) ∧
    (∀ e s1, (t.getX a).toNat < 64 → gateEntry (t.getX a).toNat s = .ok e s1 → s1.gateOk t.lease e = false →
      Completes s (.gqry d a) (s1.setCur (s1.cur.setX d (e.word false)))) ∧
    (∀ e s1 g s2, (t.getX a).toNat < 64 → gateEntry (t.getX a).toNat s = .ok e s1 → s1.gateOk t.lease e = true → gateRight e s1 = .ok g s2 →
      Completes s (.gqry d a) (s2.setCur (s2.cur.setX d (e.word g)))) ∧
    ((t.getX a).toNat = 0x80 → Writes s (.gqry d a) d t.callWord ∧ (t.frames = [] → t.callWord = 0)) ∧
    (64 ≤ (t.getX a).toNat → (t.getX a).toNat ≠ 0x80 → Writes s (.gqry d a) d 0xFFFFFFFFFFFFFFFF#64)

/-! ### Launches -/

/-- Launches (R78 to R90): a whole header written to the launch slot of a bound window waits there, a ninth is refused with the status FULL
(R79), and any other write is counted in REFUSED, that of a PF, which submits for no lease, by the model's choice (log entry 64). The
distributor takes the oldest header, gives it a free tag and an open count of 0, or refuses it with a status: HEADER where R50's list, a field
wider than 32 bits (the model's choice, log entry 18: R50 bounds the extent of 32 bits only), or the class in the type's vector-table entry says so, ACCOUNT by R67, PLACE by R84, in this order. It
leaves it where no tag is free, its checks made again when it is taken later (log entry 66); an identifier goes to a core with room as a counted entry message, a gang's to every core of a
gang, each copy with the same wid, where it is the launch's turn: a launch that cannot send holds up no other, and only where none can does nobody send (R87); a
launch completes once all is sent, its open count is 0 and nothing is outstanding; its tag is free when no upcall bears it. -/
def Obligations.LaunchEvents : Prop :=
  ∀ (s : State) (h : List Byte) (rest : List (List Byte)) (l : Launch) (lease c : Nat),
    let fn := s.ev.fn
    let w := s.windowAt fn
    let tag := s.ev.a
    let fs := hdrUsed l.hdr
    let cls := hdrCls l.hdr
    let scope := fun (n : Nat) => scopeOf (s.eligQuads l.lease) (0, 4096) (fs.zip (idValues (fs.map (·.2.1)) n))
    let byte := fun (i : Nat) => (h.getD i 0#8).toNat
    let nat := fun (o n : Nat) => leNat ((h.drop o).take n)
    let width := fun (i : Nat) => byte (8 + i)
    let extent := fun (i : Nat) => nat (16 + 4 * i) 4
    let code := fun (i : Nat) => byte (40 + i / 2) / 16 ^ (i % 2) % 16
    let es := s.eligQuads lease
    let read := s.vtUsable (128 * es.headD 0) lease (byte 2)
    let judged := (s.judgeHeader lease h).2
    let account := fun (s : State) => let a := s.accountAt (nat 44 2 % 4096)
      a.en = true ∧ a.part = (s.leaseD lease).part ∧ (a.lease = 0 ∨ a.lease = lease)
    let placed := fun (gang : Nat) (fields : List (Nat × Nat × Nat)) => s.scopesOk lease gang [(0, 4096)] fields = true
    (fn.exists = true → s.up = true → s.ev.a = 0 → s.ev.bytes.length = 64 → s.submitter fn = some lease → w.headers.length < 8 →
      Runs .launchSubmit s (s.setWindow fn { w with headers := w.headers ++ [s.ev.bytes] })) ∧
    (fn.exists = true → s.up = true → s.ev.a = 0 → s.ev.bytes.length = 64 → s.submitter fn = some lease → 8 ≤ w.headers.length →
      Runs .launchSubmit s (s.refuseHeader lease (some fn) s.ev.bytes 4)) ∧
    (fn.exists = true → (s.up = false ∨ s.ev.a ≠ 0 ∨ s.ev.bytes.length ≠ 64 ∨ s.submitter fn = none) → w.refused < 2 ^ 64 - 1 →
      Runs .launchSubmit s (s.setWindow fn { w with refused := w.refused + 1 })) ∧
    (∀ s1 t, s.submitter fn = some lease → w.headers = h :: rest → 0 ∉ w.badHeaders → s.judgeHeader lease h = (s1, 0) → s1.freeTag = some t →
      ∃ u : State, ∃ v, Runs .distributorAccept s u ∧ (u.windowAt fn).headers = rest ∧ tabFind s1.launches t = none ∧ tabFind u.launches t = some v ∧
        v.lease = lease ∧ v.hdr = h ∧ v.fn = some fn ∧ v.open_ = 0 ∧ v.sent = 0 ∧ v.completed = false) ∧
    (∀ s1, s.submitter fn = some lease → w.headers = h :: rest → 0 ∉ w.badHeaders → s.judgeHeader lease h = (s1, 0) → s1.freeTag = none →
      Runs .distributorAccept s s) ∧
    (s.submitter fn = some lease → w.headers = h :: rest → 0 ∉ w.badHeaders → hdrOk h = false →
      Runs .distributorAccept s ((s.setWindow fn w.popHeader).refuseHeader lease (some fn) h 1)) ∧
    (∀ s1 st, s.submitter fn = some lease → w.headers = h :: rest → 0 ∉ w.badHeaders → s.judgeHeader lease h = (s1, st) → st ≠ 0 →
      Runs .distributorAccept s ((s1.setWindow fn (s1.windowAt fn).popHeader).refuseHeader lease (some fn) h st)) ∧
    (hdrOk h = true ↔ nat 0 2 = 0x4C58 ∧ nat 4 4 = 0 ∧ nat 14 2 = 0 ∧ byte 3 / 16 = 0 ∧ nat 44 2 / 4096 = 0 ∧ byte 46 / 16 = 0 ∧ byte 47 = 0 ∧
      byte 2 < 0xF0 ∧ byte 3 / 4 % 4 < 2 ∧ byte 43 ∈ [0, 1, 2, 4, 8, 16] ∧ ∃ k, 1 ≤ k ∧ k ≤ 6 ∧
        (∀ i, i < k → width i ≠ 0 ∧ width i ≤ 32 ∧ extent i ≤ 2 ^ width i ∧ (extent i = 0 → width i = 32) ∧ code i < 7) ∧
        (∀ i, k ≤ i → i < 6 → width i = 0 ∧ extent i = 0 ∧ code i = 0) ∧ ((List.range k).map width).sum ≤ 64 ∧
        ((∃ i, i < k ∧ code i = 6) ↔ byte 43 ≠ 0)) ∧
    (∀ q, q ∈ es ↔ q < 32 ∧ ∃ e ∈ (s.quadAt q).sched, e.1 = lease) ∧
    (hdrOk h = false → judged = 1) ∧
    (hdrOk h = true → es ≠ [] → (∀ e, read.2 = some e → e.cls ≠ byte 3 / 4 % 4) → judged = 1) ∧
    (∀ e, hdrOk h = true → es ≠ [] → read.2 = some e → e.cls = byte 3 / 4 % 4 → (¬ account read.1 → judged = 2) ∧
      (account read.1 → judged = if read.1.placeOk lease h then 0 else 3)) ∧
    (hdrOk h = true → es = [] → judged = if account s then 3 else 2) ∧
    (s.placeOk lease h = true ↔ es ≠ [] ∧ codesOk none ((hdrUsed h).map (·.2.2)) = true ∧ placed (byte 43) (hdrUsed h)) ∧
    (∀ cs : List Nat, (∀ c ∈ cs, c < 7) → (codesOk none cs = true ↔ ∀ i p c, cs[i]? = some p → cs[i + 1]? = some c →
      (p < 4 ∧ (p < c ∧ c < 4 ∨ c = 4 ∨ c = 5 ∨ c = 6 ∧ p < 2)) ∨ (p = 5 ∧ (c = 5 ∨ c = 4)) ∨ (p = 4 ∧ c = 4))) ∧
    (∀ wd e wd' e', 0 < e → 0 < e' →
      (placed 0 [(wd, e, 0)] ↔ e ≤ ((List.range 8).filter fun d => es.any fun q => q / 4 == d).length) ∧
      (placed 0 [(wd, e, 1)] ↔ e ≤ es.length) ∧ (placed 0 [(wd, e, 2)] ↔ e ≤ 8 * es.length) ∧ (placed 0 [(wd, e, 3)] ↔ e ≤ 128 * es.length) ∧
      (placed 0 [(wd, e, 1), (wd', e', 2)] ↔ e ≤ es.length ∧ e' ≤ 8) ∧ (placed 0 [(wd, e, 5)] ↔ es ≠ []) ∧
      (∀ g ∈ [1, 2, 4, 8], placed g [(wd, e, 6)] ↔ es ≠ []) ∧
      (placed 16 [(wd, e, 6)] ↔ ∃ j, j < 16 ∧ 2 * j ∈ es ∧ (s.quadAt (2 * j)).sched = (s.quadAt (2 * j + 1)).sched ∧
        (s.quadAt (2 * j)).owner = (s.quadAt (2 * j + 1)).owner) ∧ ¬ (placed 16 [(wd, e, 1), (wd', e', 6)])) ∧
    (s.submitter fn = some lease → w.headers = h :: rest → 0 ∈ w.badHeaders → w.popHeader.headers = rest ∧
      Runs .distributorAccept s ((s.setWindow fn w.popHeader).poisoned lease)) ∧
    ((s.sendsNext = none ↔ ∀ e ∈ s.launches, s.canSend e.2 = false) ∧
      (s.sendsNext ≠ some tag → Runs .distributeIdentifier s s ∧ Runs .gangDistribute s s)) ∧
    (∀ group i bound, tabFind s.launches tag = some l → s.sendsNext = some tag → l.nextId = some (group, i, bound) → l.completed = false → (∀ f ∈ fs, f.2.2 ≠ 6) →
      (match bound with
       | some b => b = c ∧ s.placesOn l.lease (quadOf c) = true
       | none => ∃ sc, scope (group * seqCount fs + i) = some sc ∧ s.chooseCore l.lease cls sc = some c) →
      s.queueRoom cls c = true → ∃ u : State, ∃ m v, Runs .distributeIdentifier s u ∧ (u.coreAt c).transit = (s.coreAt c).transit ++ [m] ∧
        m.type = hdrType l.hdr ∧ m.lease = l.lease ∧ m.tag = tag ∧ m.wid = BitVec.ofNat 64 (widOf fs (group * seqCount fs + i)) ∧
        m.args = [] ∧ m.counted = true ∧ m.sender = hwSender s.node c ∧ tabFind u.launches tag = some v ∧ v.open_ = l.open_ + 1 ∧
        v.sent = min (l.sent + 1) (2 ^ 48 - 1) ∧ u.robin = tag ∧ u.mem = s.mem) ∧
    (∀ sc j, tabFind s.launches tag = some l → s.sendsNext = some tag → l.completed = false → (∃ f ∈ fs, f.2.2 = 6) → l.next < groupCount fs →
      scope l.next = some sc → s.chooseGang l.lease cls (hdrGang l.hdr) sc = some j →
      (∀ m ∈ (gangRows (hdrGang l.hdr) j).flatMap rowCores, s.queueRoom cls m = true) →
      ∃ u : State, ∃ v k g, Runs .gangDistribute s u ∧ tabFind u.launches tag = some v ∧ v.open_ = l.open_ + 16 * (hdrGang l.hdr : Nat) ∧ v.next = l.next + 1 ∧
        tabFind s.gangs k = none ∧ tabFind u.gangs k = some g ∧ g.lease = l.lease ∧ g.tag = tag ∧ g.rows = gangRows (hdrGang l.hdr) j ∧
        g.size = 16 * hdrGang l.hdr ∧ g.live.length = g.size ∧ g.entered = [] ∧ g.passes = [] ∧ u.mem = s.mem ∧
        ∀ c ∈ g.rows.flatMap rowCores, ∃ m, (u.coreAt c).transit = (s.coreAt c).transit ++ [m] ∧ m.type = hdrType l.hdr ∧ m.lease = l.lease ∧
          m.tag = tag ∧ m.wid = BitVec.ofNat 64 (widOf fs l.next) ∧ m.args = [] ∧ m.counted = true ∧ m.gang = some k ∧
          m.sender = hwSender s.node c) ∧
    (tabFind s.launches tag = some l → l.completed = false →
      (l.distributed = true → l.open_ = 0 → s.outstanding l.lease tag = false →
        ∃ u : State, Runs .launchComplete s u ∧ tabFind u.launches tag = some { l with completed := true }) ∧
      ((l.distributed = false ∨ l.open_ ≠ 0 ∨ s.outstanding l.lease tag = true) → Runs .launchComplete s s)) ∧
    (tabFind s.launches tag = some l → l.completed = true →
      (s.upcallBears tag = false → ∃ u : State, Runs .launchTagFree s u ∧ tabFind u.launches tag = none ∧ u.mem = s.mem) ∧
      (s.upcallBears tag = true → Runs .launchTagFree s s))

/-! ### The gaffer -/

/-- Who may give a gaffer command (R56, R57, R59, R60, R73 to R75): an issuer below the command's level answers NORIGHT with nothing
else done, and so does one whose mask lacks the bit of the command's class when the gaffer performs it; an unbound VF NOTARGET,
an unassigned code NOCMD, and word 0 with a reserved bit BADARG; a target in word 0 outside the issuer's level is NORIGHT, one
that does not exist NOTARGET, but for the ID that PARTNEW or LEASENEW makes; the command that waits is another's where its code
is; a command whose queue entry is poisoned is not performed and resets the issuing lease (R381), its status BADARG by the
model's choice (log entry 69). The order of these checks, and NOTARGET for an issuer that an earlier command destroyed, are the
model's reading (log entry 22). BUDGET (R66, R67, R69, R75), of the house or of a partition whose mask holds BS, on an account
of its own (ASSIGN is the house's alone; another's account is NORIGHT by the model's choice, log entry 64): ASSIGN, SET, ADD in
two's complement, and BIND, each on the account of word 1; EXH follows BALANCE. -/
def Obligations.RefusalsAndBudgets : Prop :=
  (∀ (s : State) (g : GafferCmd) (rest : List GafferCmd), s.gaffer = g :: rest →
    let s1 : State := { s with gaffer := rest }
    let all : List (Instr × Nat × Nat × Option Nat) := [(.partnew, 0x01, 0, none), (.partdel, 0x02, 0, none), (.leasenew, 0x03, 1, some 1),
      (.leasedel, 0x04, 1, some 1), (.rights, 0x05, 1, none), (.qgrant, 0x06, 0, some 0), (.qtake, 0x07, 0, some 0), (.slices, 0x08, 1, some 0),
      (.s1root, 0x09, 1, some 2), (.s2root, 0x0A, 0, some 3), (.wdlim, 0x0C, 1, some 5), (.driftlim, 0x0D, 1, some 6), (.fgroup, 0x0E, 1, some 7),
      (.aperture, 0x0F, 1, some 7), (.vfreset, 0x10, 2, some 8), (.attest, 0x11, 2, some 9), (.statewin, 0x12, 2, some 10),
      (.evroute, 0x13, 2, some 11)]
    let held : BitVec 16 := if g.level = 0 then 0x0FFF#16 else if g.level = 1 then ((tabFind s.parts g.part).map (·.mask)).getD 0#16 else
      ((s.leaseAt g.lease).map (·.mask)).getD 0#16
    let there := if g.level = 0 then true else if g.level = 1 then (s.partAt g.part).isSome else (s.leaseAt g.lease).isSome
    ∀ e ∈ all, (g.poison = true → Runs e.1 s ((s1.answer g 3 none).poisoned g.lease)) ∧ (g.poison = false →
      (g.level = 3 → Runs e.1 s (s1.answer g 2 none)) ∧
      (g.level ≠ 3 → (g.code = 0 ∨ 0x13 < g.code) → Runs e.1 s (s1.answer g 6 none)) ∧
      (g.level ≠ 3 → 0 < g.code → g.code ≤ 0x13 → g.code ≠ e.2.1 → Runs e.1 s s) ∧
      (g.level < 3 → g.code = e.2.1 → there = false → Runs e.1 s (s1.answer g 2 none)) ∧
      (g.level < 3 → g.code = e.2.1 → there = true → e.2.2.1 < g.level → Runs e.1 s (s1.answer g 1 none)) ∧
      (∀ b, g.level ≤ e.2.2.1 → g.code = e.2.1 → there = true → e.2.2.2 = some b → held.getLsbD b = false → Runs e.1 s (s1.answer g 1 none)) ∧
      (g.level ≤ e.2.2.1 → g.code = e.2.1 → there = true → (∀ b, e.2.2.2 = some b → held.getLsbD b = true) →
        bitsOf (g.word 0) 63 28 = 0 → bitsOf (g.word 0) 15 8 = 0 → g.leaseField ≠ 255 →
        (g.partField ≠ 0 → e.1 ≠ .partnew → (g.level = 2 ∨ (g.level = 1 ∧ g.partField ≠ g.part)) → Runs e.1 s (s1.answer g 1 none)) ∧
        (g.partField ≠ 0 → e.1 ≠ .partnew → g.level = 0 → tabFind s.parts g.partField = none → Runs e.1 s (s1.answer g 2 none)) ∧
        (g.partField = 0 → g.leaseField ≠ 0 → e.1 ≠ .leasenew → g.level = 2 → g.leaseField ≠ g.lease → Runs e.1 s (s1.answer g 1 none)) ∧
        (g.partField = 0 → g.leaseField ≠ 0 → e.1 ≠ .leasenew → g.level ≠ 2 → s.leaseAt g.leaseField = none → Runs e.1 s (s1.answer g 2 none))) ∧
      (g.level = 0 → g.code = e.2.1 → (bitsOf (g.word 0) 63 28 ≠ 0 ∨ bitsOf (g.word 0) 15 8 ≠ 0 ∨ g.leaseField = 255) →
        Runs e.1 s (s1.answer g 3 none)))) ∧
  (∀ (s : State) (g : GafferCmd) (rest : List GafferCmd), s.gaffer = g :: rest → g.poison = false → g.level ≤ 1 → g.code = 0x0B →
    bitsOf (g.word 0) 63 28 = 0 → bitsOf (g.word 0) 15 8 = 0 → g.leaseField ≠ 255 →
    (g.leaseField = 0 ∨ ∃ l, s.leaseAt g.leaseField = some l ∧ (g.level = 1 → l.part = g.part)) →
    (g.partField = 0 ∨ (tabFind s.parts g.partField).isSome = true ∧ (g.level = 1 → g.partField = g.part)) →
    (g.level = 1 → (s.partAt g.part).isSome = true) →
    let may := g.level = 0 ∨ ∃ p, tabFind s.parts g.part = some p ∧ p.mask.getLsbD 4 = true
    let s1 : State := { s with gaffer := rest }
    let w := g.word 1
    let a := w % 4096
    let kept := (s.accountAt a).exh && decide ((s.accountAt a).balance ≤ 0)
    let v := s.accountAt a
    let x : Word := BitVec.ofNat 64 (g.word 2)
    let ok := fun (i : Instr) (v' : Account) => ∃ u : State, Runs i s (u.answer g 0 none) ∧ u.accountAt a = v' ∧ u.mem = s.mem ∧
      ∀ b, b ≠ a → u.accountAt b = s.accountAt b
    let no := fun (i : Instr) (st : Nat) => Runs i s (s1.answer g st none)
    let mine := may ∧ (g.level = 1 → v.part = g.part)
    (¬ may → ∀ e ∈ [(Instr.budgetAssign, 0), (.budgetSet, 1), (.budgetAdd, 2), (.budgetBind, 3)], w / 4096 % 4 = e.2 → no e.1 1) ∧
    (may → g.level = 1 → w / 4096 = 0 → no .budgetAssign 1) ∧
    (may → g.level = 1 → v.part ≠ g.part → (w / 4096 = 1 → no .budgetSet 1) ∧ (w / 4096 = 2 → no .budgetAdd 1) ∧
      (w < 2 ^ 23 → w / 4096 % 4 = 3 → no .budgetBind 1)) ∧
    (g.level = 0 → w / 4096 = 0 → (g.partField = 0 ∨ ((tabFind s.parts g.partField).isSome = true ∧ (v.part = 0 ∨ v.part = g.partField))) →
      ok .budgetAssign { v with part := g.partField, exh := kept }) ∧
    (g.level = 0 → w / 4096 = 0 → (tabFind s.parts g.partField).isSome = true → g.partField ≠ 0 → v.part ≠ 0 → v.part ≠ g.partField → no .budgetAssign 5) ∧
    (mine → w / 4096 = 1 → ok .budgetSet { v with balance := x.toInt, exh := decide (x.toInt ≤ 0) }) ∧
    (mine → w / 4096 = 2 → -(2 ^ 63) ≤ v.balance + x.toInt → v.balance + x.toInt < 2 ^ 63 → 
      ok .budgetAdd { v with balance := v.balance + x.toInt, exh := decide (v.balance + x.toInt ≤ 0) }) ∧
    (mine → w < 2 ^ 23 → w / 4096 % 4 = 3 →
      let l := w / 2 ^ 14 % 256
      ((l = 0 ∨ ∃ y, s.leaseAt l = some y ∧ y.part = v.part ∧ l ≠ 255) → ok .budgetBind { v with lease := l, en := w.testBit 22, exh := kept }) ∧
      (l ≠ 0 → l ≠ 255 → s.leaseAt l = none → no .budgetBind 2)) ∧
    (∀ e ∈ [(Instr.budgetAssign, 0), (.budgetSet, 1), (.budgetAdd, 2), (.budgetBind, 3)], w / 4096 % 4 ≠ e.2 → Runs e.1 s s))

/-- The commands of the house, or of a partition whose mask holds their class, on partitions and quadrants (R54, R55, R56, R57, R61, R62, R65, R75, R170, R402), with word 0 as R74 asks: what
each leaves of the objects it names, its answer OK, and the refusals INUSE, NOTARGET and, for a member with lease ID 255 (R54), BADARG. When
QTAKE answers is the model's choice (log entry 64), and so is its NOTARGET for a quadrant that is not the partition's (log entries 64 and 69), that
SLICES takes effect at once where no lease holds the quadrant and ends the slice at once where its schedule is empty (R62 says at the next slice
end, log entries 24 and 64), that PARTDEL, where released frames wait for accesses under way, answers later while other commands go on (log entry
36), and that the accounts it frees read as at reset (log entry 69); the record of the control lease that PARTNEW makes, with no root, table
or VF and account 0, is the model's reading (log entry 23). -/
def Obligations.PartitionCommands : Prop :=
  ∀ (s : State) (g : GafferCmd) (rest : List GafferCmd), s.gaffer = g :: rest → g.poison = false → g.level ≤ 1 →
    bitsOf (g.word 0) 63 28 = 0 → bitsOf (g.word 0) 15 8 = 0 → g.leaseField ≠ 255 →
    (g.leaseField = 0 ∨ ∃ l, s.leaseAt g.leaseField = some l ∧ (g.level = 1 → l.part = g.part)) →
    (g.level = 1 → (s.partAt g.part).isSome = true ∧ (g.partField = 0 ∨ g.partField = g.part)) →
    let s1 : State := { s with gaffer := rest }
    let house := g.level = 0
    let may := fun (b : Nat) => house ∨ ∃ p, tabFind s.parts g.part = some p ∧ p.mask.getLsbD b = true
    let known := g.partField = 0 ∨ (tabFind s.parts g.partField).isSome = true
    let ok := fun (i : Instr) (f : State → Prop) => ∃ u : State, Runs i s (u.answer g 0 none) ∧ u.mem = s.mem ∧ f u
    let no := fun (i : Instr) (st : Nat) => Runs i s (s1.answer g st none)
    let gone := fun (i : Instr) (u : State) => (u.releasing.length ≤ s.releasing.length → Runs i s (u.answer g 0 none)) ∧
      (s.releasing.length < u.releasing.length → Runs i s (u.answerLater s.releasing.length g))
    let p := g.partField
    let w := g.word 1
    let vf := bitsOf w 25 16
    let cl := bitsOf w 33 26
    let v := s.quadAt w
    let root := decide (w % 4096 = 0) && decide (w < 2 ^ 52)
    (house → g.code = 0x01 → w < 2 ^ 34 → p ≠ 0 → cl ≠ 0 → cl ≠ 255 → BitVec.ofNat 16 w &&& 0xF008#16 = 0#16 →
      (tabFind s.parts p = none → s.leaseAt cl = none → (s.windowAt (.vf vf)).bound = none → ok .partnew fun u =>
        tabFind u.parts p = some { mask := BitVec.ofNat 16 w, vf := vf, control := cl, s2root := 0, target := none, groups := [] } ∧
        u.leaseAt cl = some { Lease.house with part := p, mask := 0 } ∧ (u.windowAt (.vf vf)).bound = some (true, p)) ∧
      ((tabFind s.parts p).isSome = true → no .partnew 5)) ∧
    (∀ v, house → g.code = 0x02 → p ≠ 0 → tabFind s.parts p = some v → ∃ u : State, gone .partdel u ∧ tabFind u.parts p = none ∧
      u.windowAt (.vf v.vf) = Window.init ∧ (∀ q, (u.quadAt q).owner ≠ some p) ∧ (∀ a ∈ u.accounts, a.2.part ≠ p)) ∧
    (house → g.code = 0x02 → p ≠ 0 → tabFind s.parts p = none → no .partdel 2) ∧
    (house → g.code = 0x06 → w < 32 → p ≠ 0 → (tabFind s.parts p).isSome = true →
      ((v.owner = none ∨ v.owner = some 0) → ∃ u : State, Runs .qgrant s (u.answer g 0 none) ∧ (u.quadAt w).owner = some p ∧ (u.quadAt w).holder = none ∧
        (u.quadAt w).sched = [] ∧ (v.owner = none → u = s1.setQuad w (u.quadAt w))) ∧
      (∀ o, v.owner = some o → o ≠ 0 → no .qgrant 5)) ∧
    (house → g.code = 0x07 → w < 32 → p ≠ 0 → (tabFind s.parts p).isSome = true →
      (v.owner = some p → ok .qtake fun u => u = s1.setQuad w { v with preempt := true, taking := true }) ∧ (v.owner ≠ some p → no .qtake 2)) ∧
    (∀ o, known → may 0 → g.code = 0x08 → w < 256 → (s.quadAt (w % 32)).owner = some o → (house ∨ o = g.part) →
      let es := (List.range (w / 32 + 1)).map fun i => g.word (2 + i / 2) / 2 ^ (32 * (i % 2)) % 2 ^ 32
      let sched := es.map fun e => (e % 256, e / 65536)
      let v := s.quadAt (w % 32)
      (∀ e ∈ es, e / 256 % 256 = 0 ∧ e / 65536 ≠ 0 ∧ e % 256 ≠ 255 ∧ ∃ l, s.leaseAt (e % 256) = some l ∧ l.part = o) →
      ((v.holder ≠ none ∧ v.sched ≠ [] ∨ v.preempt = true) → ok .slices fun u => u = s1.setQuad (w % 32) { v with next := some sched }) ∧
      (v.holder ≠ none → v.sched = [] → v.preempt = false → ok .slices fun u =>
        u = (s1.setQuad (w % 32) { v with next := some sched }).endSlice [w % 32]) ∧
      (v.holder = none → v.preempt = false → ok .slices fun u =>
        u = s1.setQuad (w % 32) { v with sched := sched, next := none, idx := 0, clk := 0, preempt := true })) ∧
    (∀ l, known → may 2 → g.code = 0x09 → s.leaseAt (if g.leaseField = 0 then g.lease else g.leaseField) = some l → (house ∨ l.part = g.part) →
      (root = true → ok .s1root fun u => u.leaseAt (if g.leaseField = 0 then g.lease else g.leaseField) = some { l with s1root := w } ∧
        u.parts = s.parts) ∧ (root = false → no .s1root 3)) ∧
    (∀ v, house → g.code = 0x0A → p ≠ 0 → tabFind s.parts p = some v →
      (root = true → ok .s2root fun u => tabFind u.parts p = some { v with s2root := w } ∧ u.leases = s.leases) ∧ (root = false → no .s2root 3)) ∧
    (∀ v, may 7 → g.code = 0x0E → p ≠ 0 → tabFind s.parts p = some v → bitsOf w 63 56 = 0 → bitsOf w 11 8 = 0 →
      let size := bitsOf w 55 36
      let first := bitsOf w 35 16
      let count := bitsOf w 15 12
      let member := fun (i : Nat) => g.word (2 + i / 2) / 2 ^ (32 * (i % 2)) % 2 ^ 32
      (size = 0 → ok .fgroup fun u => (∃ x, tabFind u.parts p = some x ∧ tabFind x.groups (w % 256) = none) ∧
        (∀ l x, u.leaseAt l = some x → x.part = p → tabFind x.collN (w % 256) = none) ∧
        ∀ b ∈ u.peerBytes, ¬ (b.group = w % 256 ∧ (s.leaseD b.holder).part = p)) ∧
      (tabFind v.groups (w % 256) = none → 1 ≤ count → count ≤ 12 → first + count ≤ size → size ≤ 524288 →
        (∀ i, i < count → member i < 2 ^ 27 ∧ member i / 2 ^ 19 ≠ 255) → (∀ i j, i < j → j < count → member i ≠ member j) → ok .fgroup fun u =>
        ∃ x t, tabFind u.parts p = some x ∧ tabFind x.groups (w % 256) = some (size, t) ∧
          ∀ i, i < count → tabFind t (first + i) = some (member i % 2 ^ 19, member i / 2 ^ 19)) ∧
      (size ≠ 0 → (∃ i, i < count ∧ member i / 2 ^ 19 = 255) → no .fgroup 3))

/-- The commands on leases of an issuer that holds their class: the house, a partition on its own leases, a lease on itself (R56 to R58, R60,
R75, R76, R103, R169, R337, R379, R389, R406): as above. RIGHTS on a partition clears in its leases' masks what its own loses (R58). ATTEST and STATEWIN write
the issuer's buffer and answer its size, an ATTEST whose read or write faults being BADARG with nothing written (R74); STATEWIN that reads poison
writes nothing, answers BADARG and resets the issuing lease (R381). The model's choices: RIGHTS with LEASE given may give PART too, and LEASE then
counts (log entry 68); the issuer's memory is read from a core of its own (log entry 18); VFRESET and LEASEDEL, where released frames wait, answer
later while other commands go on (log entry 36); an account of a lease that is gone is bound to none and not enabled (log entry 69); how the report packs its issuer, its hashes and its signature are free values (log entry 9); the
lease to which a message for the house goes is the model's choice (log entry 64). -/
def Obligations.LeaseCommands : Prop :=
  ∀ (s : State) (g : GafferCmd) (rest : List GafferCmd), s.gaffer = g :: rest → g.poison = false → g.level < 3 →
    bitsOf (g.word 0) 63 28 = 0 → bitsOf (g.word 0) 15 8 = 0 → g.leaseField ≠ 255 →
    (g.level = 0 → g.partField = 0 ∨ (tabFind s.parts g.partField).isSome = true) →
    (g.level = 1 → (s.partAt g.part).isSome = true ∧ (g.partField = 0 ∨ g.partField = g.part)) →
    (g.level = 2 → (s.leaseAt g.lease).isSome = true ∧ g.partField = 0 ∧ (g.leaseField = 0 ∨ g.leaseField = g.lease)) →
    let s1 : State := { s with gaffer := rest }
    let house := g.level = 0
    let may := fun (b : Nat) => house ∨ (g.level = 1 ∧ ∃ p, tabFind s.parts g.part = some p ∧ p.mask.getLsbD b = true) ∨
      (g.level = 2 ∧ ∃ l, s.leaseAt g.lease = some l ∧ l.mask.getLsbD b = true)
    let own := fun (l : Lease) => g.level = 1 → l.part = g.part
    let known := g.leaseField = 0 ∨ ∃ l, s.leaseAt g.leaseField = some l ∧ own l
    let part := if g.partField = 0 then g.part else g.partField
    let ok := fun (i : Instr) (f : State → Prop) => ∃ u : State, Runs i s (u.answer g 0 none) ∧ f u
    let no := fun (i : Instr) (st : Nat) => Runs i s (s1.answer g st none)
    let gone := fun (i : Instr) (u : State) => (u.releasing.length ≤ s.releasing.length → Runs i s (u.answer g 0 none)) ∧
      (s.releasing.length < u.releasing.length → Runs i s (u.answerLater s.releasing.length g))
    let w := g.word 1
    let id := if g.leaseField = 0 then g.lease else g.leaseField
    (∀ v bs s2, g.level ≤ 1 → may 1 → g.code = 0x03 → w < 2 ^ 38 → g.leaseField ≠ 0 → g.word 2 % 4096 = 0 → g.word 2 < 2 ^ 52 → g.word 3 % 4096 = 0 → part ≠ 0 →
      tabFind s.parts part = some v → BitVec.ofNat 16 w &&& ~~~(v.mask) = 0#16 → (BitVec.ofNat 16 w).getLsbD 3 = false →
      (s.accountAt (bitsOf w 37 26)).part = part → s.leaseAt g.leaseField = none → (s.windowAt (.vf (bitsOf w 25 16))).bound = none →
      let l : Lease := { Lease.house with part := part, mask := BitVec.ofNat 16 w, vf := some (bitsOf w 25 16), account := bitsOf w 37 26,
                                          s1root := g.word 2, w3 := BitVec.ofNat 64 (g.word 3) }
      ((s1.setLease g.leaseField l).readTable g.leaseField (g.word 3) = some (bs, s2) → ok .leasenew fun u =>
        u.leaseAt g.leaseField = some { l with ten0 := enablesOf bs } ∧
        (u.windowAt (.vf (bitsOf w 25 16))).bound = some (false, g.leaseField)) ∧
      ((s1.setLease g.leaseField l).readTable g.leaseField (g.word 3) = none → no .leasenew 3)) ∧
    (∀ l, g.level ≤ 1 → may 1 → g.code = 0x04 → g.leaseField ≠ 0 → s.leaseAt id = some l → own l → ∃ u : State, gone .leasedel u ∧ u.leaseAt id = none ∧
      (id ≠ 0 → ∀ n, (u.accountAt n).lease ≠ id)) ∧
    (∀ l v, g.level ≤ 1 → g.code = 0x05 → g.leaseField ≠ 0 → w < 2 ^ 16 → s.leaseAt id = some l → own l → s.partAt l.part = some v →
      (BitVec.ofNat 16 w &&& ~~~(v.mask) = 0#16 → (BitVec.ofNat 16 w).getLsbD 3 = false → ok .rights fun u =>
        u = s1.setLease id { l with mask := BitVec.ofNat 16 w }) ∧
      ((BitVec.ofNat 16 w &&& ~~~(v.mask) ≠ 0#16 ∨ (BitVec.ofNat 16 w).getLsbD 3 = true) → no .rights 4)) ∧
    (∀ v, g.code = 0x05 → g.leaseField = 0 → g.partField ≠ 0 → w < 2 ^ 16 → tabFind s.parts g.partField = some v →
      let mask := BitVec.ofNat 16 w
      (house → mask &&& 0xF008#16 = 0#16 → ok .rights fun u => u.mem = s.mem ∧ tabFind u.parts g.partField = some { v with mask := mask } ∧
        ∀ k x, s.leaseAt k = some x → u.leaseAt k = some (if x.part = g.partField then { x with mask := x.mask &&& mask } else x)) ∧
      (house → mask &&& 0xF008#16 ≠ 0#16 → no .rights 4) ∧ (g.level = 1 → no .rights 1)) ∧
    (∀ l, g.level ≤ 1 → may 5 → g.code = 0x0C → s.leaseAt id = some l → own l →
      (4096 ≤ w → w < 2 ^ 32 → ok .wdlim fun u => u = s1.setLease id { l with wdl := BitVec.ofNat 32 w }) ∧ (w < 4096 → no .wdlim 3)) ∧
    (∀ l, g.level ≤ 1 → may 6 → g.code = 0x0D → s.leaseAt id = some l → own l → bitsOf w 31 10 = 0 → (s.regionAt id (w % 1024)).share = [] →
      let limit : Lane := BitVec.ofNat 32 (w / 2 ^ 32)
      (limit.getLsbD 31 = false → fpExp limit ≠ 0 → fpExp limit ≠ 255 → ok .driftlim fun u =>
        u.regionAt id (w % 1024) = { s.regionAt id (w % 1024) with l := limit, u := limit, loss := 0, pend := false } ∧ u.mem = s.mem) ∧
      (fpExp limit = 255 → no .driftlim 3)) ∧
    (∀ l, g.level ≤ 1 → may 7 → g.code = 0x0F → s.leaseAt id = some l → own l → w < 2 ^ 26 → g.word 2 < 2 ^ 48 → ok .aperture fun u =>
      ∃ x, u.leaseAt id = some x ∧ tabFind x.apertures (w % 128) = some (true, w / 128, g.word 2) ∧ u.mem = s.mem) ∧
    (∀ l, may 8 → g.code = 0x10 → s.leaseAt id = some l → own l → gone .vfreset (s1.resetLease id)) ∧
    (may 8 → g.code = 0x10 → s.leaseAt id = none → no .vfreset 2) ∧
    (∀ bs s2, known → may 9 → g.code = 0x11 → w % 64 = 0 → hwRead (s1.issuerCore g) g.lease w 64 s1 = .ok bs s2 →
      let report := attestReport s1 g (bs.take 48)
      let c := s1.issuerCore g
      (∀ pls s3, blockPlaces c g.lease (w + 64) ((report.length + 63) / 64) s2 = .ok pls s3 →
        let stored := ((List.range pls.length).zip pls).foldl (fun s e => s.hwStore c g.lease e.2 ((report.drop (64 * e.1)).take 64)) s3
        Runs .attest s (stored.answer g 0 (some (leBytes 8 (w + 64) ++ (g.blk.drop 16).take 48)))) ∧
      (∀ f s3, blockPlaces c g.lease (w + 64) ((report.length + 63) / 64) s2 = .error (.fault f) s3 → no .attest 3) ∧
      (bs.length = 64 → report.length = 512 ∧ (report.drop 16).take 48 = bs.take 48 ∧ leNat (report.take 4) = 0x41545358 ∧
        leNat ((report.drop 4).take 4) = 1 ∧ (report.drop 208).take 208 = List.replicate 208 0#8 ∧
        leNat ((report.drop 8).take 8) = (Config.freeIssuer s.node g.part g.lease).toNat ∧
        leNat (report.drop 416) = (Config.freeSignature (report.take 416)).toNat)) ∧
    (∀ f s2, known → may 9 → g.code = 0x11 → w % 64 = 0 → hwRead (s1.issuerCore g) g.lease w 64 s1 = .error (.fault f) s2 → no .attest 3) ∧
    (∀ bs, known → may 10 → g.code = 0x12 → bitsOf w 63 48 = 0 → g.word 2 % 64 = 0 → s1.winBytes g = .ok bs →
      (s1.winPoisoned g = false → bs.length ≤ g.word 3 → let r := ({ s1 with free := s1.free + 65536 } : State).fillBuffer g (g.word 2) bs bs.length
        Runs .statewin s (r.1.answer g r.2.1 r.2.2)) ∧
      (let l := s1.lcoreAt g.winLease g.winUnit
        let read := ((s1.homeAt g.winUnit).waits.filter fun w => s1.winReach g w.lease).drop g.winIdx
        s1.winPoisoned g = true ↔ (g.winObj = 0x03 ∧ ∃ m ∈ (s1.coreAt g.winUnit).messages, m.poison = true) ∨
          (g.winObj = 0x04 ∧ l.spadPoisoned 0x3F800 2048 = true) ∨ (g.winObj = 0x06 ∧ (l.accPoison ≠ [] ∨ l.planePoison ≠ [])) ∨
          (g.winObj = 0x07 ∧ ∃ w ∈ read, w.poison = true)) ∧
      (s1.winPoisoned g = true → bs.length ≤ g.word 3 → Runs .statewin s ((s1.poisoned g.lease).answer g 3 none)) ∧
      (g.word 3 < bs.length → Runs .statewin s (s1.answer g 3 (some (leBytes 8 bs.length ++ (g.blk.drop 16).take 48))))) ∧
    (∀ l, house → w % 256 = 0x0A → s1.leaseAt g.winLease = some l → g.winLease ≠ 255 → g.winPart = 0 → g.winIdx < 4096 →
      s1.winBytes g = .ok (s.accountAt g.winIdx).item) ∧
    (house → known → g.code = 0x13 → w < 2 ^ 32 → w % 2 = 1 → w / 2 ^ 24 < 0xF0 → (s.quadAt (bitsOf w 23 12 / 128)).owner = some 0 →
      ok .evroute fun u => u = { s1 with houseTarget := some (true, bitsOf w 23 12, w / 2 ^ 24, 0) }) ∧
    (∀ v, g.level = 1 → may 11 → known → g.code = 0x13 → w < 2 ^ 32 → tabFind s.parts g.part = some v →
      (w % 2 = 1 → w / 2 ^ 24 < 0xF0 → (s.quadAt (bitsOf w 23 12 / 128)).owner = some g.part →
        ok .evroute fun u => u = s1.setPart g.part { v with target := some (true, bitsOf w 23 12, w / 2 ^ 24, v.control) }) ∧
      (w % 2 = 0 → bitsOf w 11 1 < 64 →
        ok .evroute fun u => u = s1.setPart g.part { v with target := some (false, State.windowKey (.vf v.vf), bitsOf w 11 1, v.control) })) ∧
    (∀ v, g.level = 2 → may 11 → g.code = 0x13 → w < 2 ^ 32 → w % 2 = 1 → w / 2 ^ 24 < 0xF0 → s.leaseAt g.lease = some v →
      bitsOf w 23 12 / 128 ∈ s.eligQuads g.lease →
      ok .evroute fun u => u = s1.setLease g.lease { v with target := some (true, bitsOf w 23 12, w / 2 ^ 24, g.lease) }) ∧
    (house → known → g.code = 0x13 → g.fn = some (.pf 0) → w < 2 ^ 32 → w % 2 = 0 → ok .evroute fun u => u = { s1 with houseTarget := some (false, 0, bitsOf w 11 1, 0) })

/-! ### The host's registers and outside writes -/

/-- The host's registers (R372, R394, R395, R396) and the runtime's core registers written by the gaffer (R39, R334, R363): bytes of
the command window, CDOOR, IRQ, and EVACK through its register or as an event; a write while a command runs, or EVACK on a VF,
is counted in REFUSED, and so is every register write until bring-up is complete (R407); an answer to EVACK that names no
stage-2 park is a stale notice. Bytes from outside the cores (R299, R318, R382): a write over a host link stands at its address
line by line, every other byte as it was; a frame migrated reads as its source; an address in no window stops the model by name. -/
def Obligations.HostAndOutside : Prop :=
  (∀ (s : State) (l : Nat),
    let fn := s.ev.fn
    let w := s.windowAt fn
    let off := s.ev.a
    let bs := s.ev.bytes
    let c := s.ev.a
    let k := s.ev.b % 256
    let t := s.slotAt (c % 4096) k
    let refused := s.setWindow fn { w with refused := w.refused + 1 }
    let q := s.lcoreAt l c
    (fn.exists = true →
      (s.up = true → w.busy = false → 0x40 ≤ off → off + bs.length ≤ 0x80 →
        Runs .windowRegisterWrite s (s.setWindow fn { w with cmd := putAt w.cmd (off - 0x40) bs })) ∧
      (s.up = true → w.busy = true → 0x40 ≤ off → off + bs.length ≤ 0x80 → w.refused < 2 ^ 64 - 1 → Runs .windowRegisterWrite s refused) ∧
      (s.up = true → w.busy = false → off = 0x80 → bs ≠ [] → ∃ u : State, Runs .windowRegisterWrite s u ∧ (u.windowAt fn).busy = true ∧
        ∃ g, u.gaffer = s.gaffer ++ [g] ∧ g.blk = w.cmd ∧ g.fn = some fn ∧ g.who = none ∧ (g.level, g.part, g.lease) = s.bindingOf fn) ∧
      (s.up = true → off = 0x90 → bs.length = 8 → Runs .windowRegisterWrite s (s.setWindow fn { w with irq := leNat bs % 2 ^ 13 })) ∧
      (s.up = false → w.refused < 2 ^ 64 - 1 → Runs .windowRegisterWrite s refused) ∧
      (s.up = false → w.refused < 2 ^ 64 - 1 → Runs .evackResolve s refused ∧ Runs .evackKill s refused)) ∧
    (∀ n f, fn = .pf n → n < 2 → s.up = true → k < 8 → t.st = .parked (.stage2 f) → t.gen = BitVec.ofNat 8 (s.ev.b / 256) →
      Runs .evackResolve s (s.setSlot (c % 4096) k { t with st := .ready }) ∧ Runs .evackKill s (s.killReport (c % 4096) k 4 f)) ∧
    (∀ n, fn = .pf n → n < 2 → s.up = true → k < 8 → t.gen ≠ BitVec.ofNat 8 (s.ev.b / 256) →
      ∀ i ∈ [Instr.evackResolve, .evackKill], Runs i s (s.countLease t.lease fun l => { l with stale := l.stale + 1 })) ∧
    (∀ n, fn = .vf n → n < 1024 → w.refused < 2 ^ 64 - 1 → Runs .evackResolve s refused ∧ Runs .evackKill s refused ∧
      (0x98 ≤ off → off < 0xA8 → 0xA0 < off + bs.length → Runs .windowRegisterWrite s refused)) ∧
    (c < 4096 → s.holderOf c = some l →
      (s.ev.word &&& 0xFFFFFFFFF000#64 = q.vtb → Runs .vtbWrite s (s.setLCore l c { q with vcache := [] })) ∧
      (s.ev.word &&& 0xFFFFFFFFF000#64 ≠ q.vtb →
        Runs .vtbWrite s ((s.setLCore l c { q with vtb := s.ev.word &&& 0xFFFFFFFFF000#64, vcache := [] }).loadEnables c l 256)) ∧
      (s.gtbIsLocked l = false → Runs .gtbWrite s (s.setLCore l c { q with gtb := s.ev.word &&& 0xFFFFFFFFF800#64 })) ∧
      (s.gtbIsLocked l = true → Runs .gtbWrite s s) ∧
      (∃ u : State, Runs .cullWrite s u ∧ (u.lcoreAt l c).cull = s.ev.word &&& 0xFFFFFFFFF000#64 ∧ (u.lcoreAt l c).chead = 0 ∧
        (u.lcoreAt l c).ccount = q.ccount ∧ u.mem = s.mem) ∧
      (∃ u : State, Runs .cullszWrite s u ∧ (u.lcoreAt l c).cullsz = (s.ev.word &&& 0xFFFF00#64).toNat ∧ (u.lcoreAt l c).chead = q.chead ∧
        (u.lcoreAt l c).ccount = q.ccount ∧ u.mem = s.mem) ∧
      (q.latched = none → Runs .latchRelease s (s.setLCore l c { q with refillStop := false })) ∧
      (∀ r s1, q.latched = some r → (s.setLCore l c { q with refillStop := false }).trySpill c l r = (s1, 0, 0) → (s1.lcoreAt l c).pushes = [] →
        ∃ u : State, Runs .latchRelease s u ∧ (u.lcoreAt l c).latched = none ∧ (u.lcoreAt l c).latch = 0 ∧ (u.lcoreAt l c).cfault = 0))) ∧
  (∀ s : State, s.Canonical →
    let a := s.ev.a
    let src := a / 4096 * 4096
    let dst := s.ev.b / 4096 * 4096
    ((∀ i, i < s.ev.bytes.length → s.inWindow (a + i) = true) → ∃ u : State, Runs .hostLinkWrite s u ∧
      (∀ i, i < s.ev.bytes.length → u.byteAt (a + i) = s.ev.bytes.getD i 0) ∧
      (∀ b, b < a ∨ a + s.ev.bytes.length ≤ b → u.byteAt b = s.byteAt b) ∧ u.leases = s.leases ∧
      ((∀ h ∈ s.homes, ∀ w ∈ h.2.waits, w.poison = false) → u.cores = s.cores)) ∧
    (∀ i, i < s.ev.bytes.length → s.inWindow (a + i) = false → exec .hostLinkWrite s = .fault (.noSuchAddress a)) ∧
    (s.inWindow a = true → s.inWindow s.ev.b = true → src ≠ dst → (∀ l ∈ s.poison, 64 * l < src ∨ src + 4096 ≤ 64 * l) →
      ∃ u : State, Runs .migrationEngineCopy s u ∧ (∀ i, i < 4096 → u.byteAt (dst + i) = s.byteAt (src + i)) ∧
        (∀ b, b < dst ∨ dst + 4096 ≤ b → u.byteAt b = s.byteAt b)) ∧
    (s.inWindow s.ev.b = false → exec .migrationEngineCopy s = .fault (.noSuchAddress s.ev.b)))

/-! ### Messages and what starts -/

/-- Messages at a core (R43, R46, R95 to R97, R320): a message whose lease holds the core, with a usable entry and room, enters the
queue of its class, but one that is behind records of its sender in the core's rings, as log entry 34 reads R39 and R155, stays on its way; an upcall in the reserve has its entry read when it arrives, which gives its PRIO or drops it (R39); a handler starts in a free slot with the registers and fields of R46; ageing raises a message once; a home
sends its first continuation that has room; what an engine holds is delivered when it can be, a token of an incarnation that its core's die has left
is dropped and counted there (R311, R312), and a completion message that SEND would refuse now is dropped, counted and subtracted (R164). -/
def Obligations.MessageEvents : Prop :=
  ∀ (s : State) (m : Msg) (rest : List Msg) (e : VtEntry),
    let c := s.ev.a
    let k := s.coreAt c
    let cls := s.ev.b
    (∀ s1, c < 4096 → (∀ r ∈ k.reserve, r.2.fresh = false) → k.transit = [m] → m.core = c → s.holderOf c = some m.lease → (s.quadAt (quadOf c)).preempt = false → m.jdec = none → m.entry = none → m.origin = none →
      m.type ≠ 0xFE → s.behindRing m = false → s.vtUsable c m.lease m.type = (s1, some e) → e.cls < 3 → (s1.coreAt c).transit = [m] → (s1.coreAt c).fits e.cls m = true →
      ∃ u : State, Runs .messageArrival s u ∧ (u.coreAt c).transit = [] ∧
        (u.coreAt c).queue e.cls = (s1.coreAt c).queue e.cls ++ [{ m with prio := e.prio, room := none, stamp := (s1.coreAt c).arrivals }] ∧
        (u.coreAt c).arrivals = (s1.coreAt c).arrivals + 1 ∧
        (∀ n, n ≠ e.cls → (u.coreAt c).queue n = (s1.coreAt c).queue n) ∧ u.mem = s1.mem) ∧
    (c < 4096 → (∀ r ∈ k.reserve, r.2.fresh = false) → k.transit = [] → Runs .messageArrival s s) ∧
    (c < 4096 → (∀ r ∈ k.reserve, r.2.fresh = false) → k.transit = [m] → s.behindRing m = true → Runs .messageArrival s s) ∧
    (∀ s1 j o, c < 4096 → j < 18 → k.transit = [] → k.reserve = [(j, m)] → m.fresh = true → s.vtUsable c m.lease m.type = (s1, o) →
      (s1.coreAt c).transit = [] → (s1.coreAt c).reserve = k.reserve →
      (o = some e → Runs .messageArrival s
        (s1.setCore c { s1.coreAt c with reserve := [(j, { m with prio := e.prio, fresh := false })] })) ∧
      (o = none → m.type = 0xF5 → m.counted = false → m.entry = none → m.gang = none → Runs .messageArrival s
        ((s1.setCore c { s1.coreAt c with reserve := [] }).countLease m.lease fun l => { l with dropped := l.dropped + 1, lost := l.lost + 1 }))) ∧
    (∀ l i slot s1, c < 4096 → cls < 2 → s.holderOf c = some l → (s.quadAt (quadOf c)).preempt = false → (s.lcoreAt l c).readyHead = none →
      s.freeSlotOf c cls = some slot → s.queueCandidate c l cls = some (i, m) → m.poison = false → m.args.length ≤ 6 → m.effective < 4 → e.prio < 4 →
      (s.setCore c (k.setQueue cls (listDrop (k.queue cls) i))).vtUsable c m.lease m.type = (s1, some e) →
      ∃ u : State, Runs .handlerStart s u ∧ (u.coreAt c).queue cls = (s1.coreAt c).queue cls ∧
        let t := u.slotAt c slot
        t.st = .ready ∧ t.pc = BitVec.ofNat 48 e.handler ∧ t.wid = m.wid ∧ t.lease = m.lease ∧ t.tag = m.tag ∧ t.dom = BitVec.ofNat 8 e.dom ∧
        t.part = (s1.leaseD m.lease).part ∧ t.gen = (s1.slotAt c slot).gen + 1 ∧ t.frames = [] ∧ t.ff = 0 ∧ t.bexp = 127#8 ∧ t.wdc = 0 ∧
        t.ss = BitVec.ofNat 28 (cls * 2 ^ 26 + m.effective * 2 ^ 24) ∧ t.phase = BitVec.ofNat 4 ((m.entry.map fun x => x.2.2).getD 0) ∧
        (∀ j, j < m.args.length → t.getX (BitVec.ofNat 5 (10 + j)) = m.args.getD j 0) ∧ t.getX 9 = m.sender ∧
        (m.counted = false → t.getX 8 = 0) ∧ (∀ x, m.counted = true → s1.liveLaunch m.lease m.tag = some x →
          t.getX 8 = BitVec.ofNat 64 (leNat ((x.hdr.drop 48).take 8))) ∧
        (∀ r : BitVec 5, (r.toNat < 8 ∨ 10 + m.args.length ≤ r.toNat) → t.getX r = 0) ∧
        (∀ r, t.getV r = 0) ∧ (∀ r, t.getP r = 0xFFFF#16) ∧ (∀ r, t.getQ r = []) ∧ t.entryTask = m.entry.isSome ∧
        tabFind (u.coreAt c).last cls = some false) ∧
    (c < 4096 → (k.queue cls)[s.ev.c]? = some m →
      (m.aged = false → 65536 ≤ m.age → Runs .messageAgeing s (s.setCore c (k.setQueue cls (listSet (k.queue cls) s.ev.c { m with aged := true })))) ∧
      ((m.aged = true ∨ m.age < 65536) → Runs .messageAgeing s s)) ∧
    (∀ s1, c < 8 → (s.homeAt c).outbox = m :: rest → s.arrive m = (s1, true) →
      Runs .continuationSend s (s1.setHome c { s1.homeAt c with outbox := rest ++ (s1.homeAt c).outbox.drop (1 + rest.length) })) ∧
    (∀ slot gen q v l inc hs, s.ev.flag = false → k.held = .token c slot gen 0 q v l inc :: hs →
      let t := s.slotAt c slot
      (inc ≠ (s.dieAt (dieOf c)).inc → Runs .engineHeldDelivery s ((s.setCore c { k with held := hs }).staleResponse (dieOf c))) ∧
      (inc = (s.dieAt (dieOf c)).inc →
      (t.st ≠ .free → t.gen = gen → t.lease = l → t.frames = [] → (t.getQ q).length < 4 → ∃ u : State, Runs .engineHeldDelivery s u ∧
        u.slotAt c slot = t.setQ q (t.getQ q ++ [v]) ∧ (u.coreAt c).held = hs ∧ u.mem = s.mem) ∧
      (t.st ≠ .free → t.gen = gen → t.lease = l → t.frames = [] → 4 ≤ (t.getQ q).length → Runs .engineHeldDelivery s s))) ∧
    (∀ l member target hs, s.ev.flag = false → k.held = .message m l member target :: hs → s.ownWord target = false →
      s.destLease l (target.toNat % 4096) = none → ∃ u : State, Runs .engineHeldDelivery s u ∧ u.mem = s.mem ∧ (u.coreAt c).held = hs ∧
        (∀ x, s.leaseAt l = some x → (u.leaseD l).dropped = x.dropped + 1) ∧
        (∀ x, m.counted = true → tabFind s.launches m.tag = some x → ∃ y, tabFind u.launches m.tag = some y ∧ y.open_ = x.open_ - 1)) ∧
    (∀ slot, k.heldUp = [.upcall slot m] → m.core = c → s.holderOf c = some m.lease → tabFind k.reserve slot = none →
      Runs .engineFaultUpcall s (s.setCore c { k with heldUp := [], reserve := tabPut k.reserve slot { m with fresh := true } }))

/-- Carried code, JDEC and the cullet ring at a core (R156 to R158, R328 to R330, R332): four accepted words run as one step and take
four clk; a word outside the set refuses the message whole; a JDEC that was sent is applied and no longer counted, but one that would fire its join
waits at the queue's head while the spill latch is held (R333); the head record of the cullet ring, of any number of entries, moves whole to the
ready ring (R332; for a message record too, log entry 69), with what the core keeps of a message beside its record (log entry 45), where its
vector-table entry is read if it is the head there, once (R96); a read of any of its entries that faults stops refills, and the upcall names that
entry (R334; log entry 59), in the place of one that still waits in its reserve entry (log entry 69). -/
def Obligations.CarriedForms : Prop :=
  ∀ (s : State) (m : Msg) (rest : List Msg) (e : VtEntry) (s1 : State),
    let c := s.ev.a
    let k := s.coreAt c
    c < 4096 →
    (k.carried = m :: rest → m.jdec = none → m.poison = false → (s.setCore c { k with carried := rest }).vtUsable c m.lease 0xFE = (s1, some e) → e.cc = true →
      (∀ is s2, decodeCarried m.words = some is →
        Hidden.runAll s1 ⟨c, m.lease, e.dom, m.tag, (Slot.init.setX 10 (m.args.getD 2 0)).setX 11 (m.args.getD 3 0)⟩ is 0 = (s2, 4, false) →
        ∃ u : State, Runs .carriedCodeExecute s u ∧ (u.coreAt c).busy = (s2.coreAt c).busy + 4 ∧ u.mem = s2.mem ∧ u.lcores = s2.lcores) ∧
      (decodeCarried m.words = none → Runs .carriedCodeExecute s ((s1.takeClk c m 1).refuseCarried c m 4))) ∧
    (∀ (h : Hidden) (d a b : BitVec 5) (imm : BitVec 12), ∀ f ∈ [(Instr.addi d a imm, h.regs.getX a + imm.signExtend 64), (.add d a b, h.regs.getX a + h.regs.getX b),
        (.sub d a b, h.regs.getX a - h.regs.getX b), (.and d a b, h.regs.getX a &&& h.regs.getX b), (.or d a b, h.regs.getX a ||| h.regs.getX b),
        (.xor d a b, h.regs.getX a ^^^ h.regs.getX b)], carriedOk f.1 = true ∧ h.run f.1 s = .ok { h with regs := h.regs.setX d f.2 } s) ∧
    (∀ off n, k.carried = m :: rest → m.jdec = some (off, n) → m.poison = false →
      (s.decWaits c m.lease off n = true → Runs .jdecApply s s) ∧
      (s.decWaits c m.lease off n = false → ∃ s2 u : State, s2 = (s.setCore c { k with carried := rest }).takeClk c m 1 ∧
        (s2.coreAt c).carried = rest ∧ (s2.coreAt c).busy = k.busy + 1 ∧ Runs .jdecApply s u ∧
        (m.counted = false → u = s2.applyDec c m.lease off n m.tag) ∧
        (m.counted = true → u = (s2.applyDec c m.lease off n m.tag).addOpen m.tag (-1) ∧
          ∀ l, tabFind (s2.applyDec c m.lease off n m.tag).launches m.tag = some l → ∃ l', tabFind u.launches m.tag = some l' ∧ l'.open_ = l.open_ - 1))) ∧
    (k.carried = [] → Runs .carriedCodeExecute s s ∧ Runs .jdecApply s s) ∧
    (∀ l, s.holderOf c = some l → (s.lcoreAt l c).ringBad = false → (s.lcoreAt l c).ccount ≠ 0 → (s.lcoreAt l c).refillStop = false → (s.lcoreAt l c).cullsz ≠ 0 →
      let r := s.lcoreAt l c
      let read := fun (ss : Nat → State) (es : Nat → List Byte) (n : Nat) => ss 0 = s ∧ ∀ i, i < n → (es i).length = 16 ∧
        (ss i).runHw l (hwRead c l (r.culletDva (r.chead + i)) 16) = (ss (i + 1), some (es i))
      (∀ ss es, read ss es (recEntries (es 0)) →
        let n := recEntries (es 0)
        let v := (ss n).lcoreAt l c
        (recIsMsg (es 0) = false ∨ recType (es 0) ≠ 0xFE) → n ≤ v.ccount → v.rcount + n ≤ 64 →
        ∃ u : State, Runs .culletRefill s (u.headReads c l) ∧ (v.headEntry.isSome = true → u.headReads c l = u) ∧ u.mem = (ss n).mem ∧
          (u.lcoreAt l c).rcount = v.rcount + n ∧ (u.lcoreAt l c).ccount = v.ccount - n ∧
          (u.lcoreAt l c).chead = (v.chead + n) % v.cullsz % 2 ^ 24 ∧
          (∀ i, i < n → (u.lcoreAt l c).spadBytes (readyEntry (v.rhead + v.rcount + i)) 16 = es i) ∧
          (recIsMsg (es 0) = true → (u.lcoreAt l c).culletFacts = v.culletFacts.tail ∧ (u.lcoreAt l c).readyFacts = v.readyFacts ++ v.culletFacts.head?.toList)) ∧
      (∀ ss es i s2, read ss es i → (i = 0 ∨ i < recEntries (es 0)) → (ss i).runHw l (hwRead c l (r.culletDva (r.chead + i)) 16) = (s2, none) →
        let v := s2.lcoreAt l c
        ∃ u : State, Runs .culletRefill s u ∧ u.mem = s2.mem ∧ (u.lcoreAt l c).cfault = 3 ∧
          (u.lcoreAt l c).refillStop = true ∧ (u.lcoreAt l c).ccount = v.ccount ∧
          (s2.holderOf c = some l → ∃ m, tabFind (u.coreAt c).reserve 16 = some m ∧ m.type = 0xF3 ∧
            m.args.take 2 = [3, BitVec.ofNat 64 (v.culletDva (r.chead + i))]))) ∧
    (s.holderOf c = none → Runs .culletRefill s s)

/-! ### Slots, quadrants and the clk -/

/-- What befalls a slot (R98, R102, R103, R148, R167, R312, R366, R23): the watchdog warns once and then kills; a frame whose limit is
spent is unwound, and every other whose limit ran out in the same clk with it (R366); an answer completes the blocked instruction, one of an older incarnation or for a task that is gone is counted,
as is one that a callee unwound since asked for, which is the model's reading (log entry 49);
an LDF answered "retry" is sent again; a blocked instruction completes when its condition has cleared, and is not issued again: an
invalidation when no slot is still in an access that used what it removed (R184, R190; log entry 36). -/
def Obligations.SlotEvents : Prop :=
  ∀ (s : State),
    let c := s.ev.a
    let k := s.ev.b
    let t := s.slotAt c k
    (c < 4096 → k < 8 → t.st ≠ .free →
      ((s.leaseD t.lease).wdl.toNat ≤ t.wdc.toNat → t.warned = false → ∃ u : State, Runs .watchdogExpiry s u ∧
        u.slotAt c k = { t with wdc := 0, warned := true } ∧ ∃ m, tabFind (u.coreAt c).reserve (8 + k) = some m ∧ m.type = 0xF2 ∧ m.lease = t.lease ∧
          m.args = [BitVec.ofNat 64 (t.gen.toNat * 256 + k), t.pc.zeroExtend 64, t.wid] ∧ u.mem = s.mem) ∧
      ((s.leaseD t.lease).wdl.toNat ≤ t.wdc.toNat → t.warned = true → Runs .watchdogExpiry s (s.killReport c k 1 0)) ∧
      (t.wdc.toNat < (s.leaseD t.lease).wdl.toNat → Runs .watchdogExpiry s s) ∧
      (∀ f rest, t.frames = f :: rest → f.remaining = 0 → (∀ g ∈ rest, g.remaining ≠ 0) → (∀ q ∈ (s.coreAt c).vecq, q.slot ≠ k) → ∃ u : State, Runs .glimitExpiry s u ∧ (u.slotAt c k).frames = rest ∧ (u.slotAt c k).st = .ready ∧
        (u.slotAt c k).getX 10 = 0xFFFFFFFFFFFFFFFF#64 ∧ (u.slotAt c k).getX 11 = 0x1B#64 ∧ (u.slotAt c k).dom = f.dom ∧ u.mem = s.mem) ∧
      (∀ f g, t.frames = [f, g] → f.remaining = 0 → g.remaining = 0 → (∀ q ∈ (s.coreAt c).vecq, q.slot ≠ k) → ∃ u : State, Runs .glimitExpiry s u ∧
        (u.slotAt c k).frames = [] ∧ (u.slotAt c k).st = .ready ∧ (u.slotAt c k).getX 10 = 0xFFFFFFFFFFFFFFFF#64 ∧
        (u.slotAt c k).getX 11 = 0x1B#64 ∧ (u.slotAt c k).dom = g.dom ∧ u.mem = s.mem) ∧
      ((∀ f ∈ t.frames, f.remaining ≠ 0) → Runs .glimitExpiry s s)) ∧
    (∀ n, s.notices[c]? = some n →
      let w := n.who
      let v := s.slotAt w.core w.slot
      let s1 : State := { s with notices := listDrop s.notices c }
      let here := w.inc = (s.dieAt (dieOf w.core)).inc ∧ v.gen = w.gen ∧ v.unwound = w.unwound
      (∀ d, here → v.st = .blocked (.answer d) →
        let s2 := if n.acq then s1.evictAll (dieOf w.core) else s1
        let v2 := s2.slotAt w.core w.slot
        Runs .noticeDelivery s (s2.setSlot w.core w.slot (((v2.setX d n.val).complete .seq).goesOn v2.pc))) ∧
      (∀ d dva i x, here → v.st = .blocked (.ldf d dva i x) → n.retry = true →
        Runs .noticeDelivery s (s1.setSlot w.core w.slot { v with st := .blocked (.ldfRetry d dva i) })) ∧
      (∀ d dva i x, here → v.st = .blocked (.ldf d dva i x) → n.retry = false →
        let s2 := s1.setSlot w.core w.slot { v with ss := if n.ab then setBit v.ss 15 true else v.ss }
        let s3 := if n.acq then s2.evictAll (dieOf w.core) else s2
        let v3 := s3.slotAt w.core w.slot
        Runs .noticeDelivery s (s3.setSlot w.core w.slot (((v3.setX d n.val).complete .seq).goesOn v3.pc))) ∧
      (w.inc ≠ (s.dieAt (dieOf w.core)).inc → ∃ u : State, (Runs .noticeDelivery s u ∧ Runs .staleResponseDrop s u) ∧
        (u.dieAt (dieOf w.core)).staleResp = (s.dieAt (dieOf w.core)).staleResp + 1 ∧ u.notices = s1.notices ∧ u.cores = s.cores) ∧
      (w.inc = (s.dieAt (dieOf w.core)).inc → Runs .staleResponseDrop s s) ∧
      (w.inc = (s.dieAt (dieOf w.core)).inc → (v.st = .free ∨ v.gen ≠ w.gen ∨ v.unwound ≠ w.unwound) →
        Runs .noticeDelivery s (s1.countLease w.lease fun l => { l with stale := l.stale + 1 }))) ∧
    (∀ d dva n a x s1, c < 4096 → k < 8 → t.st = .blocked (.ldfRetry d dva n) →
      feWord (BitVec.ofNat 64 dva) n false { s with core := c, slot := k } = .ok (a, x) s1 → s1.core = c → s1.slot = k →
      let s2 := s1.drainSlot c k
      s2.core = c → s2.slot = k →
      ∃ u : State, Runs .ldfRetry s u ∧ (u.slotAt c k).st = .blocked (.ldf d dva n x) ∧ u.core = s.core ∧ u.slot = s.slot ∧ u.mem = s2.mem ∧
        (u.homeAt (homeOf (x.paOf dva))).reqs = (s2.homeAt (homeOf (x.paOf dva))).reqs ++
          [.ldf { core := c, slot := k, gen := s2.cur.gen, lease := s2.cur.lease, inc := (s2.dieAt (dieOf c)).inc, d := d, unwound := s2.cur.unwound }
            (x.paOf dva) dva n s2.cur.tag s2.cur.wid]) ∧
    (∀ d q, c < 4096 → k < 8 → t.st = .blocked (.on (.qpop d q)) → t.frames = [] →
      (∀ v rest, t.getQ q.toNat = v :: rest → ∃ u : State, Runs .slotUnblock s u ∧ u.core = s.core ∧ u.slot = s.slot ∧ u.mem = s.mem ∧
        u.slotAt c k = (((t.setQ q.toNat rest).setX d v).complete .seq).goesOn t.pc) ∧
      (t.getQ q.toNat = [] → Runs .slotUnblock s s)) ∧
    (∀ d users, c < 4096 → k < 8 → t.st = .blocked (.drain d users) →
      let inAccess := fun (u : Nat × Nat × BitVec 8) => (s.slotAt u.1 u.2.1).gen = u.2.2 ∧ (s.accessOf u.1 u.2.1).isSome = true
      ((∃ u ∈ users, inAccess u) → Runs .slotUnblock s s) ∧
      ((∀ u ∈ users, ¬ inAccess u) → ∃ u : State, Runs .slotUnblock s u ∧ u.core = s.core ∧ u.slot = s.slot ∧ u.mem = s.mem ∧
        u.slotAt c k = ((t.setX d 0).complete .seq).goesOn t.pc)) ∧
    (c < 4096 → k < 8 → t.st = .ready → Runs .slotUnblock s s ∧ Runs .ldfRetry s s) ∧
    Illegal s .illegalInstruction

/-- The clk, slices, pre-emption, charges and the clock (R17, R62, R69, R91, R102, R377): a clk adds 1 to `cyc` and to `wdc` of every task
outside a callee and MGMT, and a queued message that has now waited 65,536 clk gains its step in that clk, as the machine's next moves (R97); at a slice end the quadrant passes to the next entry with work, the switch comes when it is quiet; a
charge lowers its account's BALANCE, is due where it has been on its way for 4,096 clk, and where it leaves BALANCE above 0 throttling ends
at once (R69). -/
def Obligations.ClockAndSlices : Prop :=
  ∀ (s : State),
    let c := s.ev.a
    let v := s.quadAt c
    (c < 4096 → ∃ u : State, Runs .clk s u ∧ (u.coreAt c).cyc = (s.coreAt c).cyc + 1 ∧ (u.coreAt c).busy = (s.coreAt c).busy - 1 ∧ u.mem = s.mem ∧
      (∀ k, let t := s.slotAt c k
        (t.st ≠ .free → t.frames = [] → (∀ d a, t.st ≠ .blocked (.mgmt d a)) → (u.slotAt c k).wdc = t.wdc + 1) ∧
        ((t.st = .free ∨ t.frames ≠ [] ∨ ∃ d a, t.st = .blocked (.mgmt d a)) → (u.slotAt c k).wdc = t.wdc) ∧
        (u.slotAt c k).x = t.x ∧ (u.slotAt c k).pc = t.pc ∧ (u.slotAt c k).st = t.st ∧
        (t.st ≠ .free → (u.slotAt c k).frames = t.frames.map fun f => { f with remaining := f.remaining - 1 }))) ∧
    (∀ q i m, c < 4096 → q < 3 → ((s.coreAt c).queue q)[i]? = some m → m.aged = false → 65535 ≤ m.age →
      ∃ u : State, Runs .clk s u ∧ .event .messageAgeing { a := c, b := q, c := i } ∈ u.agenda) ∧
    (∀ a n, c < 4096 → s.chargeCore = c → s.pendAge = [(a, n)] → (s.coreAt c).issued = none → (s.coreAt c).jalrClk = 0 →
      (∀ k, (s.slotAt c k).st = .free) → ∃ u : State, Runs .clk s u ∧ u.pendAge = [(a, n + 1)] ∧
        (4096 ≤ n + 1 → .event .chargeArrival { a := a } ∈ u.agenda) ∧ (n + 1 < 4096 → s.agenda = [] → .event .chargeArrival { a := a } ∉ u.agenda)) ∧
    Runs .clockLowering s { s with clockLowered := true } ∧
    (c < 32 → v.preempt = false → v.taking = false → v.sched ≠ [] →
      (v.clk < (v.sched.getD v.idx (0, 0)).2 * 1024 → Runs .sliceEnd s s) ∧
      ((v.sched.getD v.idx (0, 0)).2 * 1024 ≤ v.clk → s.fusedWith c = none →
        (∀ i, s.nextOf [c] = some i → Runs .sliceEnd s (s.setQuad c { v with
          sched := v.next.getD v.sched, next := none, idx := i, clk := 0,
          preempt := decide (v.holder ≠ some ((v.next.getD v.sched).getD i (0, 0)).1) })) ∧
        (s.nextOf [c] = none → v.next = none → Runs .sliceEnd s (s.setQuad c { v with clk := 0 })))) ∧
    (∀ p, c < 32 → v.preempt = true → s.quiet c = true → s.fusedWith c = some p → (s.quadAt p).preempt = true →
      (s.quiet p = false → Runs .preemptionSwitch s s) ∧ (s.quiet p = true → Runs .preemptionSwitch s ((s.switchQuad c).switchQuad p))) ∧
    (c < 32 → (v.preempt = false ∨ s.quiet c = false) → Runs .preemptionSwitch s s) ∧
    (∀ l n, c < 32 → v.preempt = true → s.quiet c = true → s.fusedWith c = none → v.taking = false → v.sched[v.idx]? = some (l, n) →
      ∃ u : State, Runs .preemptionSwitch s u ∧ (u.quadAt c).holder = some l ∧ (u.quadAt c).preempt = false ∧ (u.quadAt c).clk = 0 ∧
        (u.quadAt c).throttled = [] ∧ (u.quadAt c).sched = v.sched) ∧
    (tabGet 0 s.pending c = 0 → Runs .chargeArrival s s) ∧
    (tabGet 0 s.pending c ≠ 0 → ∃ u : State, Runs .chargeArrival s u ∧
      let left := (s.accountAt c).balance - ((tabGet 0 s.pending c : Nat) : Int)
      (u.accountAt c).balance = left ∧ (u.accountAt c).exh = decide (left ≤ 0) ∧ tabGet 0 u.pending c = 0 ∧ tabFind u.pendAge c = none ∧ u.mem = s.mem ∧
      (∀ n, s.coreAt n = { u.coreAt n with slow := (s.coreAt n).slow } ∧
        (∀ b, b ≠ c ∨ left ≤ 0 → tabFind (u.coreAt n).slow b = tabFind (s.coreAt n).slow b) ∧ (0 < left → tabFind (u.coreAt n).slow c = none)) ∧
      (0 < left → ∀ q, (u.quadAt q).preempt = (s.quadAt q).preempt ∧ (u.quadAt q).idx = (s.quadAt q).idx ∧ (u.quadAt q).holder = (s.quadAt q).holder) ∧
      (left ≤ 0 → ∀ q l n, q < 32 → (s.quadAt q).holder = some l → (s.accountsOf l).contains c = true → (s.quadAt q).preempt = false →
        (s.quadAt q).sched = [(l, n)] → s.quads = [(q, s.quadAt q)] → c ∈ (u.quadAt q).throttled) ∧
      (0 < left → ∀ q, c ∉ (u.quadAt q).throttled))

/-! ### Stores, dies and homes -/

/-- Store buffers, held lines and walks (R178, R281, R283 to R286, R300, R352): the head entry of a store buffer leaves it. On a NORMAL page of
another home its bytes are in the die's remote copy, which is filled where it was not held, and their words are dirty; else they are at their
home, and on a PERSIST page in the copy that the die holds too, clean, and in the youngest record of the lehr. FILL takes a line of the
remote copy that the die does not hold, where the RDC has room for it (R10), and nothing of the die's own home; WRITEBACK puts every dirty word
home and cleans the line; EVICT removes a clean line only; a walk keeps its translation. -/
def Obligations.StoreAndDieEvents : Prop :=
  ∀ (s : State) (x : Xlat) (l : Line) (e : SbEntry) (rest : List SbEntry) (bytes : List Byte), s.Canonical →
    let c := s.ev.a
    let lease := s.ev.b
    let ln := s.ev.c
    let k := s.coreAt c
    let d := s.dieAt c
    (c < 4096 → k.sb = e :: rest → e.op = .store bytes → ((e.x.kind ≠ 0 ∧ e.x.kind ≠ 3) ∨ (e.x.kind = 0 ∧ ownView (dieOf c) (e.x.paOf e.dva) = true ∧
        ((s.dieAt (dieOf c)).lines.filter fun y => y.remote == false).length < 3145728)) →
      ∃ u : State, Runs .storeBufferDrain s u ∧ (u.coreAt c).sb = rest ∧ u.homeRead (e.x.paOf e.dva) bytes.length = bytes ∧
        ∀ a, a < e.x.paOf e.dva ∨ e.x.paOf e.dva + bytes.length ≤ a → u.byteAt a = s.byteAt a) ∧
    (c < 4096 → k.sb = e :: rest → e.op = .store bytes →
      let pa := e.x.paOf e.dva
      let die := dieOf c
      let o := e.dva % 64
      let touched := fun (i : Nat) => decide (o < 4 * i + 4 ∧ 4 * i < o + bytes.length)
      let copy := fun (u : State) (old : List Byte) (dirty : BitVec 16) => ∃ y, u.lineOf die e.x.lease (e.dva / 64) = some y ∧
        y.x = e.x ∧ y.bytes = putAt old o bytes ∧ ∀ i, i < 16 → y.dirty.getLsbD i = (dirty.getLsbD i || touched i)
      (e.x.kind = 0 → ownView die pa = false →
        (s.lineOf die e.x.lease (e.dva / 64) = some l → l.x = e.x →
          ∃ u : State, Runs .storeBufferDrain s u ∧ (u.coreAt c).sb = rest ∧ u.mem = s.mem ∧ copy u l.bytes l.dirty) ∧
        (s.lineOf die e.x.lease (e.dva / 64) = none → ((s.dieAt die).lines.filter fun y => y.remote == true).length < 524288 →
          ∃ u : State, Runs .storeBufferDrain s u ∧ (u.coreAt c).sb = rest ∧ u.mem = s.mem ∧ copy u (s.homeRead (pa / 64 * 64) 64) 0)) ∧
      (e.x.kind = 3 → e.poison = false → ¬ (131072 ≤ ((s.lehr (portOf pa)).filter (·.accepted)).length ∧ ∃ r ∈ s.lehr (portOf pa), r.accepted = false) →
        ∃ u : State, Runs .storeBufferDrain s u ∧ (u.coreAt c).sb = rest ∧ u.homeRead pa bytes.length = bytes ∧
          (∀ a, a < pa ∨ pa + bytes.length ≤ a → u.byteAt a = s.byteAt a) ∧
          u.lehr (portOf pa) = s.lehr (portOf pa) ++
            [{ core := c, slot := e.slot, gen := e.gen, epoch := e.epoch, pa := pa, bytes := bytes, accepted := false }] ∧
          (s.lineOf die e.x.lease (e.dva / 64) = some l → ownView die pa = false → ∃ y, u.lineOf die e.x.lease (e.dva / 64) = some y ∧
            y.x = l.x ∧ y.bytes = putAt l.bytes o bytes ∧ y.dirty = l.dirty))) ∧
    (c < 4096 → k.sb = [] → Runs .storeBufferDrain s s) ∧
    (c < 8 → (d.dtc.find? fun y => y.covers lease (64 * ln)) = some x → x.cached = true →
      (ownView c (x.paOf (64 * ln)) = true → Runs .fill s s) ∧
      (ownView c (x.paOf (64 * ln)) = false → s.lineOf c lease ln = none → (d.lines.filter fun y => y.remote == true).length < 524288 →
        ∃ u y, Runs .fill s u ∧ u.lineOf c lease ln = some y ∧ y.x = x ∧ y.dirty = 0 ∧ y.remote = true ∧ y.rows = [] ∧
          y.bytes = s.homeRead (x.paOf (64 * ln) / 64 * 64) 64 ∧ u.mem = s.mem)) ∧
    (c < 8 → s.lineOf c lease ln = some l → l.bytes.length = 64 → ∃ u : State, Runs .writeback s u ∧
      (∃ y, u.lineOf c lease ln = some y ∧ y = { l with dirty := 0 }) ∧
      (∀ i, i < 16 → l.dirty.getLsbD i = true → u.homeRead (l.pa + 4 * i) 4 = (l.bytes.drop (4 * i)).take 4) ∧
      (∀ i, i < 16 → l.dirty.getLsbD i = false → u.homeRead (l.pa + 4 * i) 4 = s.homeRead (l.pa + 4 * i) 4)) ∧
    (c < 8 → s.lineOf c lease ln = some l →
      (l.dirty = 0 → ∃ u : State, Runs .evict s u ∧ u.lineOf c lease ln = none ∧ u.mem = s.mem ∧ u.cores = s.cores) ∧
      (l.dirty ≠ 0 → Runs .evict s s)) ∧
    (∀ s1, c < 8 → (s.leaseAt lease).isSome = true → ln < 0x7FFFFFF00000 → walk c lease ln { write := s.ev.flag, fetch := false } s = .ok x s1 →
      Runs .pageWalk s s1 ∧ x ∈ (s1.dieAt c).dtc)

/-- What a home does with its oldest request (R148 to R151, R287, R312, R317): LDF of a FULL word answers its data, of an EMPTY one it waits
with the task's launch tag and work identifier; STF writes and sets FULL, answers an LDF that waited for the word with its data, and the asking
die keeps no remote copy of the line; SETE empties one word a move and leaves its data, and its other words follow as a request of their own (log
entry 67, the model's place for it); a request of an older incarnation is discarded and counted. -/
def Obligations.HomeRequests : Prop :=
  ∀ (s : State) (who : Asker) (pa dva n tag : Nat) (wid v : Word) (rest : List HomeReq), s.Canonical →
    let h := s.ev.a
    let q := s.homeAt h
    let die := dieOf who.core
    let now := who.inc = (s.dieAt die).inc
    let clean := ∀ l, s.lineOf die who.lease (dva / 64) = some l → l.remote = false
    h < 8 →
    (q.reqs = .ldf who pa dva n tag wid :: rest → now → clean →
      (s.feOf pa = 1 → s.linePoisoned pa = false → ∃ u : State, Runs .ldfHome s u ∧ (u.homeAt h).reqs = rest ∧ u.mem = s.mem ∧
        u.notices = s.notices ++ [{ who := who, val := BitVec.ofNat 64 (leNat (s.homeRead pa n)), ab := false, acq := true, retry := false }]) ∧
      (s.feOf pa = 0 → (s.homeAt (homeOf pa)).waits = [] → ∃ u : State, Runs .ldfHome s u ∧ u.notices = s.notices ∧ u.mem = s.mem ∧
        ∃ w, (u.homeAt (homeOf pa)).waits = [w] ∧ w.isLdf = true ∧ w.pa = pa ∧ w.lease = who.lease ∧ w.core = who.core ∧ w.n = n ∧ w.d = who.d ∧
          w.tag = tag ∧ w.wid = wid)) ∧
    (q.reqs = .stf who pa dva n v :: rest → now → ∃ u : State, Runs .stfHome s u ∧ u.feOf pa = 1 ∧
      (∀ l, u.lineOf die who.lease (dva / 64) = some l → l.remote = false) ∧
      ((∀ w ∈ (s.homeAt (homeOf pa)).waits, ¬ (w.isLdf = true ∧ w.pa / 8 = pa / 8)) → u.homeRead pa n = leBytes n v.toNat ∧
        (clean → ∀ a, a < pa ∨ pa + n ≤ a → u.byteAt a = s.byteAt a)) ∧
      (∀ w, (s.homeAt (homeOf pa)).waits = [w] → w.isLdf = true → w.pa = pa → w.n = n → w.poison = false → clean → s.linePoisoned pa = false →
        w.asker.inc = (s.dieAt (dieOf w.core)).inc → (∀ l, s.lineOf (dieOf w.core) w.lease (w.dva / 64) = some l → l.remote = false) →
        u.notices = s.notices ++ [{ who := w.asker, val := BitVec.ofNat 64 (leNat (leBytes n v.toNat)), ab := false, acq := true, retry := false }] ∧
          (u.homeAt (homeOf pa)).waits = [])) ∧
    (q.reqs = .sete who pa dva n :: rest → now → n ≠ 0 → ∃ u : State, Runs .seteHome s u ∧ u.feOf pa = 0 ∧
      (∀ b, b / 8 ≠ pa / 8 → u.feOf b = s.feOf b) ∧ (clean → u.mem = s.mem) ∧
      (n = 1 → (u.homeAt h).reqs = rest) ∧
      (1 < n → homeOf (pa + 8) = h → ∃ before after, rest = before ++ after ∧
        (u.homeAt h).reqs = before ++ .sete who (pa + 8) (dva + 8) (n - 1) :: after ∧
        ∀ r ∈ before, HomeReq.behind who (pa + 8) (n - 1) r = false)) ∧
    (q.reqs = .sete who pa dva 0 :: rest → now → Runs .seteHome s (s.setHome h { q with reqs := rest })) ∧
    (q.reqs = .stf who pa dva n v :: rest → ¬ now →
      Runs .staleRequestDiscard s (s.setHome h { q with reqs := rest, staleReq := q.staleReq + 1 })) ∧
    (q.reqs = .stf who pa dva n v :: rest → now → Runs .staleRequestDiscard s s ∧ Runs .ldfHome s s ∧ Runs .seteHome s s) ∧
    (q.reqs = [] → Runs .ldfHome s s ∧ Runs .stfHome s s ∧ Runs .seteHome s s ∧ Runs .staleRequestDiscard s s)

/-- The gather engine at its home (R242, R258, R260, R266, R267 to R272): a contribution of a vector or of a tile that overlaps is refused with
OVERLAP, one outside [0, K) with RANGE, one whose elements the gather has no place for with SHAPE, one that would leave more than eight
intervals with FRAG, and each is counted; one that fits is added element by element, whatever was recorded before, its interval joins the
record, and the one that completes [0, K) sets the data words FULL and answers FULL; what a contribution adds in rows past the 32 that a list has is a
free value, as R259 and R268 give none (log entry 68); GINIT makes an open, empty gather of zeros; GABAND sets
the data words ABANDONED; GSTAT answers word 0. -/
def Obligations.GatherEngine : Prop :=
  ∀ (s : State) (who : Asker) (pa a b shape : Nat) (data : List Lane) (rest : List HomeReq), s.Canonical →
    let h := s.ev.a
    let q := s.homeAt h
    let w0 := leNat (s.homeRead pa 8)
    let w1 := leNat (s.homeRead (pa + 8) 8)
    let record := gRecord (s.gIntervals pa) (gFrags w0)
    let size := gRows w0 * gCols w0
    let noLdf := ∀ e ∈ s.homes, ∀ w ∈ e.2.waits, w.isLdf = false
    let ask := fun (op : GatherOp) => q.reqs = .gather who pa op :: rest
    let gives := fun (i : Instr) (v : Word) (f : State → Prop) => ∃ u : State, Runs i s u ∧
      (∃ n, u.notices.getLast? = some n ∧ n.who = who ∧ n.val = v ∧ n.retry = false) ∧ f u
    let refused := fun (u : State) => leNat (u.homeRead (pa + 8) 8) = w1 % 65536 + min (w1 / 65536 % 65536 + 1) 65535 * 65536 ∧
      ∀ x, x < pa + 8 ∨ pa + 16 ≤ x → u.byteAt x = s.byteAt x
    h < 8 → homeOf pa = h → who.inc = (s.dieAt (dieOf who.core)).inc → s.poison = [] → s.gDead pa = false →
    (∀ gadd c0, ask (.contribute gadd a b c0 data) → s.gHeaderOk pa = true → gState w0 = 0 →
      let clear := ∀ f ∈ record, ¬ (a < f.2 ∧ f.1 < b)
      let within := a < b ∧ b ≤ gK w0
      let fits := if gadd then gFmt w0 = 0 ∧ c0 + gCols w0 ≤ 64 else size ≤ 16
      let new := insertFrag a b record
      ((∃ f ∈ record, a < f.2 ∧ f.1 < b) → gives .gatherContribution 2 refused) ∧
      (clear → ¬ within → gives .gatherContribution 7 refused) ∧
      (clear → within → ¬ fits → gives .gatherContribution 5 refused) ∧
      (clear → within → recordOk (gK w0) new = true ∧
        ∀ x, (∃ f ∈ new, f.1 ≤ x ∧ x < f.2) ↔ (a ≤ x ∧ x < b) ∨ ∃ f ∈ record, f.1 ≤ x ∧ x < f.2) ∧
      (clear → within → fits → 8 < new.length → gives .gatherContribution 3 refused) ∧
      (clear → within → fits → new.length ≤ 8 → noLdf →
        gives .gatherContribution (if new = [(0, gK w0)] then 1 else 0) fun u =>
          (∀ i, i < size → leNat (u.homeRead (pa + 64 + 4 * i) 4) =
            (let old : Lane := BitVec.ofNat 32 (leNat (s.homeRead (pa + 64 + 4 * i) 4))
             let x := if gadd = true ∧ 32 ≤ i / gCols w0 then Config.freeLane (s.free + i)
               else data.getD (if gadd then i / gCols w0 * 64 + c0 + i % gCols w0 else i) 0
             if gFmt w0 = 0 then (fpAdd 0 old x).1 else old + x : Lane).toNat) ∧
          gRecord (u.gIntervals pa) (gFrags (leNat (u.homeRead pa 8))) = new ∧
          leNat (u.homeRead (pa + 8) 8) = w1 / 65536 * 65536 + min (w1 % 65536 + 1) 65535 ∧
          (new = [(0, gK w0)] → gState (leNat (u.homeRead pa 8)) = 1 ∧ ∀ i, i < gDataWords w0 → u.feOf (pa + 64 + 8 * i) = 1) ∧
          (new ≠ [(0, gK w0)] → gState (leNat (u.homeRead pa 8)) = 0 ∧ u.fe = s.fe) ∧
          ∀ x, x < pa ∨ pa + 64 + 4 * size ≤ x → u.byteAt x = s.byteAt x)) ∧
    (ask (.init shape) → gives .gatherInitPerform 0 fun u => leNat (u.homeRead pa 8) = shape % 2 ^ 38 ∧
      (∀ i, i < 56 → u.byteAt (pa + 8 + i) = 0) ∧ (∀ i, i < 4 * (gRows shape * gCols shape) → u.byteAt (pa + 64 + i) = 0) ∧
      (∀ i, i < gDataWords shape → u.feOf (pa + 64 + 8 * i) = 0)) ∧
    (ask .abandon → s.gHeaderOk pa = true → gState w0 = 0 → gives .gatherAbandonPerform 0 fun u =>
      (noLdf → gState (leNat (u.homeRead pa 8)) = 2) ∧ (∀ i, i < gDataWords w0 → u.feOf (pa + 64 + 8 * i) = 2)) ∧
    (ask .abandon → gState w0 ≠ 0 → gives .gatherAbandonPerform 4 fun u => u.mem = s.mem) ∧
    (ask .stat → gives .gatherQueryPerform (BitVec.ofNat 64 w0) fun u => u.mem = s.mem) ∧
    (ask (.record 8) → gives .gatherQueryPerform (BitVec.ofNat 64 w1) fun u => u.mem = s.mem) ∧
    (q.reqs = [] → ∀ i ∈ [Instr.gatherContribution, .gatherInitPerform, .gatherAbandonPerform, .gatherQueryPerform], Runs i s s)

/-! ### Copies and collectives -/

/-- The copy engine (R163, R164, R166, R291, R310, R400, R404): a command starts after a release of its slot's stores, moves its bytes chunk by
chunk, waits where another device has not answered, and completes with status 1 when all are written; an access that faults ends it; a
COLL goes to the collective engine of the home die, where a source on another device is asked for, and any other is read and leaves for the
members on other devices (R308), what its message carries being the model's (log entry 56); a collective of one member copies its source, whatever
its operation, and ends when what it wrote elsewhere is acknowledged. The bytes of members on other devices are acknowledged when all that was made
of them is performed at its home, and answered as refused where a part failed, with cause 6, or, with cause DESC, where the members differ (R310,
log entry 56). One that a peer aborts, on the control channel and in its turn (log entry 56), or that makes no progress for four million clk, ends
PEER_ABORT. The order of the additions is log entry 8, the sizes and the layout of results log entry 21, and that a copy that scrubs, `scrubM`, removes
a gather and clears poison log entry 62, the model's. -/
def Obligations.CopyEvents : Prop :=
  ∀ (s : State) (q : CopyCmd) (rest : List CopyCmd),
    let c := s.ev.a
    let k := s.coreAt c
    let given : Answer := { bytes := s.ev.bytes, inc := s.ev.finc, seq := s.ev.fseq }
    (k.held = [] → k.copyq = q :: rest → q.poison = false →
      (∀ s1, q.active = false → q.coll = false → s.engineRelease c q = some s1 →
        Runs .copyStart s (s1.setCopyq c ({ q with active := true } :: rest))) ∧
      (q.active = true → Runs .copyStart s s) ∧
      (∀ bs s1 s2 s3, q.active = true → q.coll = false → q.done < q.total → ecopyBytes c q given s = .ok (some bs) s1 →
        engWrite q c q.dstAt (cPeer q.desc) (cMode q.desc == 3) bs s1 = .ok () s2 → q.scrubM c s2 = .ok () s3 →
        Runs .ecopy s (s3.setCopyq c ({ q with done := q.done + q.chunk } :: rest))) ∧
      (∀ s1, q.active = true → q.coll = false → q.done < q.total → ecopyBytes c q given s = .ok none s1 → Runs .ecopy s (s1.setCopyq c (q :: rest))) ∧
      (∀ f s1, q.active = true → q.coll = false → q.done < q.total → ecopyBytes c q given s = .error (.fault f) s1 →
        Runs .ecopy s ((s1.setCopyq c rest).engineFault c q f)) ∧
      (q.active = false → Runs .ecopy s s) ∧
      (q.active = true → q.coll = false → q.total ≤ q.done → s.copyOnFabric c q = false → (cMode q.desc = 0 ∨ cMode q.desc = 3) →
        ∃ u : State, Runs .copyComplete s u ∧ (u.coreAt c).copyq = rest ∧ u.mem = s.mem ∧
          ((tabFind (s.lcoreAt q.lease c).copySt q.id).isSome = true → tabFind (u.lcoreAt q.lease c).copySt q.id = some 1)) ∧
      (q.done < q.total → Runs .copyComplete s s) ∧
      (∀ s1, q.coll = true → s.engineRelease c q = some s1 →
        let t := s1.setCopyq c rest
        let x : Coll := { core := c, cmd := { q with active := true }, inc := (s.dieAt (dieOf c)).inc }
        let t := t.collProgress (t.sameColl x)
        (t.collSource x = none → t.collAway x = [] → Runs .collectiveStart s { t with colls := t.colls ++ [x] }) ∧
        (∀ node dva, t.collSource x = some (node, dva) → ∃ (u : State) (r : FabReq), Runs .collectiveStart s u ∧ u.colls = t.colls ++ [x] ∧
          u.mem = t.mem ∧ u.fabric = t.fabric ++ [r] ∧ r.kind = 3 ∧ r.vc = .data ∧ r.dest = node * 8192 ∧ r.core = c ∧ r.copyId = q.id ∧
          r.data = [BitVec.ofNat 64 dva, BitVec.ofNat 64 x.srcBytes]) ∧
        (∀ t' bs m, t.collSource x = none → t.collAway x = [m] → t.collRead x = (t', .ok bs) →
          ∃ (u : State) (r : FabReq), Runs .collectiveStart s u ∧ u.colls = t'.colls ++ [{ x with given := some bs }] ∧ u.mem = t'.mem ∧
            u.fabric = t'.fabric ++ [r] ∧ r.kind = 4 ∧ r.vc = .data ∧ r.dest = m.1 * 8192 ∧ r.core = c ∧ r.copyId = q.id ∧
            r.data = [BitVec.ofNat 64 (kGroup q.desc), BitVec.ofNat 64 q.n] ++ bs.map fun b => b.zeroExtend 64) ∧
        (∀ t' e, t.collSource x = none → t.collAway x ≠ [] → t.collRead x = (t', .error e) →
          Runs .collectiveStart s { t with colls := t.colls ++ [x] })) ∧
      (q.coll = false → Runs .collectiveStart s s)) ∧
    (∀ s1, k.held = [] → k.copyq = q :: rest → q.coll = false → s.engineRelease c q = some s1 → (∀ v ∈ k.vecq, v.slot ≠ q.slot) →
      (∀ e ∈ k.sb, e.slot ≠ q.slot) → s1 = s.writebackAll (dieOf c)) ∧
    (∀ x g s1 bs, s.colls = [x] → x.written = false → s.groupOf x.cmd.lease (kGroup x.cmd.desc) = some g → g = (1, [(0, (s.node, x.cmd.lease))]) →
      (s.homeAt (dieOf x.core)).held = [] → c = 0 → s.ev.flag = false → s.ev.order = .rank 0 → kOp x.cmd.desc < 4 → kRoot x.cmd.desc = 0 →
      bs ≠ [] → bs.length = kCount x.cmd.desc * kElem x.cmd.desc → (x.given.isSome = true ∨ s.collSource x = none) →
      ({ s with colls := [] } : State).collRead x = (s1, .ok bs) →
      Runs .collectiveComplete s ((s1.collWrite x bs).1.peerDone x (s1.collWrite x bs).2)) ∧
    (∀ x g, s.colls = [x] → x.written = false → s.groupOf x.cmd.lease (kGroup x.cmd.desc) = some g → g.2 = [(0, (s.node, x.cmd.lease))] →
      (s.homeAt (dieOf x.core)).held = [] → c = 0 → s.ev.flag = true →
      Runs .collectiveComplete s ((({ s with colls := [] } : State).stopColl x (.fault { cause := 0x09 })).peerGone (s.peerOf x) 0x09)) ∧
    (∀ (t : State) (x : Coll) (b : PeerBytes) (failed : Bool), t.peerBytes = [b] → b.group = kGroup x.cmd.desc → b.n = x.cmd.n →
      (t.leaseD b.holder).part = (t.leaseD x.cmd.lease).part →
      let bad := failed || b.made == some true
      ((∃ y ∈ t.colls, y.written = true ∧ t.sameColl { x with written := true } y = true) →
        t.peerDone x failed = { t with peerBytes := [{ b with made := some bad }] }) ∧
      ((∀ y ∈ t.colls, y.written = false ∨ t.sameColl { x with written := true } y = false) →
        t.peerDone x failed = ({ t with peerBytes := [] } : State).respond b.origin (if bad = true then 6 else 0) bad)) ∧
    (∀ (t : State) (b : PeerBytes) (p : PeerBytes → Bool) (cause : Nat), t.peerBytes = [b] → p b = true →
      t.peerGone p cause = ({ t with peerBytes := [] } : State).respond b.origin cause true) ∧
    (∀ x, s.colls[c]? = some x →
      let held := (s.homeAt (dieOf x.core)).held
      let rest : State := { s with colls := listDrop s.colls c }
      let turn := s.cutOff s.ev.fid = false ∧ s.ev.fseq = tabGet 0 s.fabSeq (4 * s.ev.fid + 3)
      let ends := fun (t : State) => let u := t.endColl x 5; if x.written = true then u.peerDone x true else u
      (held = [] → s.ev.flag = false → 4000000 ≤ x.age → Runs .collectiveAbort s (ends rest)) ∧
      (held = [] → s.ev.flag = true → turn → Runs .collectiveAbort s (ends (rest.taken s.ev.fid .control s.ev.fseq))) ∧
      ((held ≠ [] ∨ (s.ev.flag = false ∧ x.age < 4000000) ∨ (s.ev.flag = true ∧ ¬ turn)) → Runs .collectiveAbort s s) ∧
      (x.written = true → s.copyOnFabric x.core x.cmd = false → held = [] → Runs .collectiveComplete s ((rest.endColl x 1).peerDone x false)) ∧
      (x.written = true → s.copyOnFabric x.core x.cmd = true → Runs .collectiveComplete s s)) ∧
    (s.colls[c]? = none → (s.ev.flag = false → Runs .collectiveAbort s s) ∧ Runs .collectiveComplete s s)

/-! ### Durable memory, power, resets, errors and the fabric -/

/-- Lehrs, power and bring-up (R137, R352, R357 to R359, R398, R407): a record is accepted when power holds and nothing earlier bars
it, and retires to the durable store; power loss leaves what is durable and host memory; bring-up, where its three images verify (R405), sets the sizes it finds: a
far tier is no larger than four times what any port reports, and empty where a port has none, and a port's PEN is set where its expander
reports persistent capacity and Global Persistent Flush (R360). That a lost byte, outside host memory, which nothing durable holds, reads 0 is the
model's choice (log entry 4): R358 says only that it is lost. -/
def Obligations.PowerEvents : Prop :=
  ∀ (s : State) (y : Record) (rest : List Record) (b : BringUp),
    let p := s.ev.a
    let q := s.lehr p
    (p < 4 → q = y :: rest → s.ev.b = 0 →
      (s.pwrfail = false → y.accepted = false → (q.filter (·.accepted)).length < 131072 → s.earlierEpoch y = false →
        Runs .lehrAccept s (s.setLehr p ({ y with accepted := true } :: rest))) ∧
      ((s.pwrfail = true ∨ y.accepted = true ∨ s.earlierEpoch y = true) → Runs .lehrAccept s s)) ∧
    (p < 4 → q = y :: rest → y.accepted = true → ∃ u : State, Runs .lehrRetire s u ∧ u.lehr p = rest ∧ u.mem = s.mem ∧
      (∀ i, i < y.bytes.length → tabFind u.durable (y.pa + i) = y.bytes[i]?) ∧
      (∀ a, a < y.pa ∨ y.pa + y.bytes.length ≤ a → tabFind u.durable a = tabFind s.durable a)) ∧
    (p < 4 → (∀ r ∈ q, r.accepted = false) → Runs .lehrRetire s s) ∧
    (∃ u : State, Runs .pwrfailN s u ∧ u.pwrfail = true ∧ u.mem = s.mem ∧ u.cores = s.cores ∧ ∀ n, n < 4 → ∀ r ∈ u.lehr n, r.accepted = false) ∧
    (∃ u : State, Runs .powerLoss s u ∧ u.up = false ∧ u.cores = [] ∧ u.lcores = [] ∧ u.launches = [] ∧ u.lehrs = [] ∧
      (s.Canonical → u.Canonical ∧ ∀ a, windowOf a = 11 → tabFind u.durable a = none → u.byteAt a = s.byteAt a) ∧
      (s.Canonical → ∀ a, windowOf a ≠ 11 → tabFind u.durable a = none → u.byteAt a = 0)) ∧
    (s.ev.found = some b → (∀ i, i < 3 → b.verified.getD i false = true) → ∃ u : State, Runs .packageReset s u ∧ u.up = true ∧ u.interleave = min b.interleave 64 ∧
      u.node = b.node % 524288 ∧ u.atomicOps = b.atomicOps ∧ u.persistSize ≤ 2 ^ 44 ∧ u.persistSize % 16384 = 0 ∧
      u.volatileSize + u.persistSize ≤ 2 ^ 44 ∧
      (∀ p, p < 4 → (tabGet 0 u.lehrFlags p % 2 = 1 ↔ b.pen.getD p false = true ∧ b.gpf.getD p false = true ∧ 0 < (b.persistent.getD p none).getD 0)) ∧
      (∀ p, p < 4 → u.persistSize ≤ 4 * ((b.persistent.getD p none)).getD 0 ∧ u.volatileSize ≤ 4 * ((b.volatile.getD p none)).getD 0) ∧ u.cores = [] ∧ (∀ l, u.leaseAt l ≠ none → l = 0)) ∧
    (s.ev.found = some b → (∃ i, i < 3 ∧ b.verified.getD i false = false) → ∃ u : State, Runs .packageReset s u ∧ u.up = false ∧ ∃ e, u.log = [e]) ∧
    (s.ev.found = none → Runs .packageReset s s)

/-- Resets and errors (R311, R312, R348, R379, R380, R383, R384): a core die begins anew with a new incarnation, every task of it FREE, when no
traffic carries the number any more, a command that still waits to be answered and a held token among it; that its translation cache is empty is log
entry 26, the model's reading. Frames that a lease reset or a command released are scrubbed, zero and FULL, only when no access that was checked or
translated before is under way any more, as log entry 36 reads R190 and R192. A lease reset leaves nothing of
the lease on cores and dies but the statuses of ended copies of a core it holds (log entry 57); that the watchdog's limit is 0xFFFFFFFF and the
scratchpads are as at creation after it is log entry 39, the model's reading. An
error poisons the word, line or entry it hits, a command in the gaffer's queue too, an 8-byte word of a scratchpad, one element of an accumulator (log entries 14 and 40, the
model's extents); a tag error drops the line from its home cache and, where it was dirty, resets the leases
named. The house's log has kinds of its own, with code 0, for what no cause names (log entry 30). -/
def Obligations.ResetsAndErrors : Prop :=
  ∀ (s : State) (l : Lease),
    let a := s.ev.a
    (a < 8 → s.incUsed a ((s.dieAt a).inc + 1) = true → Runs .dieReset s s ∧ Runs .pairLinkFailure s s) ∧
    (a < 8 → s.incUsed a ((s.dieAt a).inc + 1) = false → ∀ i ∈ [Instr.dieReset, .pairLinkFailure], ∃ u : State, Runs i s u ∧ (u.dieAt a).lines = [] ∧ (u.dieAt a).dtc = [] ∧ (u.dieAt a).deltas = [] ∧
      (u.dieAt a).trackers = [] ∧ (u.dieAt a).inc = (s.dieAt a).inc + 1 ∧
      (∀ c k, c < 4096 → dieOf c = a → k < 8 → (u.slotAt c k).st = .free) ∧
      ∃ e ∈ u.log, e.part = 0 ∧ e.a = 5 ∧ e.b = a) ∧
    (∀ r g, r ∈ s.releasing → r.cmd = some g → g.asked = some (a, (s.dieAt a).inc + 1) → s.incUsed a ((s.dieAt a).inc + 1) = true) ∧
    (∀ e c k gen depth q v n, e ∈ s.homes → Held.token c k gen depth q v n ((s.dieAt a).inc + 1) ∈ e.2.held → dieOf c = a →
      s.incUsed a ((s.dieAt a).inc + 1) = true) ∧
    (s.leaseAt a = none → Runs .leaseReset s s.scrubReleased) ∧ (s.releasing = [] → s.scrubReleased = s) ∧
    (∀ r, s.releasing = [r] → (s.inUse r.users = true → s.scrubReleased = s) ∧
      (s.Canonical → s.inUse r.users = false → r.cmd = none → s.scrubReleased.releasing = [] ∧
        ∀ pa ∈ r.frames, ∀ i, i < 4096 → s.scrubReleased.byteAt (pa / 4096 * 4096 + i) = 0 ∧ s.scrubReleased.feOf (pa / 4096 * 4096 + i) = 1)) ∧
    (s.leaseAt a = some l → s.releasing = [] → ∃ u : State, Runs .leaseReset s u ∧ (∀ e ∈ u.lcores, e.1 / 4096 = a → s.holderOf (e.1 % 4096) = some a ∧
        (∀ x ∈ e.2.copySt, x.2 ≠ 0) ∧ ∃ old ∈ s.lcores, old.1 = e.1 ∧ e.2 = { LCore.fresh l.w3 l.ten0 with copySt := e.2.copySt, copyId := old.2.copyId }) ∧ (∀ e ∈ u.rows, e.1 / 256 ≠ a) ∧
      (∀ v, u.leaseAt a = some v → v.regions = [] ∧ v.wdl = 0xFFFFFFFF#32 ∧ v.kept = [] ∧ v.frames = []) ∧
      (∀ d ∈ u.dies, (∀ e ∈ d.2.deltas, e.lease ≠ a) ∧ (∀ t ∈ d.2.trackers, t.lease ≠ a))) ∧
    (∀ pa, s.ev.site = some (.memLine pa) → s.inWindow pa = true → ∃ u : State, Runs .uncorrectableError s u ∧ u.linePoisoned pa = true ∧ u.mem = s.mem) ∧
    (∀ pa, s.ev.site = some (.memLine pa) → s.inWindow pa = false → exec .uncorrectableError s = .fault (.noSuchAddress pa)) ∧
    (∀ lease c off, s.ev.site = some (.spadWord lease c off) → off < 0x40000 → (s.leaseAt lease).isSome = true → c < 4096 →
      ∃ u : State, Runs .uncorrectableError s u ∧ off / 8 ∈ (u.lcoreAt lease c).spadPoison ∧ u.cores = s.cores) ∧
    (∀ lease c visible tile r k, s.ev.site = some (.accWord lease c visible tile r k) → tile < 8 → r < 32 → k < 64 → (s.leaseAt lease).isSome = true → c < 4096 →
      ∃ u : State, Runs .uncorrectableError s u ∧ accKey visible tile r k ∈ (u.lcoreAt lease c).accPoison ∧ u.cores = s.cores) ∧
    (∀ die lease ln y, s.ev.site = some (.cacheLine die lease ln) → die < 8 → s.lineOf die lease ln = some y → y.remote = true →
      ∃ u : State, Runs .uncorrectableError s u ∧ u.lineOf die lease ln = some { y with poison := true } ∧ u.mem = s.mem) ∧
    (∀ c i e, s.ev.site = some (.storeEntry c i) → c < 4096 → (s.coreAt c).sb[i]? = some e →
      ∃ u : State, Runs .uncorrectableError s u ∧ (u.coreAt c).sb[i]? = some { e with poison := true } ∧ u.mem = s.mem) ∧
    (∀ port i r, s.ev.site = some (.lehrRecord port i) → port < 4 → (s.lehr port)[i]? = some r →
      ∃ u : State, Runs .uncorrectableError s u ∧ (u.lehr port)[i]? = some { r with poison := true } ∧ u.mem = s.mem) ∧
    (∀ home i r, s.ev.site = some (.homeRequest home i) → home < 8 → (s.homeAt home).reqs[i]? = some r →
      ∃ u : State, Runs .uncorrectableError s u ∧ (u.homeAt home).reqs[i]? = some (.bad r) ∧ u.mem = s.mem) ∧
    (∀ gang i g p, s.ev.site = some (.passEntry gang i) → tabFind s.gangs gang = some g → g.passes[i]? = some p →
      ∃ (u : State) (g' : Gang), Runs .uncorrectableError s u ∧ tabFind u.gangs gang = some g' ∧ g'.passes[i]? = some { p with poison := true } ∧ u.mem = s.mem) ∧
    (∀ i x, s.ev.site = some (.collective i) → s.colls[i]? = some x →
      ∃ u : State, Runs .uncorrectableError s u ∧ u.colls[i]? = some { x with cmd := { x.cmd with poison := true } } ∧ u.mem = s.mem) ∧
    (∀ i g, s.ev.site = some (.gafferCommand i) → s.gaffer[i]? = some g →
      ∃ u : State, Runs .uncorrectableError s u ∧ u.gaffer[i]? = some { g with poison := true } ∧ u.mem = s.mem) ∧
    (∀ c i, s.ev.site = some (.storeEntry c i) → 4096 ≤ c → exec .uncorrectableError s = .fault (.noSuchUnit 0)) ∧
    (s.ev.site = none → Runs .uncorrectableError s s) ∧
    (a < 8 → s.ev.flag = true → s.ev.flag2 = false →
      let v := s.homeAt a
      let ln := s.ev.b / 64
      let t := s.setHome a { v with cache := v.cache.filter fun e => e.1 != ln }
      let found := v.cache.find? fun e => e.1 == ln
      ((found = none ∨ found = some (ln, false)) → Runs .homeTagParityError s t) ∧
      (∀ n, found = some (ln, true) → s.ev.nats = [n] → n ≠ 0 → (s.leaseAt n).isSome = true →
        ∃ u : State, Runs .homeTagParityError s (u.resetLease n) ∧ u = { t with mem := u.mem, free := u.free } ∧
          (s.Canonical → ∀ b, b < 64 * ln ∨ 64 * ln + 64 ≤ b → u.byteAt b = s.byteAt b))) ∧
    (∃ u : State, Runs .correctableError s u ∧ tabGet 0 u.corrected a = tabGet 0 s.corrected a + 1 ∧ u.cores = s.cores ∧ u.mem = s.mem)

/-- Links and the fabric (R278, R308 to R312, R384, R399, R400, R401, R403): a link or port that goes down is recorded once, in kinds of the
house's log that are the model's (log entry 30); the sixteenth failed replay of a flit takes its port down, and a port asks for a replay on the
control channel; a request of another device is taken in the order of its channel, admitted to a lease or refused with a cause, and answered; it
bears the sender word that came with it, with LOCAL as the sender's device has it (R45). An acknowledgement is taken in the order of its own
channel and settles its request, one of an older incarnation is counted, and a refused request, or one that waited four million clk, fails. The
events that carry responses, and the turn by sequence number, are log entry 56, and the port route and its cut-off log entry 55, the model's. -/
def Obligations.FabricEvents : Prop :=
  ∀ (s : State) (r : FabReq),
    let a := s.ev.a
    let asked := s.fabric.find? fun x => x.id == a && !x.there
    let dropped : State := { s with fabric := s.fabric.filter fun x => x.id != a }
    let who : Asker := { core := r.core, slot := r.slot, gen := r.gen, lease := r.lease, inc := r.inc, d := r.d, unwound := r.unwound }
    let answered := fun (t : State) (v : Word) =>
      ({ t with notices := t.notices ++ [{ who := who, val := v, ab := false, acq := false, retry := false }] } : State)
    let flit := (a * 4 + s.ev.b % 4) * 65536 + s.ev.c % 65536
    let fails := tabGet 0 s.replays flit + 1
    let asks : State := { s with fabOut := s.fabOut ++
      [{ vc := .control, node := s.node, id := s.ev.c % 65536, inc := 0, status := s.ev.b % 4, link := some a }] }
    let origin := fun (node : Nat) => ({ node := node, id := s.ev.fid, inc := s.ev.finc } : Origin)
    -- the arrival in its turn on the channel `vc` of its node: taken with what `t` makes of it
    let inTurn := fun (node vc : Nat) => s.cutOff node = false ∧ s.ev.fseq = tabGet 0 s.fabSeq (4 * node + vc)
    let credit := fun (node vc : Nat) =>
      ({ vc := .control, node := s.node, id := 0, inc := 0, status := vc, link := some (Config.routePort node % 18), credit := true } : FabOut)
    let next := fun (node vc : Nat) (t : State) =>
      ({ t with fabSeq := tabPut t.fabSeq (4 * node + vc) ((s.ev.fseq + 1) % 65536), fabOut := t.fabOut ++ [credit node vc] } : State)
    let takes := fun (node vc : Nat) (t : State) => Runs .fabricAdmission s (next node vc t)
    let refuses := fun (node vc cause : Nat) => takes node vc (s.respond (origin node) cause true)
    let sent := fun (node : Nat) (w : Word) => if node = s.node then w ||| 0x1000#64 else w &&& ~~~0x1000#64
    let far := r.dest / 8192 % 524288
    (a < 2 → a ∉ s.linksDown → ∃ u : State, Runs .hostLinkDown s u ∧ a ∈ u.linksDown ∧ u.mem = s.mem ∧ ∃ e ∈ u.log, e.part = 0 ∧ e.a = 1 ∧ e.b = a) ∧
    (a < 2 → a ∈ s.linksDown → Runs .hostLinkDown s s) ∧
    (a < 18 → a ∉ s.portsDown → ∃ u : State, Runs .fabricPortDown s u ∧ a ∈ u.portsDown ∧ u.mem = s.mem ∧ ∃ e ∈ u.log, e.part = 0 ∧ e.a = 2 ∧ e.b = a) ∧
    (a < 18 → a ∈ s.portsDown → Runs .fabricPortDown s s) ∧
    (a < 18 → s.ev.flag2 = true → s.ev.flag = false → Runs .fabricReplay s asks) ∧
    (a < 18 → s.ev.flag2 = false → s.ev.flag = false → Runs .fabricReplay s { s with replays := tabDel s.replays flit }) ∧
    (a < 18 → s.ev.flag2 = false → s.ev.flag = true → fails < 16 → Runs .fabricReplay s { s with replays := tabPut s.replays flit fails }) ∧
    (a < 18 → s.ev.flag = true → 16 ≤ fails → a ∉ s.portsDown → ∃ u : State, Runs .fabricReplay s u ∧ a ∈ u.portsDown ∧ u.mem = s.mem) ∧
    (∀ node lease c off bs, s.ev.req = some (.peerBytes node lease c off bs) →
      (¬ inTurn node 1 → Runs .fabricAdmission s s) ∧
      (inTurn node 1 → (s.admitted node lease = none → refuses node 1 6) ∧
        (∀ n, s.admitted node lease = some n →
          (s.holderOf (c % 4096) = some n → off + bs.length ≤ 0x3F808 →
            takes node 1 ((s.setLCore n (c % 4096) ((s.lcoreAt n (c % 4096)).writeSpad off bs)).respond (origin node) 0)) ∧
          (s.holderOf (c % 4096) = some n → 0x3F808 < off + bs.length → refuses node 1 6) ∧
          (s.holderOf (c % 4096) ≠ some n → refuses node 1 0x16)))) ∧
    (∀ node lease c type args sender wid tag, s.ev.req = some (.message node lease c type args sender wid tag) → inTurn node 0 →
      (s.admitted node lease = none → refuses node 0 6) ∧
      (∀ n, s.admitted node lease = some n → 0xF0 ≤ type → type ≠ 0xFE → refuses node 0 6) ∧
      (∀ n t, s.admitted node lease = some n → type < 0xF0 →
        let m : Msg := { Msg.hw type n (c % 4096) s.node args wid tag with sender := sent node sender, origin := some (origin node) }
        (s.admitMsg n m = (t, .taken) → takes node 0 t) ∧ (s.admitMsg n m = (t, .noRoom) → Runs .fabricAdmission s s) ∧
        (s.admitMsg n m = (t, .refused) → refuses node 0 6))) ∧
    (∀ node lease c off amount sender wid tag, s.ev.req = some (.jdec node lease c off amount sender wid tag) → inTurn node 0 →
      (s.admitted node lease = none → refuses node 0 6) ∧
      (∀ n t, s.admitted node lease = some n →
        let m : Msg := { Msg.hw 0 n (c % 4096) s.node [] wid tag with
          sender := sent node sender, jdec := some (off, amount), origin := some (origin node) }
        (s.admitMsg n m = (t, .taken) → takes node 0 t) ∧ (s.admitMsg n m = (t, .noRoom) → Runs .fabricAdmission s s) ∧
        (s.admitMsg n m = (t, .refused) → refuses node 0 6))) ∧
    (∀ node lease dva lo hi c0 tile n, s.ev.req = some (.contribution node lease dva lo hi c0 tile) → inTurn node 1 → s.admitted node lease = some n →
      takes node 1 (s.admitGather n (origin node) dva (.contribute true lo hi c0 tile))) ∧
    (∀ node lease dva n l bs t, s.ev.req = some (.copyRead node lease dva n) → inTurn node 1 → s.admitted node lease = some l →
      admitReadM l (n + 1) dva n s = .ok bs t →
      takes node 1 (t.sendOut { vc := .data, node := node, id := s.ev.fid, inc := s.ev.finc, status := 0, bytes := bs })) ∧
    (∀ node lease group n bs l, s.ev.req = some (.collBytes node lease group n bs) → inTurn node 1 → s.admitted node lease = some l →
      ∃ t, takes node 1 t ∧ t = { s with colls := t.colls, peerBytes := s.peerBytes ++
          [{ node := node, lease := lease, group := group, n := n, holder := l, bytes := bs, origin := origin node }] } ∧
        t.colls.length = s.colls.length ∧ ∀ (i : Nat) (x : Coll), s.colls[i]? = some x →
          let part := fun (l : Nat) => (s.leaseD l).part
          t.colls[i]? = some (if kGroup x.cmd.desc = group ∧ x.cmd.n = n ∧ part x.cmd.lease = part l then { x with age := 0 } else x)) ∧
    (s.ev.req = none → Runs .fabricAdmission s s) ∧
    (asked = some r → r.kind < 3 →
      (¬ inTurn far 2 → Runs .fabricAck s s) ∧
      (inTurn far 2 → r.inc ≠ (s.dieAt (dieOf r.core)).inc → Runs .fabricAck s ((next far 2 s).staleResponse (dieOf r.core))) ∧
      (inTurn far 2 → r.inc = (s.dieAt (dieOf r.core)).inc →
        let t := next far 2 dropped
        (s.ev.flag = false → r.kind = 1 → Runs .fabricAck s (answered t (BitVec.ofNat 64 s.ev.b))) ∧
        (s.ev.flag = false → r.kind = 0 → Runs .fabricAck s (if r.counted then t.addOpen r.tag (-1) else t)) ∧
        (s.ev.flag = false → r.kind = 2 → Runs .fabricAck s t) ∧
        (s.ev.flag = true → r.kind = 1 → Runs .fabricAck s (answered t 6)) ∧
        (s.ev.flag = true → r.kind = 0 → Runs .fabricAck s
          ((if r.counted then t.addOpen r.tag (-1) else t).refusedMsg r.lease r.core r.type (r.sender ||| 0x1000#64) r.tag)) ∧
        (∀ q rest, s.ev.flag = true → r.kind = 2 → (s.coreAt r.core).held = [] → (s.coreAt r.core).copyq = q :: rest → q.id = r.copyId →
          q.lease = r.lease → q.coll = false → (∀ x ∈ s.colls, ¬ (x.core = r.core ∧ x.cmd.lease = r.lease ∧ x.cmd.id = r.copyId)) →
          Runs .fabricAck s ((({ t with fabric := t.fabric.filter fun x => !x.ofCopy r.core r.lease r.copyId } : State).setCopyq r.core rest).engineFault
            r.core q { cause := s.ev.b, addr := some r.addr, write := true })))) ∧
    (asked = some r → r.kind = 3 → s.ev.flag = false →
      (s.forEcopy r = true → Runs .fabricAck s s) ∧
      (s.forEcopy r = false → inTurn far 1 → r.inc = (s.dieAt (dieOf r.core)).inc →
        Runs .fabricAck s ((next far 1 dropped).collAnswer r.core r.lease r.copyId s.ev.bytes))) ∧
    (asked = some r → (r.kind = 1 → 4000000 ≤ r.age → Runs .fabricTimeout s (answered dropped 6)) ∧ (r.age < 4000000 → Runs .fabricTimeout s s)) ∧
    (asked = none → a < s.fabNext → s.ev.c < 8 → s.ev.bytes = [] → inTurn s.ev.fid 2 →
      Runs .fabricAck s ((next s.ev.fid 2 s).staleResponse s.ev.c)) ∧
    (asked = none → Runs .fabricTimeout s s)

/-- Every step keeps the masks of leases within those of their partitions, from every state: no lease ever holds a right that its partition
lacks, and only the house holds S2 (R56, R57, R58). -/
def Obligations.StepKeepsMasks : Prop :=
  ∀ s t : State, s.MasksWithin → Sys2Proof.Machine.step s = .next t → t.MasksWithin
end

