-- ==== Sys2Proof/Laws/Table.lean ====
section
/-! SUPPORT. Laws of sparse tables and of the byte memory: reading after writing, and the canonical form of memory. -/

namespace Sys2Proof.Machine

/-! ### Tables -/

section
variable {α : Type}

@[simp] theorem tabFind_tabPut_self (t : Tab α) (n : Nat) (v : α) : tabFind (tabPut t n v) n = some v := by
  induction t with
  | nil => simp [tabPut, tabFind]
  | cons e t ih =>
    obtain ⟨k, w⟩ := e
    simp only [tabPut]
    split
    · simp [tabFind]
    · split
      · simp_all [tabFind]
      · simp_all [tabFind]

theorem tabFind_tabPut_ne {t : Tab α} {n m : Nat} {v : α} (h : m ≠ n) : tabFind (tabPut t n v) m = tabFind t m := by
  induction t with
  | nil => simp [tabPut, tabFind, h]
  | cons e t ih =>
    obtain ⟨k, w⟩ := e
    simp only [tabPut]
    split
    · simp [tabFind, h]
    · split
      · rename_i h1 h2
        subst h2
        simp [tabFind, h]
      · simp [tabFind, ih]

@[simp] theorem tabGet_tabPut_self (d : α) (t : Tab α) (n : Nat) (v : α) : tabGet d (tabPut t n v) n = v := by
  simp [tabGet]

theorem tabGet_tabPut_ne {d : α} {t : Tab α} {n m : Nat} {v : α} (h : m ≠ n) : tabGet d (tabPut t n v) m = tabGet d t m := by
  simp [tabGet, tabFind_tabPut_ne h]

@[simp] theorem tabPut_tabPut_self (t : Tab α) (n : Nat) (v w : α) : tabPut (tabPut t n v) n w = tabPut t n w := by
  induction t with
  | nil => simp [tabPut]
  | cons e t ih =>
    obtain ⟨k, u⟩ := e
    simp only [tabPut]
    split
    · simp [tabPut]
    · split
      · rename_i h1 h2
        simp [tabPut, h2]
      · rename_i h1 h2
        simp [tabPut, h1, h2, ih]

end

/-! ### Memory -/

theorem memWf_cons {a : Nat} {v : Byte} {t : List Host.Cell} (h : memWf ((a, v) :: t) = true) : memWf t = true := by
  cases t with
  | nil => rfl
  | cons e t =>
    obtain ⟨b, w⟩ := e
    simp [memWf] at h
    exact h.2

/-- Every listed address of a canonical memory lies above the head's. -/
theorem memGet_below {a : Nat} {v : Byte} {t : List Host.Cell} (h : memWf ((a, v) :: t) = true) {n : Nat} (hn : n ≤ a) :
    memGet t n = memDefault := by
  induction t generalizing a v with
  | nil => rfl
  | cons e t ih =>
    obtain ⟨b, w⟩ := e
    simp [memWf] at h
    have hb : n ≠ b := by omega
    have := ih h.2 (by omega : n ≤ b)
    simpa [memGet, tabGet, tabFind, hb] using this

theorem memGet_memPut_self {m : List Host.Cell} (h : memWf m = true) (n : Nat) (v : Byte) : memGet (memPut m n v) n = v := by
  induction m with
  | nil =>
    simp only [memPut]
    split
    · rename_i e; simp [memGet, tabGet, tabFind, e]
    · simp [memGet, tabGet, tabFind]
  | cons e t ih =>
    obtain ⟨k, w⟩ := e
    have hr := ih (memWf_cons h)
    simp only [memPut]
    split
    · rename_i hk
      split
      · rename_i hv
        have hb := memGet_below h (by omega : n ≤ k)
        have hne : n ≠ k := by omega
        simpa [memGet, tabGet, tabFind, hne, hv] using hb
      · simp [memGet, tabGet, tabFind]
    · split
      · rename_i hk
        subst hk
        split
        · rename_i hv
          rw [hv]
          exact memGet_below h (Nat.le_refl _)
        · simp [memGet, tabGet, tabFind]
      · rename_i h1 h2
        simpa [memGet, tabGet, tabFind, h2] using hr

theorem memGet_memPut_ne {m : List Host.Cell} {n k : Nat} {v : Byte} (h : k ≠ n) : memGet (memPut m n v) k = memGet m k := by
  induction m with
  | nil =>
    simp only [memPut]
    split <;> simp [memGet, tabGet, tabFind, h]
  | cons e t ih =>
    obtain ⟨a, w⟩ := e
    simp only [memPut]
    split
    · split
      · rfl
      · simp [memGet, tabGet, tabFind, h]
    · split
      · rename_i h2
        subst h2
        split <;> simp [memGet, tabGet, tabFind, h]
      · by_cases hk : k = a
        · simp [memGet, tabGet, tabFind, hk]
        · simpa [memGet, tabGet, tabFind, hk] using ih

/-- The head of a memory with a byte written is the old head or the written address. -/
theorem memPut_above {m : List Host.Cell} {a n : Nat} {u v : Byte} (h : memWf ((a, u) :: m) = true) (hn : a < n) :
    memWf ((a, u) :: memPut m n v) = true := by
  induction m generalizing a u with
  | nil =>
    simp only [memPut]
    split
    · exact h
    · rename_i hv
      simp [memWf] at h ⊢
      exact ⟨⟨h, hn⟩, hv⟩
  | cons e t ih =>
    obtain ⟨k, w⟩ := e
    simp only [memPut]
    split
    · split
      · exact h
      · rename_i hk hv
        simp [memWf] at h ⊢
        exact ⟨⟨h.1.1, hn⟩, ⟨hv, hk⟩, h.2⟩
    · split
      · rename_i h1 h2
        split
        · cases t with
          | nil => simp [memWf] at h ⊢; exact h.1.1
          | cons e t =>
            obtain ⟨b, x⟩ := e
            simp [memWf] at h ⊢
            exact ⟨⟨h.1.1, by omega⟩, h.2.2⟩
        · rename_i hv
          cases t with
          | nil => simp [memWf] at h ⊢; exact ⟨⟨h.1.1, by omega⟩, hv⟩
          | cons e t =>
            obtain ⟨b, x⟩ := e
            simp [memWf] at h ⊢
            exact ⟨⟨h.1.1, by omega⟩, ⟨hv, by omega⟩, h.2.2⟩
      · rename_i h1 h2
        have h3 : memWf ((k, w) :: t) = true := memWf_cons h
        have h4 := ih h3 (by omega : k < n)
        simp [memWf] at h ⊢
        exact ⟨h.1, h4⟩

theorem memWf_memPut {m : List Host.Cell} (h : memWf m = true) (n : Nat) (v : Byte) : memWf (memPut m n v) = true := by
  cases m with
  | nil =>
    simp only [memPut]
    split
    · rfl
    · rename_i hv; simp [memWf, hv]
  | cons e t =>
    obtain ⟨k, w⟩ := e
    simp only [memPut]
    split
    · split
      · exact h
      · rename_i hk hv; simp [memWf, hv, hk, h]
    · split
      · rename_i h1 h2
        split
        · exact memWf_cons h
        · rename_i hv
          cases t with
          | nil => simp [memWf, hv]
          | cons e t =>
            obtain ⟨b, x⟩ := e
            simp [memWf] at h ⊢
            exact ⟨⟨hv, h.1.2⟩, h.2⟩
      · rename_i h1 h2
        exact memPut_above h (by omega)

theorem memWf_memPutBytes {m : List Host.Cell} (h : memWf m = true) (a : Nat) (bs : List Byte) : memWf (memPutBytes m a bs) = true := by
  induction bs generalizing m a with
  | nil => exact h
  | cons b bs ih => exact ih (memWf_memPut h a b) (a + 1)

/-- Every address outside the written bytes reads as before. -/
theorem memGet_memPutBytes_outside {m : List Host.Cell} {a k : Nat} {bs : List Byte} (h : k < a ∨ a + bs.length ≤ k) :
    memGet (memPutBytes m a bs) k = memGet m k := by
  induction bs generalizing m a with
  | nil => rfl
  | cons b bs ih =>
    simp only [List.length_cons] at h
    simp only [memPutBytes]
    rw [ih (by omega), memGet_memPut_ne (by omega)]

/-- A written byte reads back. -/
theorem memGet_memPutBytes_inside {m : List Host.Cell} (hw : memWf m = true) {a i : Nat} {bs : List Byte} (h : i < bs.length) :
    memGet (memPutBytes m a bs) (a + i) = bs[i] := by
  induction bs generalizing m a i with
  | nil => simp at h
  | cons b bs ih =>
    simp only [memPutBytes]
    cases i with
    | zero => rw [memGet_memPutBytes_outside (by omega)]; exact memGet_memPut_self hw a b
    | succ i =>
      have h' : i < bs.length := by simpa using h
      have := ih (memWf_memPut hw a b) (a := a + 1) h'
      rw [show a + (i + 1) = a + 1 + i by omega, this]
      rfl

@[simp] theorem memBytes_length (m : List Host.Cell) (a n : Nat) : (memBytes m a n).length = n := by
  induction n generalizing a with
  | zero => rfl
  | succ n ih => simp [memBytes, ih]

theorem memBytes_getElem {m : List Host.Cell} {a n i : Nat} (h : i < (memBytes m a n).length) : (memBytes m a n)[i] = memGet m (a + i) := by
  induction n generalizing a i with
  | zero => simp at h
  | succ n ih =>
    cases i with
    | zero => rfl
    | succ i =>
      simp only [memBytes, List.getElem_cons_succ]
      rw [ih]
      congr 1
      omega

/-- Reading after writing. -/
theorem memBytes_memPutBytes {m : List Host.Cell} (hw : memWf m = true) (a : Nat) (bs : List Byte) :
    memBytes (memPutBytes m a bs) a bs.length = bs := by
  apply List.ext_getElem (by simp)
  intro i h1 h2
  rw [memBytes_getElem, memGet_memPutBytes_inside hw h2]

theorem memBytes_memPutBytes_outside {m : List Host.Cell} {a k n : Nat} {bs : List Byte} (h : k + n ≤ a ∨ a + bs.length ≤ k) :
    memBytes (memPutBytes m a bs) k n = memBytes m k n := by
  apply List.ext_getElem (by simp)
  intro i h1 h2
  simp only [memBytes_length] at h1
  rw [memBytes_getElem, memBytes_getElem, memGet_memPutBytes_outside (by omega)]

/-! ### Little-endian numbers (R18) -/

@[simp] theorem leBytes_length (n v : Nat) : (leBytes n v).length = n := by
  induction n generalizing v with
  | zero => rfl
  | succ n ih => simp [leBytes, ih]

theorem leNat_leBytes (n v : Nat) : leNat (leBytes n v) = v % 256 ^ n := by
  induction n generalizing v with
  | zero => simp [leBytes, leNat, Nat.mod_one]
  | succ n ih =>
    simp only [leBytes, leNat, ih, BitVec.toNat_ofNat]
    rw [show 256 ^ (n + 1) = 2 ^ 8 * 256 ^ n by rw [Nat.pow_succ]; omega, Nat.mod_mul] <;> rfl

end Sys2Proof.Machine
end

