-- ==== Sys2Proof/Laws/State.lean ====
section
/-! SUPPORT. What each update of the state leaves in each field, and reading a part after writing it. -/

set_option Elab.async false

namespace Sys2Proof.Machine

/-! ### Parts of the state: a write, then a read -/

@[simp] theorem State.coreAt_setCore (s : State) (c : Nat) (x : Core) : (s.setCore c x).coreAt c = x := by simp [State.coreAt, State.setCore]
theorem State.coreAt_setCore_ne (s : State) {c n : Nat} (x : Core) (h : n ≠ c) : (s.setCore c x).coreAt n = s.coreAt n := by
  simp [State.coreAt, State.setCore, tabGet_tabPut_ne h]
@[simp] theorem State.setCore_setCore (s : State) (c : Nat) (x y : Core) : (s.setCore c x).setCore c y = s.setCore c y := by simp [State.setCore]
@[simp] theorem State.setLease_setLease (s : State) (l : Nat) (x y : Lease) : (s.setLease l x).setLease l y = s.setLease l y := by simp [State.setLease]
@[simp] theorem State.setPart_setPart (s : State) (p : Nat) (x y : Partn) : (s.setPart p x).setPart p y = s.setPart p y := by simp [State.setPart]
@[simp] theorem State.dieAt_setDie (s : State) (d : Nat) (x : Die) : (s.setDie d x).dieAt d = x := by simp [State.dieAt, State.setDie]
theorem State.dieAt_setDie_ne (s : State) {d n : Nat} (x : Die) (h : n ≠ d) : (s.setDie d x).dieAt n = s.dieAt n := by
  simp [State.dieAt, State.setDie, tabGet_tabPut_ne h]
@[simp] theorem State.setDie_setDie (s : State) (d : Nat) (x y : Die) : (s.setDie d x).setDie d y = s.setDie d y := by simp [State.setDie]
@[simp] theorem State.homeAt_setHome (s : State) (d : Nat) (x : Home) : (s.setHome d x).homeAt d = x := by simp [State.homeAt, State.setHome]
theorem State.homeAt_setHome_ne (s : State) {d n : Nat} (x : Home) (h : n ≠ d) : (s.setHome d x).homeAt n = s.homeAt n := by
  simp [State.homeAt, State.setHome, tabGet_tabPut_ne h]
@[simp] theorem State.setHome_setHome (s : State) (d : Nat) (x y : Home) : (s.setHome d x).setHome d y = s.setHome d y := by simp [State.setHome]
@[simp] theorem State.quadAt_setQuad (s : State) (q : Nat) (x : Quad) : (s.setQuad q x).quadAt q = x := by simp [State.quadAt, State.setQuad]
theorem State.quadAt_setQuad_ne (s : State) {q n : Nat} (x : Quad) (h : n ≠ q) : (s.setQuad q x).quadAt n = s.quadAt n := by
  simp [State.quadAt, State.setQuad, tabGet_tabPut_ne h]
@[simp] theorem State.setQuad_setQuad (s : State) (q : Nat) (x y : Quad) : (s.setQuad q x).setQuad q y = s.setQuad q y := by simp [State.setQuad]
@[simp] theorem State.leaseAt_setLease (s : State) (l : Nat) (x : Lease) : (s.setLease l x).leaseAt l = some x := by
  simp [State.leaseAt, State.setLease]
theorem State.leaseAt_setLease_ne (s : State) {l n : Nat} (x : Lease) (h : n ≠ l) : (s.setLease l x).leaseAt n = s.leaseAt n := by
  simp [State.leaseAt, State.setLease, tabFind_tabPut_ne h]
@[simp] theorem Core.slotAt_setSlot (c : Core) (k : Nat) (t : Slot) : (c.setSlot k t).slotAt k = t := by simp [Core.slotAt, Core.setSlot]
theorem Core.slotAt_setSlot_ne (c : Core) {k n : Nat} (t : Slot) (h : n ≠ k) : (c.setSlot k t).slotAt n = c.slotAt n := by
  simp [Core.slotAt, Core.setSlot, tabGet_tabPut_ne h]
@[simp] theorem Core.setSlot_setSlot (c : Core) (k : Nat) (t u : Slot) : (c.setSlot k t).setSlot k u = c.setSlot k u := by
  simp [Core.setSlot]
@[simp] theorem State.slotAt_setSlot (s : State) (c k : Nat) (t : Slot) : (s.setSlot c k t).slotAt c k = t := by
  simp [State.slotAt, State.setSlot]
theorem State.slotAt_setSlot_ne (s : State) {c k d n : Nat} (t : Slot) (h : ¬(d = c ∧ n = k)) :
    (s.setSlot c k t).slotAt d n = s.slotAt d n := by
  simp only [State.slotAt, State.setSlot]
  by_cases hc : d = c
  · subst hc
    have hk : n ≠ k := fun e => h ⟨rfl, e⟩
    simp [Core.slotAt_setSlot_ne _ _ hk]
  · simp [State.coreAt_setCore_ne _ _ hc]
@[simp] theorem State.setSlot_setSlot (s : State) (c k : Nat) (t u : Slot) : (s.setSlot c k t).setSlot c k u = s.setSlot c k u := by
  simp [State.setSlot]
@[simp] theorem State.setCur_cur (s : State) (t : Slot) : (s.setCur t).cur = t := by
  simp [State.cur, State.setCur, State.setSlot, State.slotAt, State.setCore, State.coreAt]
@[simp] theorem State.lcoreAt_setLCore (s : State) (l c : Nat) (x : LCore) : (s.setLCore l c x).lcoreAt l c = x := by
  simp [State.lcoreAt, State.setLCore]
theorem State.lcoreAt_setLCore_ne (s : State) {l c m d : Nat} (x : LCore) (h : lcoreKey m d ≠ lcoreKey l c) :
    (s.setLCore l c x).lcoreAt m d = s.lcoreAt m d := by
  simp [State.lcoreAt, State.setLCore, tabGet_tabPut_ne h, State.leaseD, State.leaseAt]
@[simp] theorem State.setLCore_setLCore (s : State) (l c : Nat) (x y : LCore) : (s.setLCore l c x).setLCore l c y = s.setLCore l c y := by
  simp [State.setLCore]

/-! ### Fields of the state that an update leaves alone -/

@[simp] theorem State.setCore_lcores (s : State) (c : Nat) (x : Core) : (s.setCore c x).lcores = s.lcores := rfl
@[simp] theorem State.setCore_dies (s : State) (c : Nat) (x : Core) : (s.setCore c x).dies = s.dies := rfl
@[simp] theorem State.setCore_homes (s : State) (c : Nat) (x : Core) : (s.setCore c x).homes = s.homes := rfl
@[simp] theorem State.setCore_rows (s : State) (c : Nat) (x : Core) : (s.setCore c x).rows = s.rows := rfl
@[simp] theorem State.setCore_gangs (s : State) (c : Nat) (x : Core) : (s.setCore c x).gangs = s.gangs := rfl
@[simp] theorem State.setCore_passNo (s : State) (c : Nat) (x : Core) : (s.setCore c x).passNo = s.passNo := rfl
@[simp] theorem State.setCore_quads (s : State) (c : Nat) (x : Core) : (s.setCore c x).quads = s.quads := rfl
@[simp] theorem State.setCore_parts (s : State) (c : Nat) (x : Core) : (s.setCore c x).parts = s.parts := rfl
@[simp] theorem State.setCore_leases (s : State) (c : Nat) (x : Core) : (s.setCore c x).leases = s.leases := rfl
@[simp] theorem State.setCore_accounts (s : State) (c : Nat) (x : Core) : (s.setCore c x).accounts = s.accounts := rfl
@[simp] theorem State.setCore_pending (s : State) (c : Nat) (x : Core) : (s.setCore c x).pending = s.pending := rfl
@[simp] theorem State.setCore_pendAge (s : State) (c : Nat) (x : Core) : (s.setCore c x).pendAge = s.pendAge := rfl
@[simp] theorem State.setCore_launches (s : State) (c : Nat) (x : Core) : (s.setCore c x).launches = s.launches := rfl
@[simp] theorem State.setCore_windows (s : State) (c : Nat) (x : Core) : (s.setCore c x).windows = s.windows := rfl
@[simp] theorem State.setCore_gaffer (s : State) (c : Nat) (x : Core) : (s.setCore c x).gaffer = s.gaffer := rfl
@[simp] theorem State.setCore_log (s : State) (c : Nat) (x : Core) : (s.setCore c x).log = s.log := rfl
@[simp] theorem State.setCore_houseTarget (s : State) (c : Nat) (x : Core) : (s.setCore c x).houseTarget = s.houseTarget := rfl
@[simp] theorem State.setCore_msix (s : State) (c : Nat) (x : Core) : (s.setCore c x).msix = s.msix := rfl
@[simp] theorem State.setCore_notices (s : State) (c : Nat) (x : Core) : (s.setCore c x).notices = s.notices := rfl
@[simp] theorem State.setCore_colls (s : State) (c : Nat) (x : Core) : (s.setCore c x).colls = s.colls := rfl
@[simp] theorem State.setCore_peerBytes (s : State) (c : Nat) (x : Core) : (s.setCore c x).peerBytes = s.peerBytes := rfl
@[simp] theorem State.setCore_releasing (s : State) (c : Nat) (x : Core) : (s.setCore c x).releasing = s.releasing := rfl
@[simp] theorem State.setCore_mem (s : State) (c : Nat) (x : Core) : (s.setCore c x).mem = s.mem := rfl
@[simp] theorem State.setCore_fe (s : State) (c : Nat) (x : Core) : (s.setCore c x).fe = s.fe := rfl
@[simp] theorem State.setCore_poison (s : State) (c : Nat) (x : Core) : (s.setCore c x).poison = s.poison := rfl
@[simp] theorem State.setCore_gathers (s : State) (c : Nat) (x : Core) : (s.setCore c x).gathers = s.gathers := rfl
@[simp] theorem State.setCore_lehrs (s : State) (c : Nat) (x : Core) : (s.setCore c x).lehrs = s.lehrs := rfl
@[simp] theorem State.setCore_durable (s : State) (c : Nat) (x : Core) : (s.setCore c x).durable = s.durable := rfl
@[simp] theorem State.setCore_durPoison (s : State) (c : Nat) (x : Core) : (s.setCore c x).durPoison = s.durPoison := rfl
@[simp] theorem State.setCore_lehrFlags (s : State) (c : Nat) (x : Core) : (s.setCore c x).lehrFlags = s.lehrFlags := rfl
@[simp] theorem State.setCore_pwrfail (s : State) (c : Nat) (x : Core) : (s.setCore c x).pwrfail = s.pwrfail := rfl
@[simp] theorem State.setCore_fabric (s : State) (c : Nat) (x : Core) : (s.setCore c x).fabric = s.fabric := rfl
@[simp] theorem State.setCore_fabNext (s : State) (c : Nat) (x : Core) : (s.setCore c x).fabNext = s.fabNext := rfl
@[simp] theorem State.setCore_fabOut (s : State) (c : Nat) (x : Core) : (s.setCore c x).fabOut = s.fabOut := rfl
@[simp] theorem State.setCore_fabSent (s : State) (c : Nat) (x : Core) : (s.setCore c x).fabSent = s.fabSent := rfl
@[simp] theorem State.setCore_fabSeq (s : State) (c : Nat) (x : Core) : (s.setCore c x).fabSeq = s.fabSeq := rfl
@[simp] theorem State.setCore_replays (s : State) (c : Nat) (x : Core) : (s.setCore c x).replays = s.replays := rfl
@[simp] theorem State.setCore_portsDown (s : State) (c : Nat) (x : Core) : (s.setCore c x).portsDown = s.portsDown := rfl
@[simp] theorem State.setCore_linksDown (s : State) (c : Nat) (x : Core) : (s.setCore c x).linksDown = s.linksDown := rfl
@[simp] theorem State.setCore_corrected (s : State) (c : Nat) (x : Core) : (s.setCore c x).corrected = s.corrected := rfl
@[simp] theorem State.setCore_interleave (s : State) (c : Nat) (x : Core) : (s.setCore c x).interleave = s.interleave := rfl
@[simp] theorem State.setCore_volatileSize (s : State) (c : Nat) (x : Core) : (s.setCore c x).volatileSize = s.volatileSize := rfl
@[simp] theorem State.setCore_persistSize (s : State) (c : Nat) (x : Core) : (s.setCore c x).persistSize = s.persistSize := rfl
@[simp] theorem State.setCore_node (s : State) (c : Nat) (x : Core) : (s.setCore c x).node = s.node := rfl
@[simp] theorem State.setCore_atomicOps (s : State) (c : Nat) (x : Core) : (s.setCore c x).atomicOps = s.atomicOps := rfl
@[simp] theorem State.setCore_up (s : State) (c : Nat) (x : Core) : (s.setCore c x).up = s.up := rfl
@[simp] theorem State.setCore_clockLowered (s : State) (c : Nat) (x : Core) : (s.setCore c x).clockLowered = s.clockLowered := rfl
@[simp] theorem State.setCore_robin (s : State) (c : Nat) (x : Core) : (s.setCore c x).robin = s.robin := rfl
@[simp] theorem State.setCore_agenda (s : State) (c : Nat) (x : Core) : (s.setCore c x).agenda = s.agenda := rfl
@[simp] theorem State.setCore_ev (s : State) (c : Nat) (x : Core) : (s.setCore c x).ev = s.ev := rfl
@[simp] theorem State.setCore_core (s : State) (c : Nat) (x : Core) : (s.setCore c x).core = s.core := rfl
@[simp] theorem State.setCore_slot (s : State) (c : Nat) (x : Core) : (s.setCore c x).slot = s.slot := rfl
@[simp] theorem State.setCore_turn (s : State) (c : Nat) (x : Core) : (s.setCore c x).turn = s.turn := rfl
@[simp] theorem State.setCore_free (s : State) (c : Nat) (x : Core) : (s.setCore c x).free = s.free := rfl
@[simp] theorem State.setSlot_lcores (s : State) (c k : Nat) (t : Slot) : (s.setSlot c k t).lcores = s.lcores := rfl
@[simp] theorem State.setSlot_dies (s : State) (c k : Nat) (t : Slot) : (s.setSlot c k t).dies = s.dies := rfl
@[simp] theorem State.setSlot_homes (s : State) (c k : Nat) (t : Slot) : (s.setSlot c k t).homes = s.homes := rfl
@[simp] theorem State.setSlot_rows (s : State) (c k : Nat) (t : Slot) : (s.setSlot c k t).rows = s.rows := rfl
@[simp] theorem State.setSlot_gangs (s : State) (c k : Nat) (t : Slot) : (s.setSlot c k t).gangs = s.gangs := rfl
@[simp] theorem State.setSlot_passNo (s : State) (c k : Nat) (t : Slot) : (s.setSlot c k t).passNo = s.passNo := rfl
@[simp] theorem State.setSlot_quads (s : State) (c k : Nat) (t : Slot) : (s.setSlot c k t).quads = s.quads := rfl
@[simp] theorem State.setSlot_parts (s : State) (c k : Nat) (t : Slot) : (s.setSlot c k t).parts = s.parts := rfl
@[simp] theorem State.setSlot_leases (s : State) (c k : Nat) (t : Slot) : (s.setSlot c k t).leases = s.leases := rfl
@[simp] theorem State.setSlot_accounts (s : State) (c k : Nat) (t : Slot) : (s.setSlot c k t).accounts = s.accounts := rfl
@[simp] theorem State.setSlot_pending (s : State) (c k : Nat) (t : Slot) : (s.setSlot c k t).pending = s.pending := rfl
@[simp] theorem State.setSlot_pendAge (s : State) (c k : Nat) (t : Slot) : (s.setSlot c k t).pendAge = s.pendAge := rfl
@[simp] theorem State.setSlot_launches (s : State) (c k : Nat) (t : Slot) : (s.setSlot c k t).launches = s.launches := rfl
@[simp] theorem State.setSlot_windows (s : State) (c k : Nat) (t : Slot) : (s.setSlot c k t).windows = s.windows := rfl
@[simp] theorem State.setSlot_gaffer (s : State) (c k : Nat) (t : Slot) : (s.setSlot c k t).gaffer = s.gaffer := rfl
@[simp] theorem State.setSlot_log (s : State) (c k : Nat) (t : Slot) : (s.setSlot c k t).log = s.log := rfl
@[simp] theorem State.setSlot_houseTarget (s : State) (c k : Nat) (t : Slot) : (s.setSlot c k t).houseTarget = s.houseTarget := rfl
@[simp] theorem State.setSlot_msix (s : State) (c k : Nat) (t : Slot) : (s.setSlot c k t).msix = s.msix := rfl
@[simp] theorem State.setSlot_notices (s : State) (c k : Nat) (t : Slot) : (s.setSlot c k t).notices = s.notices := rfl
@[simp] theorem State.setSlot_colls (s : State) (c k : Nat) (t : Slot) : (s.setSlot c k t).colls = s.colls := rfl
@[simp] theorem State.setSlot_peerBytes (s : State) (c k : Nat) (t : Slot) : (s.setSlot c k t).peerBytes = s.peerBytes := rfl
@[simp] theorem State.setSlot_releasing (s : State) (c k : Nat) (t : Slot) : (s.setSlot c k t).releasing = s.releasing := rfl
@[simp] theorem State.setSlot_mem (s : State) (c k : Nat) (t : Slot) : (s.setSlot c k t).mem = s.mem := rfl
@[simp] theorem State.setSlot_fe (s : State) (c k : Nat) (t : Slot) : (s.setSlot c k t).fe = s.fe := rfl
@[simp] theorem State.setSlot_poison (s : State) (c k : Nat) (t : Slot) : (s.setSlot c k t).poison = s.poison := rfl
@[simp] theorem State.setSlot_gathers (s : State) (c k : Nat) (t : Slot) : (s.setSlot c k t).gathers = s.gathers := rfl
@[simp] theorem State.setSlot_lehrs (s : State) (c k : Nat) (t : Slot) : (s.setSlot c k t).lehrs = s.lehrs := rfl
@[simp] theorem State.setSlot_durable (s : State) (c k : Nat) (t : Slot) : (s.setSlot c k t).durable = s.durable := rfl
@[simp] theorem State.setSlot_durPoison (s : State) (c k : Nat) (t : Slot) : (s.setSlot c k t).durPoison = s.durPoison := rfl
@[simp] theorem State.setSlot_lehrFlags (s : State) (c k : Nat) (t : Slot) : (s.setSlot c k t).lehrFlags = s.lehrFlags := rfl
@[simp] theorem State.setSlot_pwrfail (s : State) (c k : Nat) (t : Slot) : (s.setSlot c k t).pwrfail = s.pwrfail := rfl
@[simp] theorem State.setSlot_fabric (s : State) (c k : Nat) (t : Slot) : (s.setSlot c k t).fabric = s.fabric := rfl
@[simp] theorem State.setSlot_fabNext (s : State) (c k : Nat) (t : Slot) : (s.setSlot c k t).fabNext = s.fabNext := rfl
@[simp] theorem State.setSlot_fabOut (s : State) (c k : Nat) (t : Slot) : (s.setSlot c k t).fabOut = s.fabOut := rfl
@[simp] theorem State.setSlot_fabSent (s : State) (c k : Nat) (t : Slot) : (s.setSlot c k t).fabSent = s.fabSent := rfl
@[simp] theorem State.setSlot_fabSeq (s : State) (c k : Nat) (t : Slot) : (s.setSlot c k t).fabSeq = s.fabSeq := rfl
@[simp] theorem State.setSlot_replays (s : State) (c k : Nat) (t : Slot) : (s.setSlot c k t).replays = s.replays := rfl
@[simp] theorem State.setSlot_portsDown (s : State) (c k : Nat) (t : Slot) : (s.setSlot c k t).portsDown = s.portsDown := rfl
@[simp] theorem State.setSlot_linksDown (s : State) (c k : Nat) (t : Slot) : (s.setSlot c k t).linksDown = s.linksDown := rfl
@[simp] theorem State.setSlot_corrected (s : State) (c k : Nat) (t : Slot) : (s.setSlot c k t).corrected = s.corrected := rfl
@[simp] theorem State.setSlot_interleave (s : State) (c k : Nat) (t : Slot) : (s.setSlot c k t).interleave = s.interleave := rfl
@[simp] theorem State.setSlot_volatileSize (s : State) (c k : Nat) (t : Slot) : (s.setSlot c k t).volatileSize = s.volatileSize := rfl
@[simp] theorem State.setSlot_persistSize (s : State) (c k : Nat) (t : Slot) : (s.setSlot c k t).persistSize = s.persistSize := rfl
@[simp] theorem State.setSlot_node (s : State) (c k : Nat) (t : Slot) : (s.setSlot c k t).node = s.node := rfl
@[simp] theorem State.setSlot_atomicOps (s : State) (c k : Nat) (t : Slot) : (s.setSlot c k t).atomicOps = s.atomicOps := rfl
@[simp] theorem State.setSlot_up (s : State) (c k : Nat) (t : Slot) : (s.setSlot c k t).up = s.up := rfl
@[simp] theorem State.setSlot_clockLowered (s : State) (c k : Nat) (t : Slot) : (s.setSlot c k t).clockLowered = s.clockLowered := rfl
@[simp] theorem State.setSlot_robin (s : State) (c k : Nat) (t : Slot) : (s.setSlot c k t).robin = s.robin := rfl
@[simp] theorem State.setSlot_agenda (s : State) (c k : Nat) (t : Slot) : (s.setSlot c k t).agenda = s.agenda := rfl
@[simp] theorem State.setSlot_ev (s : State) (c k : Nat) (t : Slot) : (s.setSlot c k t).ev = s.ev := rfl
@[simp] theorem State.setSlot_core (s : State) (c k : Nat) (t : Slot) : (s.setSlot c k t).core = s.core := rfl
@[simp] theorem State.setSlot_slot (s : State) (c k : Nat) (t : Slot) : (s.setSlot c k t).slot = s.slot := rfl
@[simp] theorem State.setSlot_turn (s : State) (c k : Nat) (t : Slot) : (s.setSlot c k t).turn = s.turn := rfl
@[simp] theorem State.setSlot_free (s : State) (c k : Nat) (t : Slot) : (s.setSlot c k t).free = s.free := rfl
@[simp] theorem State.setCur_lcores (s : State) (t : Slot) : (s.setCur t).lcores = s.lcores := rfl
@[simp] theorem State.setCur_dies (s : State) (t : Slot) : (s.setCur t).dies = s.dies := rfl
@[simp] theorem State.setCur_homes (s : State) (t : Slot) : (s.setCur t).homes = s.homes := rfl
@[simp] theorem State.setCur_rows (s : State) (t : Slot) : (s.setCur t).rows = s.rows := rfl
@[simp] theorem State.setCur_gangs (s : State) (t : Slot) : (s.setCur t).gangs = s.gangs := rfl
@[simp] theorem State.setCur_passNo (s : State) (t : Slot) : (s.setCur t).passNo = s.passNo := rfl
@[simp] theorem State.setCur_quads (s : State) (t : Slot) : (s.setCur t).quads = s.quads := rfl
@[simp] theorem State.setCur_parts (s : State) (t : Slot) : (s.setCur t).parts = s.parts := rfl
@[simp] theorem State.setCur_leases (s : State) (t : Slot) : (s.setCur t).leases = s.leases := rfl
@[simp] theorem State.setCur_accounts (s : State) (t : Slot) : (s.setCur t).accounts = s.accounts := rfl
@[simp] theorem State.setCur_pending (s : State) (t : Slot) : (s.setCur t).pending = s.pending := rfl
@[simp] theorem State.setCur_pendAge (s : State) (t : Slot) : (s.setCur t).pendAge = s.pendAge := rfl
@[simp] theorem State.setCur_launches (s : State) (t : Slot) : (s.setCur t).launches = s.launches := rfl
@[simp] theorem State.setCur_windows (s : State) (t : Slot) : (s.setCur t).windows = s.windows := rfl
@[simp] theorem State.setCur_gaffer (s : State) (t : Slot) : (s.setCur t).gaffer = s.gaffer := rfl
@[simp] theorem State.setCur_log (s : State) (t : Slot) : (s.setCur t).log = s.log := rfl
@[simp] theorem State.setCur_houseTarget (s : State) (t : Slot) : (s.setCur t).houseTarget = s.houseTarget := rfl
@[simp] theorem State.setCur_msix (s : State) (t : Slot) : (s.setCur t).msix = s.msix := rfl
@[simp] theorem State.setCur_notices (s : State) (t : Slot) : (s.setCur t).notices = s.notices := rfl
@[simp] theorem State.setCur_colls (s : State) (t : Slot) : (s.setCur t).colls = s.colls := rfl
@[simp] theorem State.setCur_peerBytes (s : State) (t : Slot) : (s.setCur t).peerBytes = s.peerBytes := rfl
@[simp] theorem State.setCur_releasing (s : State) (t : Slot) : (s.setCur t).releasing = s.releasing := rfl
@[simp] theorem State.setCur_mem (s : State) (t : Slot) : (s.setCur t).mem = s.mem := rfl
@[simp] theorem State.setCur_fe (s : State) (t : Slot) : (s.setCur t).fe = s.fe := rfl
@[simp] theorem State.setCur_poison (s : State) (t : Slot) : (s.setCur t).poison = s.poison := rfl
@[simp] theorem State.setCur_gathers (s : State) (t : Slot) : (s.setCur t).gathers = s.gathers := rfl
@[simp] theorem State.setCur_lehrs (s : State) (t : Slot) : (s.setCur t).lehrs = s.lehrs := rfl
@[simp] theorem State.setCur_durable (s : State) (t : Slot) : (s.setCur t).durable = s.durable := rfl
@[simp] theorem State.setCur_durPoison (s : State) (t : Slot) : (s.setCur t).durPoison = s.durPoison := rfl
@[simp] theorem State.setCur_lehrFlags (s : State) (t : Slot) : (s.setCur t).lehrFlags = s.lehrFlags := rfl
@[simp] theorem State.setCur_pwrfail (s : State) (t : Slot) : (s.setCur t).pwrfail = s.pwrfail := rfl
@[simp] theorem State.setCur_fabric (s : State) (t : Slot) : (s.setCur t).fabric = s.fabric := rfl
@[simp] theorem State.setCur_fabNext (s : State) (t : Slot) : (s.setCur t).fabNext = s.fabNext := rfl
@[simp] theorem State.setCur_fabOut (s : State) (t : Slot) : (s.setCur t).fabOut = s.fabOut := rfl
@[simp] theorem State.setCur_fabSent (s : State) (t : Slot) : (s.setCur t).fabSent = s.fabSent := rfl
@[simp] theorem State.setCur_fabSeq (s : State) (t : Slot) : (s.setCur t).fabSeq = s.fabSeq := rfl
@[simp] theorem State.setCur_replays (s : State) (t : Slot) : (s.setCur t).replays = s.replays := rfl
@[simp] theorem State.setCur_portsDown (s : State) (t : Slot) : (s.setCur t).portsDown = s.portsDown := rfl
@[simp] theorem State.setCur_linksDown (s : State) (t : Slot) : (s.setCur t).linksDown = s.linksDown := rfl
@[simp] theorem State.setCur_corrected (s : State) (t : Slot) : (s.setCur t).corrected = s.corrected := rfl
@[simp] theorem State.setCur_interleave (s : State) (t : Slot) : (s.setCur t).interleave = s.interleave := rfl
@[simp] theorem State.setCur_volatileSize (s : State) (t : Slot) : (s.setCur t).volatileSize = s.volatileSize := rfl
@[simp] theorem State.setCur_persistSize (s : State) (t : Slot) : (s.setCur t).persistSize = s.persistSize := rfl
@[simp] theorem State.setCur_node (s : State) (t : Slot) : (s.setCur t).node = s.node := rfl
@[simp] theorem State.setCur_atomicOps (s : State) (t : Slot) : (s.setCur t).atomicOps = s.atomicOps := rfl
@[simp] theorem State.setCur_up (s : State) (t : Slot) : (s.setCur t).up = s.up := rfl
@[simp] theorem State.setCur_clockLowered (s : State) (t : Slot) : (s.setCur t).clockLowered = s.clockLowered := rfl
@[simp] theorem State.setCur_robin (s : State) (t : Slot) : (s.setCur t).robin = s.robin := rfl
@[simp] theorem State.setCur_agenda (s : State) (t : Slot) : (s.setCur t).agenda = s.agenda := rfl
@[simp] theorem State.setCur_ev (s : State) (t : Slot) : (s.setCur t).ev = s.ev := rfl
@[simp] theorem State.setCur_core (s : State) (t : Slot) : (s.setCur t).core = s.core := rfl
@[simp] theorem State.setCur_slot (s : State) (t : Slot) : (s.setCur t).slot = s.slot := rfl
@[simp] theorem State.setCur_turn (s : State) (t : Slot) : (s.setCur t).turn = s.turn := rfl
@[simp] theorem State.setCur_free (s : State) (t : Slot) : (s.setCur t).free = s.free := rfl
@[simp] theorem State.setLCore_cores (s : State) (l c : Nat) (x : LCore) : (s.setLCore l c x).cores = s.cores := rfl
@[simp] theorem State.setLCore_dies (s : State) (l c : Nat) (x : LCore) : (s.setLCore l c x).dies = s.dies := rfl
@[simp] theorem State.setLCore_homes (s : State) (l c : Nat) (x : LCore) : (s.setLCore l c x).homes = s.homes := rfl
@[simp] theorem State.setLCore_rows (s : State) (l c : Nat) (x : LCore) : (s.setLCore l c x).rows = s.rows := rfl
@[simp] theorem State.setLCore_gangs (s : State) (l c : Nat) (x : LCore) : (s.setLCore l c x).gangs = s.gangs := rfl
@[simp] theorem State.setLCore_passNo (s : State) (l c : Nat) (x : LCore) : (s.setLCore l c x).passNo = s.passNo := rfl
@[simp] theorem State.setLCore_quads (s : State) (l c : Nat) (x : LCore) : (s.setLCore l c x).quads = s.quads := rfl
@[simp] theorem State.setLCore_parts (s : State) (l c : Nat) (x : LCore) : (s.setLCore l c x).parts = s.parts := rfl
@[simp] theorem State.setLCore_leases (s : State) (l c : Nat) (x : LCore) : (s.setLCore l c x).leases = s.leases := rfl
@[simp] theorem State.setLCore_accounts (s : State) (l c : Nat) (x : LCore) : (s.setLCore l c x).accounts = s.accounts := rfl
@[simp] theorem State.setLCore_pending (s : State) (l c : Nat) (x : LCore) : (s.setLCore l c x).pending = s.pending := rfl
@[simp] theorem State.setLCore_pendAge (s : State) (l c : Nat) (x : LCore) : (s.setLCore l c x).pendAge = s.pendAge := rfl
@[simp] theorem State.setLCore_launches (s : State) (l c : Nat) (x : LCore) : (s.setLCore l c x).launches = s.launches := rfl
@[simp] theorem State.setLCore_windows (s : State) (l c : Nat) (x : LCore) : (s.setLCore l c x).windows = s.windows := rfl
@[simp] theorem State.setLCore_gaffer (s : State) (l c : Nat) (x : LCore) : (s.setLCore l c x).gaffer = s.gaffer := rfl
@[simp] theorem State.setLCore_log (s : State) (l c : Nat) (x : LCore) : (s.setLCore l c x).log = s.log := rfl
@[simp] theorem State.setLCore_houseTarget (s : State) (l c : Nat) (x : LCore) : (s.setLCore l c x).houseTarget = s.houseTarget := rfl
@[simp] theorem State.setLCore_msix (s : State) (l c : Nat) (x : LCore) : (s.setLCore l c x).msix = s.msix := rfl
@[simp] theorem State.setLCore_notices (s : State) (l c : Nat) (x : LCore) : (s.setLCore l c x).notices = s.notices := rfl
@[simp] theorem State.setLCore_colls (s : State) (l c : Nat) (x : LCore) : (s.setLCore l c x).colls = s.colls := rfl
@[simp] theorem State.setLCore_peerBytes (s : State) (l c : Nat) (x : LCore) : (s.setLCore l c x).peerBytes = s.peerBytes := rfl
@[simp] theorem State.setLCore_releasing (s : State) (l c : Nat) (x : LCore) : (s.setLCore l c x).releasing = s.releasing := rfl
@[simp] theorem State.setLCore_mem (s : State) (l c : Nat) (x : LCore) : (s.setLCore l c x).mem = s.mem := rfl
@[simp] theorem State.setLCore_fe (s : State) (l c : Nat) (x : LCore) : (s.setLCore l c x).fe = s.fe := rfl
@[simp] theorem State.setLCore_poison (s : State) (l c : Nat) (x : LCore) : (s.setLCore l c x).poison = s.poison := rfl
@[simp] theorem State.setLCore_gathers (s : State) (l c : Nat) (x : LCore) : (s.setLCore l c x).gathers = s.gathers := rfl
@[simp] theorem State.setLCore_lehrs (s : State) (l c : Nat) (x : LCore) : (s.setLCore l c x).lehrs = s.lehrs := rfl
@[simp] theorem State.setLCore_durable (s : State) (l c : Nat) (x : LCore) : (s.setLCore l c x).durable = s.durable := rfl
@[simp] theorem State.setLCore_durPoison (s : State) (l c : Nat) (x : LCore) : (s.setLCore l c x).durPoison = s.durPoison := rfl
@[simp] theorem State.setLCore_lehrFlags (s : State) (l c : Nat) (x : LCore) : (s.setLCore l c x).lehrFlags = s.lehrFlags := rfl
@[simp] theorem State.setLCore_pwrfail (s : State) (l c : Nat) (x : LCore) : (s.setLCore l c x).pwrfail = s.pwrfail := rfl
@[simp] theorem State.setLCore_fabric (s : State) (l c : Nat) (x : LCore) : (s.setLCore l c x).fabric = s.fabric := rfl
@[simp] theorem State.setLCore_fabNext (s : State) (l c : Nat) (x : LCore) : (s.setLCore l c x).fabNext = s.fabNext := rfl
@[simp] theorem State.setLCore_fabOut (s : State) (l c : Nat) (x : LCore) : (s.setLCore l c x).fabOut = s.fabOut := rfl
@[simp] theorem State.setLCore_fabSent (s : State) (l c : Nat) (x : LCore) : (s.setLCore l c x).fabSent = s.fabSent := rfl
@[simp] theorem State.setLCore_fabSeq (s : State) (l c : Nat) (x : LCore) : (s.setLCore l c x).fabSeq = s.fabSeq := rfl
@[simp] theorem State.setLCore_replays (s : State) (l c : Nat) (x : LCore) : (s.setLCore l c x).replays = s.replays := rfl
@[simp] theorem State.setLCore_portsDown (s : State) (l c : Nat) (x : LCore) : (s.setLCore l c x).portsDown = s.portsDown := rfl
@[simp] theorem State.setLCore_linksDown (s : State) (l c : Nat) (x : LCore) : (s.setLCore l c x).linksDown = s.linksDown := rfl
@[simp] theorem State.setLCore_corrected (s : State) (l c : Nat) (x : LCore) : (s.setLCore l c x).corrected = s.corrected := rfl
@[simp] theorem State.setLCore_interleave (s : State) (l c : Nat) (x : LCore) : (s.setLCore l c x).interleave = s.interleave := rfl
@[simp] theorem State.setLCore_volatileSize (s : State) (l c : Nat) (x : LCore) : (s.setLCore l c x).volatileSize = s.volatileSize := rfl
@[simp] theorem State.setLCore_persistSize (s : State) (l c : Nat) (x : LCore) : (s.setLCore l c x).persistSize = s.persistSize := rfl
@[simp] theorem State.setLCore_node (s : State) (l c : Nat) (x : LCore) : (s.setLCore l c x).node = s.node := rfl
@[simp] theorem State.setLCore_atomicOps (s : State) (l c : Nat) (x : LCore) : (s.setLCore l c x).atomicOps = s.atomicOps := rfl
@[simp] theorem State.setLCore_up (s : State) (l c : Nat) (x : LCore) : (s.setLCore l c x).up = s.up := rfl
@[simp] theorem State.setLCore_clockLowered (s : State) (l c : Nat) (x : LCore) : (s.setLCore l c x).clockLowered = s.clockLowered := rfl
@[simp] theorem State.setLCore_robin (s : State) (l c : Nat) (x : LCore) : (s.setLCore l c x).robin = s.robin := rfl
@[simp] theorem State.setLCore_agenda (s : State) (l c : Nat) (x : LCore) : (s.setLCore l c x).agenda = s.agenda := rfl
@[simp] theorem State.setLCore_ev (s : State) (l c : Nat) (x : LCore) : (s.setLCore l c x).ev = s.ev := rfl
@[simp] theorem State.setLCore_core (s : State) (l c : Nat) (x : LCore) : (s.setLCore l c x).core = s.core := rfl
@[simp] theorem State.setLCore_slot (s : State) (l c : Nat) (x : LCore) : (s.setLCore l c x).slot = s.slot := rfl
@[simp] theorem State.setLCore_turn (s : State) (l c : Nat) (x : LCore) : (s.setLCore l c x).turn = s.turn := rfl
@[simp] theorem State.setLCore_free (s : State) (l c : Nat) (x : LCore) : (s.setLCore l c x).free = s.free := rfl
@[simp] theorem State.setLease_cores (s : State) (l : Nat) (x : Lease) : (s.setLease l x).cores = s.cores := rfl
@[simp] theorem State.setLease_lcores (s : State) (l : Nat) (x : Lease) : (s.setLease l x).lcores = s.lcores := rfl
@[simp] theorem State.setLease_dies (s : State) (l : Nat) (x : Lease) : (s.setLease l x).dies = s.dies := rfl
@[simp] theorem State.setLease_homes (s : State) (l : Nat) (x : Lease) : (s.setLease l x).homes = s.homes := rfl
@[simp] theorem State.setLease_rows (s : State) (l : Nat) (x : Lease) : (s.setLease l x).rows = s.rows := rfl
@[simp] theorem State.setLease_gangs (s : State) (l : Nat) (x : Lease) : (s.setLease l x).gangs = s.gangs := rfl
@[simp] theorem State.setLease_passNo (s : State) (l : Nat) (x : Lease) : (s.setLease l x).passNo = s.passNo := rfl
@[simp] theorem State.setLease_quads (s : State) (l : Nat) (x : Lease) : (s.setLease l x).quads = s.quads := rfl
@[simp] theorem State.setLease_parts (s : State) (l : Nat) (x : Lease) : (s.setLease l x).parts = s.parts := rfl
@[simp] theorem State.setLease_accounts (s : State) (l : Nat) (x : Lease) : (s.setLease l x).accounts = s.accounts := rfl
@[simp] theorem State.setLease_pending (s : State) (l : Nat) (x : Lease) : (s.setLease l x).pending = s.pending := rfl
@[simp] theorem State.setLease_pendAge (s : State) (l : Nat) (x : Lease) : (s.setLease l x).pendAge = s.pendAge := rfl
@[simp] theorem State.setLease_launches (s : State) (l : Nat) (x : Lease) : (s.setLease l x).launches = s.launches := rfl
@[simp] theorem State.setLease_windows (s : State) (l : Nat) (x : Lease) : (s.setLease l x).windows = s.windows := rfl
@[simp] theorem State.setLease_gaffer (s : State) (l : Nat) (x : Lease) : (s.setLease l x).gaffer = s.gaffer := rfl
@[simp] theorem State.setLease_log (s : State) (l : Nat) (x : Lease) : (s.setLease l x).log = s.log := rfl
@[simp] theorem State.setLease_houseTarget (s : State) (l : Nat) (x : Lease) : (s.setLease l x).houseTarget = s.houseTarget := rfl
@[simp] theorem State.setLease_msix (s : State) (l : Nat) (x : Lease) : (s.setLease l x).msix = s.msix := rfl
@[simp] theorem State.setLease_notices (s : State) (l : Nat) (x : Lease) : (s.setLease l x).notices = s.notices := rfl
@[simp] theorem State.setLease_colls (s : State) (l : Nat) (x : Lease) : (s.setLease l x).colls = s.colls := rfl
@[simp] theorem State.setLease_peerBytes (s : State) (l : Nat) (x : Lease) : (s.setLease l x).peerBytes = s.peerBytes := rfl
@[simp] theorem State.setLease_releasing (s : State) (l : Nat) (x : Lease) : (s.setLease l x).releasing = s.releasing := rfl
@[simp] theorem State.setLease_mem (s : State) (l : Nat) (x : Lease) : (s.setLease l x).mem = s.mem := rfl
@[simp] theorem State.setLease_fe (s : State) (l : Nat) (x : Lease) : (s.setLease l x).fe = s.fe := rfl
@[simp] theorem State.setLease_poison (s : State) (l : Nat) (x : Lease) : (s.setLease l x).poison = s.poison := rfl
@[simp] theorem State.setLease_gathers (s : State) (l : Nat) (x : Lease) : (s.setLease l x).gathers = s.gathers := rfl
@[simp] theorem State.setLease_lehrs (s : State) (l : Nat) (x : Lease) : (s.setLease l x).lehrs = s.lehrs := rfl
@[simp] theorem State.setLease_durable (s : State) (l : Nat) (x : Lease) : (s.setLease l x).durable = s.durable := rfl
@[simp] theorem State.setLease_durPoison (s : State) (l : Nat) (x : Lease) : (s.setLease l x).durPoison = s.durPoison := rfl
@[simp] theorem State.setLease_lehrFlags (s : State) (l : Nat) (x : Lease) : (s.setLease l x).lehrFlags = s.lehrFlags := rfl
@[simp] theorem State.setLease_pwrfail (s : State) (l : Nat) (x : Lease) : (s.setLease l x).pwrfail = s.pwrfail := rfl
@[simp] theorem State.setLease_fabric (s : State) (l : Nat) (x : Lease) : (s.setLease l x).fabric = s.fabric := rfl
@[simp] theorem State.setLease_fabNext (s : State) (l : Nat) (x : Lease) : (s.setLease l x).fabNext = s.fabNext := rfl
@[simp] theorem State.setLease_fabOut (s : State) (l : Nat) (x : Lease) : (s.setLease l x).fabOut = s.fabOut := rfl
@[simp] theorem State.setLease_fabSent (s : State) (l : Nat) (x : Lease) : (s.setLease l x).fabSent = s.fabSent := rfl
@[simp] theorem State.setLease_fabSeq (s : State) (l : Nat) (x : Lease) : (s.setLease l x).fabSeq = s.fabSeq := rfl
@[simp] theorem State.setLease_replays (s : State) (l : Nat) (x : Lease) : (s.setLease l x).replays = s.replays := rfl
@[simp] theorem State.setLease_portsDown (s : State) (l : Nat) (x : Lease) : (s.setLease l x).portsDown = s.portsDown := rfl
@[simp] theorem State.setLease_linksDown (s : State) (l : Nat) (x : Lease) : (s.setLease l x).linksDown = s.linksDown := rfl
@[simp] theorem State.setLease_corrected (s : State) (l : Nat) (x : Lease) : (s.setLease l x).corrected = s.corrected := rfl
@[simp] theorem State.setLease_interleave (s : State) (l : Nat) (x : Lease) : (s.setLease l x).interleave = s.interleave := rfl
@[simp] theorem State.setLease_volatileSize (s : State) (l : Nat) (x : Lease) : (s.setLease l x).volatileSize = s.volatileSize := rfl
@[simp] theorem State.setLease_persistSize (s : State) (l : Nat) (x : Lease) : (s.setLease l x).persistSize = s.persistSize := rfl
@[simp] theorem State.setLease_node (s : State) (l : Nat) (x : Lease) : (s.setLease l x).node = s.node := rfl
@[simp] theorem State.setLease_atomicOps (s : State) (l : Nat) (x : Lease) : (s.setLease l x).atomicOps = s.atomicOps := rfl
@[simp] theorem State.setLease_up (s : State) (l : Nat) (x : Lease) : (s.setLease l x).up = s.up := rfl
@[simp] theorem State.setLease_clockLowered (s : State) (l : Nat) (x : Lease) : (s.setLease l x).clockLowered = s.clockLowered := rfl
@[simp] theorem State.setLease_robin (s : State) (l : Nat) (x : Lease) : (s.setLease l x).robin = s.robin := rfl
@[simp] theorem State.setLease_agenda (s : State) (l : Nat) (x : Lease) : (s.setLease l x).agenda = s.agenda := rfl
@[simp] theorem State.setLease_ev (s : State) (l : Nat) (x : Lease) : (s.setLease l x).ev = s.ev := rfl
@[simp] theorem State.setLease_core (s : State) (l : Nat) (x : Lease) : (s.setLease l x).core = s.core := rfl
@[simp] theorem State.setLease_slot (s : State) (l : Nat) (x : Lease) : (s.setLease l x).slot = s.slot := rfl
@[simp] theorem State.setLease_turn (s : State) (l : Nat) (x : Lease) : (s.setLease l x).turn = s.turn := rfl
@[simp] theorem State.setLease_free (s : State) (l : Nat) (x : Lease) : (s.setLease l x).free = s.free := rfl
@[simp] theorem State.setPart_cores (s : State) (p : Nat) (x : Partn) : (s.setPart p x).cores = s.cores := rfl
@[simp] theorem State.setPart_lcores (s : State) (p : Nat) (x : Partn) : (s.setPart p x).lcores = s.lcores := rfl
@[simp] theorem State.setPart_dies (s : State) (p : Nat) (x : Partn) : (s.setPart p x).dies = s.dies := rfl
@[simp] theorem State.setPart_homes (s : State) (p : Nat) (x : Partn) : (s.setPart p x).homes = s.homes := rfl
@[simp] theorem State.setPart_rows (s : State) (p : Nat) (x : Partn) : (s.setPart p x).rows = s.rows := rfl
@[simp] theorem State.setPart_gangs (s : State) (p : Nat) (x : Partn) : (s.setPart p x).gangs = s.gangs := rfl
@[simp] theorem State.setPart_passNo (s : State) (p : Nat) (x : Partn) : (s.setPart p x).passNo = s.passNo := rfl
@[simp] theorem State.setPart_quads (s : State) (p : Nat) (x : Partn) : (s.setPart p x).quads = s.quads := rfl
@[simp] theorem State.setPart_leases (s : State) (p : Nat) (x : Partn) : (s.setPart p x).leases = s.leases := rfl
@[simp] theorem State.setPart_accounts (s : State) (p : Nat) (x : Partn) : (s.setPart p x).accounts = s.accounts := rfl
@[simp] theorem State.setPart_pending (s : State) (p : Nat) (x : Partn) : (s.setPart p x).pending = s.pending := rfl
@[simp] theorem State.setPart_pendAge (s : State) (p : Nat) (x : Partn) : (s.setPart p x).pendAge = s.pendAge := rfl
@[simp] theorem State.setPart_launches (s : State) (p : Nat) (x : Partn) : (s.setPart p x).launches = s.launches := rfl
@[simp] theorem State.setPart_windows (s : State) (p : Nat) (x : Partn) : (s.setPart p x).windows = s.windows := rfl
@[simp] theorem State.setPart_gaffer (s : State) (p : Nat) (x : Partn) : (s.setPart p x).gaffer = s.gaffer := rfl
@[simp] theorem State.setPart_log (s : State) (p : Nat) (x : Partn) : (s.setPart p x).log = s.log := rfl
@[simp] theorem State.setPart_houseTarget (s : State) (p : Nat) (x : Partn) : (s.setPart p x).houseTarget = s.houseTarget := rfl
@[simp] theorem State.setPart_msix (s : State) (p : Nat) (x : Partn) : (s.setPart p x).msix = s.msix := rfl
@[simp] theorem State.setPart_notices (s : State) (p : Nat) (x : Partn) : (s.setPart p x).notices = s.notices := rfl
@[simp] theorem State.setPart_colls (s : State) (p : Nat) (x : Partn) : (s.setPart p x).colls = s.colls := rfl
@[simp] theorem State.setPart_peerBytes (s : State) (p : Nat) (x : Partn) : (s.setPart p x).peerBytes = s.peerBytes := rfl
@[simp] theorem State.setPart_releasing (s : State) (p : Nat) (x : Partn) : (s.setPart p x).releasing = s.releasing := rfl
@[simp] theorem State.setPart_mem (s : State) (p : Nat) (x : Partn) : (s.setPart p x).mem = s.mem := rfl
@[simp] theorem State.setPart_fe (s : State) (p : Nat) (x : Partn) : (s.setPart p x).fe = s.fe := rfl
@[simp] theorem State.setPart_poison (s : State) (p : Nat) (x : Partn) : (s.setPart p x).poison = s.poison := rfl
@[simp] theorem State.setPart_gathers (s : State) (p : Nat) (x : Partn) : (s.setPart p x).gathers = s.gathers := rfl
@[simp] theorem State.setPart_lehrs (s : State) (p : Nat) (x : Partn) : (s.setPart p x).lehrs = s.lehrs := rfl
@[simp] theorem State.setPart_durable (s : State) (p : Nat) (x : Partn) : (s.setPart p x).durable = s.durable := rfl
@[simp] theorem State.setPart_durPoison (s : State) (p : Nat) (x : Partn) : (s.setPart p x).durPoison = s.durPoison := rfl
@[simp] theorem State.setPart_lehrFlags (s : State) (p : Nat) (x : Partn) : (s.setPart p x).lehrFlags = s.lehrFlags := rfl
@[simp] theorem State.setPart_pwrfail (s : State) (p : Nat) (x : Partn) : (s.setPart p x).pwrfail = s.pwrfail := rfl
@[simp] theorem State.setPart_fabric (s : State) (p : Nat) (x : Partn) : (s.setPart p x).fabric = s.fabric := rfl
@[simp] theorem State.setPart_fabNext (s : State) (p : Nat) (x : Partn) : (s.setPart p x).fabNext = s.fabNext := rfl
@[simp] theorem State.setPart_fabOut (s : State) (p : Nat) (x : Partn) : (s.setPart p x).fabOut = s.fabOut := rfl
@[simp] theorem State.setPart_fabSent (s : State) (p : Nat) (x : Partn) : (s.setPart p x).fabSent = s.fabSent := rfl
@[simp] theorem State.setPart_fabSeq (s : State) (p : Nat) (x : Partn) : (s.setPart p x).fabSeq = s.fabSeq := rfl
@[simp] theorem State.setPart_replays (s : State) (p : Nat) (x : Partn) : (s.setPart p x).replays = s.replays := rfl
@[simp] theorem State.setPart_portsDown (s : State) (p : Nat) (x : Partn) : (s.setPart p x).portsDown = s.portsDown := rfl
@[simp] theorem State.setPart_linksDown (s : State) (p : Nat) (x : Partn) : (s.setPart p x).linksDown = s.linksDown := rfl
@[simp] theorem State.setPart_corrected (s : State) (p : Nat) (x : Partn) : (s.setPart p x).corrected = s.corrected := rfl
@[simp] theorem State.setPart_interleave (s : State) (p : Nat) (x : Partn) : (s.setPart p x).interleave = s.interleave := rfl
@[simp] theorem State.setPart_volatileSize (s : State) (p : Nat) (x : Partn) : (s.setPart p x).volatileSize = s.volatileSize := rfl
@[simp] theorem State.setPart_persistSize (s : State) (p : Nat) (x : Partn) : (s.setPart p x).persistSize = s.persistSize := rfl
@[simp] theorem State.setPart_node (s : State) (p : Nat) (x : Partn) : (s.setPart p x).node = s.node := rfl
@[simp] theorem State.setPart_atomicOps (s : State) (p : Nat) (x : Partn) : (s.setPart p x).atomicOps = s.atomicOps := rfl
@[simp] theorem State.setPart_up (s : State) (p : Nat) (x : Partn) : (s.setPart p x).up = s.up := rfl
@[simp] theorem State.setPart_clockLowered (s : State) (p : Nat) (x : Partn) : (s.setPart p x).clockLowered = s.clockLowered := rfl
@[simp] theorem State.setPart_robin (s : State) (p : Nat) (x : Partn) : (s.setPart p x).robin = s.robin := rfl
@[simp] theorem State.setPart_agenda (s : State) (p : Nat) (x : Partn) : (s.setPart p x).agenda = s.agenda := rfl
@[simp] theorem State.setPart_ev (s : State) (p : Nat) (x : Partn) : (s.setPart p x).ev = s.ev := rfl
@[simp] theorem State.setPart_core (s : State) (p : Nat) (x : Partn) : (s.setPart p x).core = s.core := rfl
@[simp] theorem State.setPart_slot (s : State) (p : Nat) (x : Partn) : (s.setPart p x).slot = s.slot := rfl
@[simp] theorem State.setPart_turn (s : State) (p : Nat) (x : Partn) : (s.setPart p x).turn = s.turn := rfl
@[simp] theorem State.setPart_free (s : State) (p : Nat) (x : Partn) : (s.setPart p x).free = s.free := rfl
@[simp] theorem State.setDie_cores (s : State) (d : Nat) (x : Die) : (s.setDie d x).cores = s.cores := rfl
@[simp] theorem State.setDie_lcores (s : State) (d : Nat) (x : Die) : (s.setDie d x).lcores = s.lcores := rfl
@[simp] theorem State.setDie_homes (s : State) (d : Nat) (x : Die) : (s.setDie d x).homes = s.homes := rfl
@[simp] theorem State.setDie_rows (s : State) (d : Nat) (x : Die) : (s.setDie d x).rows = s.rows := rfl
@[simp] theorem State.setDie_gangs (s : State) (d : Nat) (x : Die) : (s.setDie d x).gangs = s.gangs := rfl
@[simp] theorem State.setDie_passNo (s : State) (d : Nat) (x : Die) : (s.setDie d x).passNo = s.passNo := rfl
@[simp] theorem State.setDie_quads (s : State) (d : Nat) (x : Die) : (s.setDie d x).quads = s.quads := rfl
@[simp] theorem State.setDie_parts (s : State) (d : Nat) (x : Die) : (s.setDie d x).parts = s.parts := rfl
@[simp] theorem State.setDie_leases (s : State) (d : Nat) (x : Die) : (s.setDie d x).leases = s.leases := rfl
@[simp] theorem State.setDie_accounts (s : State) (d : Nat) (x : Die) : (s.setDie d x).accounts = s.accounts := rfl
@[simp] theorem State.setDie_pending (s : State) (d : Nat) (x : Die) : (s.setDie d x).pending = s.pending := rfl
@[simp] theorem State.setDie_pendAge (s : State) (d : Nat) (x : Die) : (s.setDie d x).pendAge = s.pendAge := rfl
@[simp] theorem State.setDie_launches (s : State) (d : Nat) (x : Die) : (s.setDie d x).launches = s.launches := rfl
@[simp] theorem State.setDie_windows (s : State) (d : Nat) (x : Die) : (s.setDie d x).windows = s.windows := rfl
@[simp] theorem State.setDie_gaffer (s : State) (d : Nat) (x : Die) : (s.setDie d x).gaffer = s.gaffer := rfl
@[simp] theorem State.setDie_log (s : State) (d : Nat) (x : Die) : (s.setDie d x).log = s.log := rfl
@[simp] theorem State.setDie_houseTarget (s : State) (d : Nat) (x : Die) : (s.setDie d x).houseTarget = s.houseTarget := rfl
@[simp] theorem State.setDie_msix (s : State) (d : Nat) (x : Die) : (s.setDie d x).msix = s.msix := rfl
@[simp] theorem State.setDie_notices (s : State) (d : Nat) (x : Die) : (s.setDie d x).notices = s.notices := rfl
@[simp] theorem State.setDie_colls (s : State) (d : Nat) (x : Die) : (s.setDie d x).colls = s.colls := rfl
@[simp] theorem State.setDie_peerBytes (s : State) (d : Nat) (x : Die) : (s.setDie d x).peerBytes = s.peerBytes := rfl
@[simp] theorem State.setDie_releasing (s : State) (d : Nat) (x : Die) : (s.setDie d x).releasing = s.releasing := rfl
@[simp] theorem State.setDie_mem (s : State) (d : Nat) (x : Die) : (s.setDie d x).mem = s.mem := rfl
@[simp] theorem State.setDie_fe (s : State) (d : Nat) (x : Die) : (s.setDie d x).fe = s.fe := rfl
@[simp] theorem State.setDie_poison (s : State) (d : Nat) (x : Die) : (s.setDie d x).poison = s.poison := rfl
@[simp] theorem State.setDie_gathers (s : State) (d : Nat) (x : Die) : (s.setDie d x).gathers = s.gathers := rfl
@[simp] theorem State.setDie_lehrs (s : State) (d : Nat) (x : Die) : (s.setDie d x).lehrs = s.lehrs := rfl
@[simp] theorem State.setDie_durable (s : State) (d : Nat) (x : Die) : (s.setDie d x).durable = s.durable := rfl
@[simp] theorem State.setDie_durPoison (s : State) (d : Nat) (x : Die) : (s.setDie d x).durPoison = s.durPoison := rfl
@[simp] theorem State.setDie_lehrFlags (s : State) (d : Nat) (x : Die) : (s.setDie d x).lehrFlags = s.lehrFlags := rfl
@[simp] theorem State.setDie_pwrfail (s : State) (d : Nat) (x : Die) : (s.setDie d x).pwrfail = s.pwrfail := rfl
@[simp] theorem State.setDie_fabric (s : State) (d : Nat) (x : Die) : (s.setDie d x).fabric = s.fabric := rfl
@[simp] theorem State.setDie_fabNext (s : State) (d : Nat) (x : Die) : (s.setDie d x).fabNext = s.fabNext := rfl
@[simp] theorem State.setDie_fabOut (s : State) (d : Nat) (x : Die) : (s.setDie d x).fabOut = s.fabOut := rfl
@[simp] theorem State.setDie_fabSent (s : State) (d : Nat) (x : Die) : (s.setDie d x).fabSent = s.fabSent := rfl
@[simp] theorem State.setDie_fabSeq (s : State) (d : Nat) (x : Die) : (s.setDie d x).fabSeq = s.fabSeq := rfl
@[simp] theorem State.setDie_replays (s : State) (d : Nat) (x : Die) : (s.setDie d x).replays = s.replays := rfl
@[simp] theorem State.setDie_portsDown (s : State) (d : Nat) (x : Die) : (s.setDie d x).portsDown = s.portsDown := rfl
@[simp] theorem State.setDie_linksDown (s : State) (d : Nat) (x : Die) : (s.setDie d x).linksDown = s.linksDown := rfl
@[simp] theorem State.setDie_corrected (s : State) (d : Nat) (x : Die) : (s.setDie d x).corrected = s.corrected := rfl
@[simp] theorem State.setDie_interleave (s : State) (d : Nat) (x : Die) : (s.setDie d x).interleave = s.interleave := rfl
@[simp] theorem State.setDie_volatileSize (s : State) (d : Nat) (x : Die) : (s.setDie d x).volatileSize = s.volatileSize := rfl
@[simp] theorem State.setDie_persistSize (s : State) (d : Nat) (x : Die) : (s.setDie d x).persistSize = s.persistSize := rfl
@[simp] theorem State.setDie_node (s : State) (d : Nat) (x : Die) : (s.setDie d x).node = s.node := rfl
@[simp] theorem State.setDie_atomicOps (s : State) (d : Nat) (x : Die) : (s.setDie d x).atomicOps = s.atomicOps := rfl
@[simp] theorem State.setDie_up (s : State) (d : Nat) (x : Die) : (s.setDie d x).up = s.up := rfl
@[simp] theorem State.setDie_clockLowered (s : State) (d : Nat) (x : Die) : (s.setDie d x).clockLowered = s.clockLowered := rfl
@[simp] theorem State.setDie_robin (s : State) (d : Nat) (x : Die) : (s.setDie d x).robin = s.robin := rfl
@[simp] theorem State.setDie_agenda (s : State) (d : Nat) (x : Die) : (s.setDie d x).agenda = s.agenda := rfl
@[simp] theorem State.setDie_ev (s : State) (d : Nat) (x : Die) : (s.setDie d x).ev = s.ev := rfl
@[simp] theorem State.setDie_core (s : State) (d : Nat) (x : Die) : (s.setDie d x).core = s.core := rfl
@[simp] theorem State.setDie_slot (s : State) (d : Nat) (x : Die) : (s.setDie d x).slot = s.slot := rfl
@[simp] theorem State.setDie_turn (s : State) (d : Nat) (x : Die) : (s.setDie d x).turn = s.turn := rfl
@[simp] theorem State.setDie_free (s : State) (d : Nat) (x : Die) : (s.setDie d x).free = s.free := rfl
@[simp] theorem State.setHome_cores (s : State) (h : Nat) (x : Home) : (s.setHome h x).cores = s.cores := rfl
@[simp] theorem State.setHome_lcores (s : State) (h : Nat) (x : Home) : (s.setHome h x).lcores = s.lcores := rfl
@[simp] theorem State.setHome_dies (s : State) (h : Nat) (x : Home) : (s.setHome h x).dies = s.dies := rfl
@[simp] theorem State.setHome_rows (s : State) (h : Nat) (x : Home) : (s.setHome h x).rows = s.rows := rfl
@[simp] theorem State.setHome_gangs (s : State) (h : Nat) (x : Home) : (s.setHome h x).gangs = s.gangs := rfl
@[simp] theorem State.setHome_passNo (s : State) (h : Nat) (x : Home) : (s.setHome h x).passNo = s.passNo := rfl
@[simp] theorem State.setHome_quads (s : State) (h : Nat) (x : Home) : (s.setHome h x).quads = s.quads := rfl
@[simp] theorem State.setHome_parts (s : State) (h : Nat) (x : Home) : (s.setHome h x).parts = s.parts := rfl
@[simp] theorem State.setHome_leases (s : State) (h : Nat) (x : Home) : (s.setHome h x).leases = s.leases := rfl
@[simp] theorem State.setHome_accounts (s : State) (h : Nat) (x : Home) : (s.setHome h x).accounts = s.accounts := rfl
@[simp] theorem State.setHome_pending (s : State) (h : Nat) (x : Home) : (s.setHome h x).pending = s.pending := rfl
@[simp] theorem State.setHome_pendAge (s : State) (h : Nat) (x : Home) : (s.setHome h x).pendAge = s.pendAge := rfl
@[simp] theorem State.setHome_launches (s : State) (h : Nat) (x : Home) : (s.setHome h x).launches = s.launches := rfl
@[simp] theorem State.setHome_windows (s : State) (h : Nat) (x : Home) : (s.setHome h x).windows = s.windows := rfl
@[simp] theorem State.setHome_gaffer (s : State) (h : Nat) (x : Home) : (s.setHome h x).gaffer = s.gaffer := rfl
@[simp] theorem State.setHome_log (s : State) (h : Nat) (x : Home) : (s.setHome h x).log = s.log := rfl
@[simp] theorem State.setHome_houseTarget (s : State) (h : Nat) (x : Home) : (s.setHome h x).houseTarget = s.houseTarget := rfl
@[simp] theorem State.setHome_msix (s : State) (h : Nat) (x : Home) : (s.setHome h x).msix = s.msix := rfl
@[simp] theorem State.setHome_notices (s : State) (h : Nat) (x : Home) : (s.setHome h x).notices = s.notices := rfl
@[simp] theorem State.setHome_colls (s : State) (h : Nat) (x : Home) : (s.setHome h x).colls = s.colls := rfl
@[simp] theorem State.setHome_peerBytes (s : State) (h : Nat) (x : Home) : (s.setHome h x).peerBytes = s.peerBytes := rfl
@[simp] theorem State.setHome_releasing (s : State) (h : Nat) (x : Home) : (s.setHome h x).releasing = s.releasing := rfl
@[simp] theorem State.setHome_mem (s : State) (h : Nat) (x : Home) : (s.setHome h x).mem = s.mem := rfl
@[simp] theorem State.setHome_fe (s : State) (h : Nat) (x : Home) : (s.setHome h x).fe = s.fe := rfl
@[simp] theorem State.setHome_poison (s : State) (h : Nat) (x : Home) : (s.setHome h x).poison = s.poison := rfl
@[simp] theorem State.setHome_gathers (s : State) (h : Nat) (x : Home) : (s.setHome h x).gathers = s.gathers := rfl
@[simp] theorem State.setHome_lehrs (s : State) (h : Nat) (x : Home) : (s.setHome h x).lehrs = s.lehrs := rfl
@[simp] theorem State.setHome_durable (s : State) (h : Nat) (x : Home) : (s.setHome h x).durable = s.durable := rfl
@[simp] theorem State.setHome_durPoison (s : State) (h : Nat) (x : Home) : (s.setHome h x).durPoison = s.durPoison := rfl
@[simp] theorem State.setHome_lehrFlags (s : State) (h : Nat) (x : Home) : (s.setHome h x).lehrFlags = s.lehrFlags := rfl
@[simp] theorem State.setHome_pwrfail (s : State) (h : Nat) (x : Home) : (s.setHome h x).pwrfail = s.pwrfail := rfl
@[simp] theorem State.setHome_fabric (s : State) (h : Nat) (x : Home) : (s.setHome h x).fabric = s.fabric := rfl
@[simp] theorem State.setHome_fabNext (s : State) (h : Nat) (x : Home) : (s.setHome h x).fabNext = s.fabNext := rfl
@[simp] theorem State.setHome_fabOut (s : State) (h : Nat) (x : Home) : (s.setHome h x).fabOut = s.fabOut := rfl
@[simp] theorem State.setHome_fabSent (s : State) (h : Nat) (x : Home) : (s.setHome h x).fabSent = s.fabSent := rfl
@[simp] theorem State.setHome_fabSeq (s : State) (h : Nat) (x : Home) : (s.setHome h x).fabSeq = s.fabSeq := rfl
@[simp] theorem State.setHome_replays (s : State) (h : Nat) (x : Home) : (s.setHome h x).replays = s.replays := rfl
@[simp] theorem State.setHome_portsDown (s : State) (h : Nat) (x : Home) : (s.setHome h x).portsDown = s.portsDown := rfl
@[simp] theorem State.setHome_linksDown (s : State) (h : Nat) (x : Home) : (s.setHome h x).linksDown = s.linksDown := rfl
@[simp] theorem State.setHome_corrected (s : State) (h : Nat) (x : Home) : (s.setHome h x).corrected = s.corrected := rfl
@[simp] theorem State.setHome_interleave (s : State) (h : Nat) (x : Home) : (s.setHome h x).interleave = s.interleave := rfl
@[simp] theorem State.setHome_volatileSize (s : State) (h : Nat) (x : Home) : (s.setHome h x).volatileSize = s.volatileSize := rfl
@[simp] theorem State.setHome_persistSize (s : State) (h : Nat) (x : Home) : (s.setHome h x).persistSize = s.persistSize := rfl
@[simp] theorem State.setHome_node (s : State) (h : Nat) (x : Home) : (s.setHome h x).node = s.node := rfl
@[simp] theorem State.setHome_atomicOps (s : State) (h : Nat) (x : Home) : (s.setHome h x).atomicOps = s.atomicOps := rfl
@[simp] theorem State.setHome_up (s : State) (h : Nat) (x : Home) : (s.setHome h x).up = s.up := rfl
@[simp] theorem State.setHome_clockLowered (s : State) (h : Nat) (x : Home) : (s.setHome h x).clockLowered = s.clockLowered := rfl
@[simp] theorem State.setHome_robin (s : State) (h : Nat) (x : Home) : (s.setHome h x).robin = s.robin := rfl
@[simp] theorem State.setHome_agenda (s : State) (h : Nat) (x : Home) : (s.setHome h x).agenda = s.agenda := rfl
@[simp] theorem State.setHome_ev (s : State) (h : Nat) (x : Home) : (s.setHome h x).ev = s.ev := rfl
@[simp] theorem State.setHome_core (s : State) (h : Nat) (x : Home) : (s.setHome h x).core = s.core := rfl
@[simp] theorem State.setHome_slot (s : State) (h : Nat) (x : Home) : (s.setHome h x).slot = s.slot := rfl
@[simp] theorem State.setHome_turn (s : State) (h : Nat) (x : Home) : (s.setHome h x).turn = s.turn := rfl
@[simp] theorem State.setHome_free (s : State) (h : Nat) (x : Home) : (s.setHome h x).free = s.free := rfl
@[simp] theorem State.setQuad_cores (s : State) (q : Nat) (x : Quad) : (s.setQuad q x).cores = s.cores := rfl
@[simp] theorem State.setQuad_lcores (s : State) (q : Nat) (x : Quad) : (s.setQuad q x).lcores = s.lcores := rfl
@[simp] theorem State.setQuad_dies (s : State) (q : Nat) (x : Quad) : (s.setQuad q x).dies = s.dies := rfl
@[simp] theorem State.setQuad_homes (s : State) (q : Nat) (x : Quad) : (s.setQuad q x).homes = s.homes := rfl
@[simp] theorem State.setQuad_rows (s : State) (q : Nat) (x : Quad) : (s.setQuad q x).rows = s.rows := rfl
@[simp] theorem State.setQuad_gangs (s : State) (q : Nat) (x : Quad) : (s.setQuad q x).gangs = s.gangs := rfl
@[simp] theorem State.setQuad_passNo (s : State) (q : Nat) (x : Quad) : (s.setQuad q x).passNo = s.passNo := rfl
@[simp] theorem State.setQuad_parts (s : State) (q : Nat) (x : Quad) : (s.setQuad q x).parts = s.parts := rfl
@[simp] theorem State.setQuad_leases (s : State) (q : Nat) (x : Quad) : (s.setQuad q x).leases = s.leases := rfl
@[simp] theorem State.setQuad_accounts (s : State) (q : Nat) (x : Quad) : (s.setQuad q x).accounts = s.accounts := rfl
@[simp] theorem State.setQuad_pending (s : State) (q : Nat) (x : Quad) : (s.setQuad q x).pending = s.pending := rfl
@[simp] theorem State.setQuad_pendAge (s : State) (q : Nat) (x : Quad) : (s.setQuad q x).pendAge = s.pendAge := rfl
@[simp] theorem State.setQuad_launches (s : State) (q : Nat) (x : Quad) : (s.setQuad q x).launches = s.launches := rfl
@[simp] theorem State.setQuad_windows (s : State) (q : Nat) (x : Quad) : (s.setQuad q x).windows = s.windows := rfl
@[simp] theorem State.setQuad_gaffer (s : State) (q : Nat) (x : Quad) : (s.setQuad q x).gaffer = s.gaffer := rfl
@[simp] theorem State.setQuad_log (s : State) (q : Nat) (x : Quad) : (s.setQuad q x).log = s.log := rfl
@[simp] theorem State.setQuad_houseTarget (s : State) (q : Nat) (x : Quad) : (s.setQuad q x).houseTarget = s.houseTarget := rfl
@[simp] theorem State.setQuad_msix (s : State) (q : Nat) (x : Quad) : (s.setQuad q x).msix = s.msix := rfl
@[simp] theorem State.setQuad_notices (s : State) (q : Nat) (x : Quad) : (s.setQuad q x).notices = s.notices := rfl
@[simp] theorem State.setQuad_colls (s : State) (q : Nat) (x : Quad) : (s.setQuad q x).colls = s.colls := rfl
@[simp] theorem State.setQuad_peerBytes (s : State) (q : Nat) (x : Quad) : (s.setQuad q x).peerBytes = s.peerBytes := rfl
@[simp] theorem State.setQuad_releasing (s : State) (q : Nat) (x : Quad) : (s.setQuad q x).releasing = s.releasing := rfl
@[simp] theorem State.setQuad_mem (s : State) (q : Nat) (x : Quad) : (s.setQuad q x).mem = s.mem := rfl
@[simp] theorem State.setQuad_fe (s : State) (q : Nat) (x : Quad) : (s.setQuad q x).fe = s.fe := rfl
@[simp] theorem State.setQuad_poison (s : State) (q : Nat) (x : Quad) : (s.setQuad q x).poison = s.poison := rfl
@[simp] theorem State.setQuad_gathers (s : State) (q : Nat) (x : Quad) : (s.setQuad q x).gathers = s.gathers := rfl
@[simp] theorem State.setQuad_lehrs (s : State) (q : Nat) (x : Quad) : (s.setQuad q x).lehrs = s.lehrs := rfl
@[simp] theorem State.setQuad_durable (s : State) (q : Nat) (x : Quad) : (s.setQuad q x).durable = s.durable := rfl
@[simp] theorem State.setQuad_durPoison (s : State) (q : Nat) (x : Quad) : (s.setQuad q x).durPoison = s.durPoison := rfl
@[simp] theorem State.setQuad_lehrFlags (s : State) (q : Nat) (x : Quad) : (s.setQuad q x).lehrFlags = s.lehrFlags := rfl
@[simp] theorem State.setQuad_pwrfail (s : State) (q : Nat) (x : Quad) : (s.setQuad q x).pwrfail = s.pwrfail := rfl
@[simp] theorem State.setQuad_fabric (s : State) (q : Nat) (x : Quad) : (s.setQuad q x).fabric = s.fabric := rfl
@[simp] theorem State.setQuad_fabNext (s : State) (q : Nat) (x : Quad) : (s.setQuad q x).fabNext = s.fabNext := rfl
@[simp] theorem State.setQuad_fabOut (s : State) (q : Nat) (x : Quad) : (s.setQuad q x).fabOut = s.fabOut := rfl
@[simp] theorem State.setQuad_fabSent (s : State) (q : Nat) (x : Quad) : (s.setQuad q x).fabSent = s.fabSent := rfl
@[simp] theorem State.setQuad_fabSeq (s : State) (q : Nat) (x : Quad) : (s.setQuad q x).fabSeq = s.fabSeq := rfl
@[simp] theorem State.setQuad_replays (s : State) (q : Nat) (x : Quad) : (s.setQuad q x).replays = s.replays := rfl
@[simp] theorem State.setQuad_portsDown (s : State) (q : Nat) (x : Quad) : (s.setQuad q x).portsDown = s.portsDown := rfl
@[simp] theorem State.setQuad_linksDown (s : State) (q : Nat) (x : Quad) : (s.setQuad q x).linksDown = s.linksDown := rfl
@[simp] theorem State.setQuad_corrected (s : State) (q : Nat) (x : Quad) : (s.setQuad q x).corrected = s.corrected := rfl
@[simp] theorem State.setQuad_interleave (s : State) (q : Nat) (x : Quad) : (s.setQuad q x).interleave = s.interleave := rfl
@[simp] theorem State.setQuad_volatileSize (s : State) (q : Nat) (x : Quad) : (s.setQuad q x).volatileSize = s.volatileSize := rfl
@[simp] theorem State.setQuad_persistSize (s : State) (q : Nat) (x : Quad) : (s.setQuad q x).persistSize = s.persistSize := rfl
@[simp] theorem State.setQuad_node (s : State) (q : Nat) (x : Quad) : (s.setQuad q x).node = s.node := rfl
@[simp] theorem State.setQuad_atomicOps (s : State) (q : Nat) (x : Quad) : (s.setQuad q x).atomicOps = s.atomicOps := rfl
@[simp] theorem State.setQuad_up (s : State) (q : Nat) (x : Quad) : (s.setQuad q x).up = s.up := rfl
@[simp] theorem State.setQuad_clockLowered (s : State) (q : Nat) (x : Quad) : (s.setQuad q x).clockLowered = s.clockLowered := rfl
@[simp] theorem State.setQuad_robin (s : State) (q : Nat) (x : Quad) : (s.setQuad q x).robin = s.robin := rfl
@[simp] theorem State.setQuad_agenda (s : State) (q : Nat) (x : Quad) : (s.setQuad q x).agenda = s.agenda := rfl
@[simp] theorem State.setQuad_ev (s : State) (q : Nat) (x : Quad) : (s.setQuad q x).ev = s.ev := rfl
@[simp] theorem State.setQuad_core (s : State) (q : Nat) (x : Quad) : (s.setQuad q x).core = s.core := rfl
@[simp] theorem State.setQuad_slot (s : State) (q : Nat) (x : Quad) : (s.setQuad q x).slot = s.slot := rfl
@[simp] theorem State.setQuad_turn (s : State) (q : Nat) (x : Quad) : (s.setQuad q x).turn = s.turn := rfl
@[simp] theorem State.setQuad_free (s : State) (q : Nat) (x : Quad) : (s.setQuad q x).free = s.free := rfl
@[simp] theorem State.setWindow_cores (s : State) (f : HostFn) (x : Window) : (s.setWindow f x).cores = s.cores := rfl
@[simp] theorem State.setWindow_lcores (s : State) (f : HostFn) (x : Window) : (s.setWindow f x).lcores = s.lcores := rfl
@[simp] theorem State.setWindow_dies (s : State) (f : HostFn) (x : Window) : (s.setWindow f x).dies = s.dies := rfl
@[simp] theorem State.setWindow_homes (s : State) (f : HostFn) (x : Window) : (s.setWindow f x).homes = s.homes := rfl
@[simp] theorem State.setWindow_rows (s : State) (f : HostFn) (x : Window) : (s.setWindow f x).rows = s.rows := rfl
@[simp] theorem State.setWindow_gangs (s : State) (f : HostFn) (x : Window) : (s.setWindow f x).gangs = s.gangs := rfl
@[simp] theorem State.setWindow_passNo (s : State) (f : HostFn) (x : Window) : (s.setWindow f x).passNo = s.passNo := rfl
@[simp] theorem State.setWindow_quads (s : State) (f : HostFn) (x : Window) : (s.setWindow f x).quads = s.quads := rfl
@[simp] theorem State.setWindow_parts (s : State) (f : HostFn) (x : Window) : (s.setWindow f x).parts = s.parts := rfl
@[simp] theorem State.setWindow_leases (s : State) (f : HostFn) (x : Window) : (s.setWindow f x).leases = s.leases := rfl
@[simp] theorem State.setWindow_accounts (s : State) (f : HostFn) (x : Window) : (s.setWindow f x).accounts = s.accounts := rfl
@[simp] theorem State.setWindow_pending (s : State) (f : HostFn) (x : Window) : (s.setWindow f x).pending = s.pending := rfl
@[simp] theorem State.setWindow_pendAge (s : State) (f : HostFn) (x : Window) : (s.setWindow f x).pendAge = s.pendAge := rfl
@[simp] theorem State.setWindow_launches (s : State) (f : HostFn) (x : Window) : (s.setWindow f x).launches = s.launches := rfl
@[simp] theorem State.setWindow_gaffer (s : State) (f : HostFn) (x : Window) : (s.setWindow f x).gaffer = s.gaffer := rfl
@[simp] theorem State.setWindow_log (s : State) (f : HostFn) (x : Window) : (s.setWindow f x).log = s.log := rfl
@[simp] theorem State.setWindow_houseTarget (s : State) (f : HostFn) (x : Window) : (s.setWindow f x).houseTarget = s.houseTarget := rfl
@[simp] theorem State.setWindow_msix (s : State) (f : HostFn) (x : Window) : (s.setWindow f x).msix = s.msix := rfl
@[simp] theorem State.setWindow_notices (s : State) (f : HostFn) (x : Window) : (s.setWindow f x).notices = s.notices := rfl
@[simp] theorem State.setWindow_colls (s : State) (f : HostFn) (x : Window) : (s.setWindow f x).colls = s.colls := rfl
@[simp] theorem State.setWindow_peerBytes (s : State) (f : HostFn) (x : Window) : (s.setWindow f x).peerBytes = s.peerBytes := rfl
@[simp] theorem State.setWindow_releasing (s : State) (f : HostFn) (x : Window) : (s.setWindow f x).releasing = s.releasing := rfl
@[simp] theorem State.setWindow_mem (s : State) (f : HostFn) (x : Window) : (s.setWindow f x).mem = s.mem := rfl
@[simp] theorem State.setWindow_fe (s : State) (f : HostFn) (x : Window) : (s.setWindow f x).fe = s.fe := rfl
@[simp] theorem State.setWindow_poison (s : State) (f : HostFn) (x : Window) : (s.setWindow f x).poison = s.poison := rfl
@[simp] theorem State.setWindow_gathers (s : State) (f : HostFn) (x : Window) : (s.setWindow f x).gathers = s.gathers := rfl
@[simp] theorem State.setWindow_lehrs (s : State) (f : HostFn) (x : Window) : (s.setWindow f x).lehrs = s.lehrs := rfl
@[simp] theorem State.setWindow_durable (s : State) (f : HostFn) (x : Window) : (s.setWindow f x).durable = s.durable := rfl
@[simp] theorem State.setWindow_durPoison (s : State) (f : HostFn) (x : Window) : (s.setWindow f x).durPoison = s.durPoison := rfl
@[simp] theorem State.setWindow_lehrFlags (s : State) (f : HostFn) (x : Window) : (s.setWindow f x).lehrFlags = s.lehrFlags := rfl
@[simp] theorem State.setWindow_pwrfail (s : State) (f : HostFn) (x : Window) : (s.setWindow f x).pwrfail = s.pwrfail := rfl
@[simp] theorem State.setWindow_fabric (s : State) (f : HostFn) (x : Window) : (s.setWindow f x).fabric = s.fabric := rfl
@[simp] theorem State.setWindow_fabNext (s : State) (f : HostFn) (x : Window) : (s.setWindow f x).fabNext = s.fabNext := rfl
@[simp] theorem State.setWindow_fabOut (s : State) (f : HostFn) (x : Window) : (s.setWindow f x).fabOut = s.fabOut := rfl
@[simp] theorem State.setWindow_fabSent (s : State) (f : HostFn) (x : Window) : (s.setWindow f x).fabSent = s.fabSent := rfl
@[simp] theorem State.setWindow_fabSeq (s : State) (f : HostFn) (x : Window) : (s.setWindow f x).fabSeq = s.fabSeq := rfl
@[simp] theorem State.setWindow_replays (s : State) (f : HostFn) (x : Window) : (s.setWindow f x).replays = s.replays := rfl
@[simp] theorem State.setWindow_portsDown (s : State) (f : HostFn) (x : Window) : (s.setWindow f x).portsDown = s.portsDown := rfl
@[simp] theorem State.setWindow_linksDown (s : State) (f : HostFn) (x : Window) : (s.setWindow f x).linksDown = s.linksDown := rfl
@[simp] theorem State.setWindow_corrected (s : State) (f : HostFn) (x : Window) : (s.setWindow f x).corrected = s.corrected := rfl
@[simp] theorem State.setWindow_interleave (s : State) (f : HostFn) (x : Window) : (s.setWindow f x).interleave = s.interleave := rfl
@[simp] theorem State.setWindow_volatileSize (s : State) (f : HostFn) (x : Window) : (s.setWindow f x).volatileSize = s.volatileSize := rfl
@[simp] theorem State.setWindow_persistSize (s : State) (f : HostFn) (x : Window) : (s.setWindow f x).persistSize = s.persistSize := rfl
@[simp] theorem State.setWindow_node (s : State) (f : HostFn) (x : Window) : (s.setWindow f x).node = s.node := rfl
@[simp] theorem State.setWindow_atomicOps (s : State) (f : HostFn) (x : Window) : (s.setWindow f x).atomicOps = s.atomicOps := rfl
@[simp] theorem State.setWindow_up (s : State) (f : HostFn) (x : Window) : (s.setWindow f x).up = s.up := rfl
@[simp] theorem State.setWindow_clockLowered (s : State) (f : HostFn) (x : Window) : (s.setWindow f x).clockLowered = s.clockLowered := rfl
@[simp] theorem State.setWindow_robin (s : State) (f : HostFn) (x : Window) : (s.setWindow f x).robin = s.robin := rfl
@[simp] theorem State.setWindow_agenda (s : State) (f : HostFn) (x : Window) : (s.setWindow f x).agenda = s.agenda := rfl
@[simp] theorem State.setWindow_ev (s : State) (f : HostFn) (x : Window) : (s.setWindow f x).ev = s.ev := rfl
@[simp] theorem State.setWindow_core (s : State) (f : HostFn) (x : Window) : (s.setWindow f x).core = s.core := rfl
@[simp] theorem State.setWindow_slot (s : State) (f : HostFn) (x : Window) : (s.setWindow f x).slot = s.slot := rfl
@[simp] theorem State.setWindow_turn (s : State) (f : HostFn) (x : Window) : (s.setWindow f x).turn = s.turn := rfl
@[simp] theorem State.setWindow_free (s : State) (f : HostFn) (x : Window) : (s.setWindow f x).free = s.free := rfl

/-! ### Fields of a slot that an update leaves alone -/

@[simp] theorem Slot.setX_st (t : Slot) (r : BitVec 5) (v : Word) : (t.setX r v).st = t.st := by unfold Slot.setX; split <;> rfl
@[simp] theorem Slot.setX_gen (t : Slot) (r : BitVec 5) (v : Word) : (t.setX r v).gen = t.gen := by unfold Slot.setX; split <;> rfl
@[simp] theorem Slot.setX_pc (t : Slot) (r : BitVec 5) (v : Word) : (t.setX r v).pc = t.pc := by unfold Slot.setX; split <;> rfl
@[simp] theorem Slot.setX_v (t : Slot) (r : BitVec 5) (v : Word) : (t.setX r v).v = t.v := by unfold Slot.setX; split <;> rfl
@[simp] theorem Slot.setX_p (t : Slot) (r : BitVec 5) (v : Word) : (t.setX r v).p = t.p := by unfold Slot.setX; split <;> rfl
@[simp] theorem Slot.setX_q (t : Slot) (r : BitVec 5) (v : Word) : (t.setX r v).q = t.q := by unfold Slot.setX; split <;> rfl
@[simp] theorem Slot.setX_wid (t : Slot) (r : BitVec 5) (v : Word) : (t.setX r v).wid = t.wid := by unfold Slot.setX; split <;> rfl
@[simp] theorem Slot.setX_lease (t : Slot) (r : BitVec 5) (v : Word) : (t.setX r v).lease = t.lease := by unfold Slot.setX; split <;> rfl
@[simp] theorem Slot.setX_tag (t : Slot) (r : BitVec 5) (v : Word) : (t.setX r v).tag = t.tag := by unfold Slot.setX; split <;> rfl
@[simp] theorem Slot.setX_part (t : Slot) (r : BitVec 5) (v : Word) : (t.setX r v).part = t.part := by unfold Slot.setX; split <;> rfl
@[simp] theorem Slot.setX_ss (t : Slot) (r : BitVec 5) (v : Word) : (t.setX r v).ss = t.ss := by unfold Slot.setX; split <;> rfl
@[simp] theorem Slot.setX_ff (t : Slot) (r : BitVec 5) (v : Word) : (t.setX r v).ff = t.ff := by unfold Slot.setX; split <;> rfl
@[simp] theorem Slot.setX_phase (t : Slot) (r : BitVec 5) (v : Word) : (t.setX r v).phase = t.phase := by unfold Slot.setX; split <;> rfl
@[simp] theorem Slot.setX_dom (t : Slot) (r : BitVec 5) (v : Word) : (t.setX r v).dom = t.dom := by unfold Slot.setX; split <;> rfl
@[simp] theorem Slot.setX_ctype (t : Slot) (r : BitVec 5) (v : Word) : (t.setX r v).ctype = t.ctype := by unfold Slot.setX; split <;> rfl
@[simp] theorem Slot.setX_bexp (t : Slot) (r : BitVec 5) (v : Word) : (t.setX r v).bexp = t.bexp := by unfold Slot.setX; split <;> rfl
@[simp] theorem Slot.setX_lc (t : Slot) (r : BitVec 5) (v : Word) : (t.setX r v).lc = t.lc := by unfold Slot.setX; split <;> rfl
@[simp] theorem Slot.setX_ls (t : Slot) (r : BitVec 5) (v : Word) : (t.setX r v).ls = t.ls := by unfold Slot.setX; split <;> rfl
@[simp] theorem Slot.setX_le (t : Slot) (r : BitVec 5) (v : Word) : (t.setX r v).le = t.le := by unfold Slot.setX; split <;> rfl
@[simp] theorem Slot.setX_wdc (t : Slot) (r : BitVec 5) (v : Word) : (t.setX r v).wdc = t.wdc := by unfold Slot.setX; split <;> rfl
@[simp] theorem Slot.setX_hlc (t : Slot) (r : BitVec 5) (v : Word) : (t.setX r v).hlc = t.hlc := by unfold Slot.setX; split <;> rfl
@[simp] theorem Slot.setX_hrc (t : Slot) (r : BitVec 5) (v : Word) : (t.setX r v).hrc = t.hrc := by unfold Slot.setX; split <;> rfl
@[simp] theorem Slot.setX_warned (t : Slot) (r : BitVec 5) (v : Word) : (t.setX r v).warned = t.warned := by unfold Slot.setX; split <;> rfl
@[simp] theorem Slot.setX_epoch (t : Slot) (r : BitVec 5) (v : Word) : (t.setX r v).epoch = t.epoch := by unfold Slot.setX; split <;> rfl
@[simp] theorem Slot.setX_frames (t : Slot) (r : BitVec 5) (v : Word) : (t.setX r v).frames = t.frames := by unfold Slot.setX; split <;> rfl
@[simp] theorem Slot.setX_ahead (t : Slot) (r : BitVec 5) (v : Word) : (t.setX r v).ahead = t.ahead := by unfold Slot.setX; split <;> rfl
@[simp] theorem Slot.setX_account (t : Slot) (r : BitVec 5) (v : Word) : (t.setX r v).account = t.account := by unfold Slot.setX; split <;> rfl
@[simp] theorem Slot.setX_counted (t : Slot) (r : BitVec 5) (v : Word) : (t.setX r v).counted = t.counted := by unfold Slot.setX; split <;> rfl
@[simp] theorem Slot.setX_upcall (t : Slot) (r : BitVec 5) (v : Word) : (t.setX r v).upcall = t.upcall := by unfold Slot.setX; split <;> rfl
@[simp] theorem Slot.setX_gang (t : Slot) (r : BitVec 5) (v : Word) : (t.setX r v).gang = t.gang := by unfold Slot.setX; split <;> rfl
@[simp] theorem Slot.setX_entryTask (t : Slot) (r : BitVec 5) (v : Word) : (t.setX r v).entryTask = t.entryTask := by unfold Slot.setX; split <;> rfl
@[simp] theorem Slot.setX_unwound (t : Slot) (r : BitVec 5) (v : Word) : (t.setX r v).unwound = t.unwound := by unfold Slot.setX; split <;> rfl
@[simp] theorem Slot.setV_st (t : Slot) (r : Nat) (v : VecReg) : (t.setV r v).st = t.st := rfl
@[simp] theorem Slot.setV_gen (t : Slot) (r : Nat) (v : VecReg) : (t.setV r v).gen = t.gen := rfl
@[simp] theorem Slot.setV_pc (t : Slot) (r : Nat) (v : VecReg) : (t.setV r v).pc = t.pc := rfl
@[simp] theorem Slot.setV_x (t : Slot) (r : Nat) (v : VecReg) : (t.setV r v).x = t.x := rfl
@[simp] theorem Slot.setV_p (t : Slot) (r : Nat) (v : VecReg) : (t.setV r v).p = t.p := rfl
@[simp] theorem Slot.setV_q (t : Slot) (r : Nat) (v : VecReg) : (t.setV r v).q = t.q := rfl
@[simp] theorem Slot.setV_wid (t : Slot) (r : Nat) (v : VecReg) : (t.setV r v).wid = t.wid := rfl
@[simp] theorem Slot.setV_lease (t : Slot) (r : Nat) (v : VecReg) : (t.setV r v).lease = t.lease := rfl
@[simp] theorem Slot.setV_tag (t : Slot) (r : Nat) (v : VecReg) : (t.setV r v).tag = t.tag := rfl
@[simp] theorem Slot.setV_part (t : Slot) (r : Nat) (v : VecReg) : (t.setV r v).part = t.part := rfl
@[simp] theorem Slot.setV_ss (t : Slot) (r : Nat) (v : VecReg) : (t.setV r v).ss = t.ss := rfl
@[simp] theorem Slot.setV_ff (t : Slot) (r : Nat) (v : VecReg) : (t.setV r v).ff = t.ff := rfl
@[simp] theorem Slot.setV_phase (t : Slot) (r : Nat) (v : VecReg) : (t.setV r v).phase = t.phase := rfl
@[simp] theorem Slot.setV_dom (t : Slot) (r : Nat) (v : VecReg) : (t.setV r v).dom = t.dom := rfl
@[simp] theorem Slot.setV_ctype (t : Slot) (r : Nat) (v : VecReg) : (t.setV r v).ctype = t.ctype := rfl
@[simp] theorem Slot.setV_bexp (t : Slot) (r : Nat) (v : VecReg) : (t.setV r v).bexp = t.bexp := rfl
@[simp] theorem Slot.setV_lc (t : Slot) (r : Nat) (v : VecReg) : (t.setV r v).lc = t.lc := rfl
@[simp] theorem Slot.setV_ls (t : Slot) (r : Nat) (v : VecReg) : (t.setV r v).ls = t.ls := rfl
@[simp] theorem Slot.setV_le (t : Slot) (r : Nat) (v : VecReg) : (t.setV r v).le = t.le := rfl
@[simp] theorem Slot.setV_wdc (t : Slot) (r : Nat) (v : VecReg) : (t.setV r v).wdc = t.wdc := rfl
@[simp] theorem Slot.setV_hlc (t : Slot) (r : Nat) (v : VecReg) : (t.setV r v).hlc = t.hlc := rfl
@[simp] theorem Slot.setV_hrc (t : Slot) (r : Nat) (v : VecReg) : (t.setV r v).hrc = t.hrc := rfl
@[simp] theorem Slot.setV_warned (t : Slot) (r : Nat) (v : VecReg) : (t.setV r v).warned = t.warned := rfl
@[simp] theorem Slot.setV_epoch (t : Slot) (r : Nat) (v : VecReg) : (t.setV r v).epoch = t.epoch := rfl
@[simp] theorem Slot.setV_frames (t : Slot) (r : Nat) (v : VecReg) : (t.setV r v).frames = t.frames := rfl
@[simp] theorem Slot.setV_ahead (t : Slot) (r : Nat) (v : VecReg) : (t.setV r v).ahead = t.ahead := rfl
@[simp] theorem Slot.setV_account (t : Slot) (r : Nat) (v : VecReg) : (t.setV r v).account = t.account := rfl
@[simp] theorem Slot.setV_counted (t : Slot) (r : Nat) (v : VecReg) : (t.setV r v).counted = t.counted := rfl
@[simp] theorem Slot.setV_upcall (t : Slot) (r : Nat) (v : VecReg) : (t.setV r v).upcall = t.upcall := rfl
@[simp] theorem Slot.setV_gang (t : Slot) (r : Nat) (v : VecReg) : (t.setV r v).gang = t.gang := rfl
@[simp] theorem Slot.setV_entryTask (t : Slot) (r : Nat) (v : VecReg) : (t.setV r v).entryTask = t.entryTask := rfl
@[simp] theorem Slot.setV_unwound (t : Slot) (r : Nat) (v : VecReg) : (t.setV r v).unwound = t.unwound := rfl
@[simp] theorem Slot.setP_st (t : Slot) (r : Nat) (v : BitVec 16) : (t.setP r v).st = t.st := by unfold Slot.setP; split <;> rfl
@[simp] theorem Slot.setP_gen (t : Slot) (r : Nat) (v : BitVec 16) : (t.setP r v).gen = t.gen := by unfold Slot.setP; split <;> rfl
@[simp] theorem Slot.setP_pc (t : Slot) (r : Nat) (v : BitVec 16) : (t.setP r v).pc = t.pc := by unfold Slot.setP; split <;> rfl
@[simp] theorem Slot.setP_x (t : Slot) (r : Nat) (v : BitVec 16) : (t.setP r v).x = t.x := by unfold Slot.setP; split <;> rfl
@[simp] theorem Slot.setP_v (t : Slot) (r : Nat) (v : BitVec 16) : (t.setP r v).v = t.v := by unfold Slot.setP; split <;> rfl
@[simp] theorem Slot.setP_q (t : Slot) (r : Nat) (v : BitVec 16) : (t.setP r v).q = t.q := by unfold Slot.setP; split <;> rfl
@[simp] theorem Slot.setP_wid (t : Slot) (r : Nat) (v : BitVec 16) : (t.setP r v).wid = t.wid := by unfold Slot.setP; split <;> rfl
@[simp] theorem Slot.setP_lease (t : Slot) (r : Nat) (v : BitVec 16) : (t.setP r v).lease = t.lease := by unfold Slot.setP; split <;> rfl
@[simp] theorem Slot.setP_tag (t : Slot) (r : Nat) (v : BitVec 16) : (t.setP r v).tag = t.tag := by unfold Slot.setP; split <;> rfl
@[simp] theorem Slot.setP_part (t : Slot) (r : Nat) (v : BitVec 16) : (t.setP r v).part = t.part := by unfold Slot.setP; split <;> rfl
@[simp] theorem Slot.setP_ss (t : Slot) (r : Nat) (v : BitVec 16) : (t.setP r v).ss = t.ss := by unfold Slot.setP; split <;> rfl
@[simp] theorem Slot.setP_ff (t : Slot) (r : Nat) (v : BitVec 16) : (t.setP r v).ff = t.ff := by unfold Slot.setP; split <;> rfl
@[simp] theorem Slot.setP_phase (t : Slot) (r : Nat) (v : BitVec 16) : (t.setP r v).phase = t.phase := by unfold Slot.setP; split <;> rfl
@[simp] theorem Slot.setP_dom (t : Slot) (r : Nat) (v : BitVec 16) : (t.setP r v).dom = t.dom := by unfold Slot.setP; split <;> rfl
@[simp] theorem Slot.setP_ctype (t : Slot) (r : Nat) (v : BitVec 16) : (t.setP r v).ctype = t.ctype := by unfold Slot.setP; split <;> rfl
@[simp] theorem Slot.setP_bexp (t : Slot) (r : Nat) (v : BitVec 16) : (t.setP r v).bexp = t.bexp := by unfold Slot.setP; split <;> rfl
@[simp] theorem Slot.setP_lc (t : Slot) (r : Nat) (v : BitVec 16) : (t.setP r v).lc = t.lc := by unfold Slot.setP; split <;> rfl
@[simp] theorem Slot.setP_ls (t : Slot) (r : Nat) (v : BitVec 16) : (t.setP r v).ls = t.ls := by unfold Slot.setP; split <;> rfl
@[simp] theorem Slot.setP_le (t : Slot) (r : Nat) (v : BitVec 16) : (t.setP r v).le = t.le := by unfold Slot.setP; split <;> rfl
@[simp] theorem Slot.setP_wdc (t : Slot) (r : Nat) (v : BitVec 16) : (t.setP r v).wdc = t.wdc := by unfold Slot.setP; split <;> rfl
@[simp] theorem Slot.setP_hlc (t : Slot) (r : Nat) (v : BitVec 16) : (t.setP r v).hlc = t.hlc := by unfold Slot.setP; split <;> rfl
@[simp] theorem Slot.setP_hrc (t : Slot) (r : Nat) (v : BitVec 16) : (t.setP r v).hrc = t.hrc := by unfold Slot.setP; split <;> rfl
@[simp] theorem Slot.setP_warned (t : Slot) (r : Nat) (v : BitVec 16) : (t.setP r v).warned = t.warned := by unfold Slot.setP; split <;> rfl
@[simp] theorem Slot.setP_epoch (t : Slot) (r : Nat) (v : BitVec 16) : (t.setP r v).epoch = t.epoch := by unfold Slot.setP; split <;> rfl
@[simp] theorem Slot.setP_frames (t : Slot) (r : Nat) (v : BitVec 16) : (t.setP r v).frames = t.frames := by unfold Slot.setP; split <;> rfl
@[simp] theorem Slot.setP_ahead (t : Slot) (r : Nat) (v : BitVec 16) : (t.setP r v).ahead = t.ahead := by unfold Slot.setP; split <;> rfl
@[simp] theorem Slot.setP_account (t : Slot) (r : Nat) (v : BitVec 16) : (t.setP r v).account = t.account := by unfold Slot.setP; split <;> rfl
@[simp] theorem Slot.setP_counted (t : Slot) (r : Nat) (v : BitVec 16) : (t.setP r v).counted = t.counted := by unfold Slot.setP; split <;> rfl
@[simp] theorem Slot.setP_upcall (t : Slot) (r : Nat) (v : BitVec 16) : (t.setP r v).upcall = t.upcall := by unfold Slot.setP; split <;> rfl
@[simp] theorem Slot.setP_gang (t : Slot) (r : Nat) (v : BitVec 16) : (t.setP r v).gang = t.gang := by unfold Slot.setP; split <;> rfl
@[simp] theorem Slot.setP_entryTask (t : Slot) (r : Nat) (v : BitVec 16) : (t.setP r v).entryTask = t.entryTask := by unfold Slot.setP; split <;> rfl
@[simp] theorem Slot.setP_unwound (t : Slot) (r : Nat) (v : BitVec 16) : (t.setP r v).unwound = t.unwound := by unfold Slot.setP; split <;> rfl
@[simp] theorem Slot.setQ_st (t : Slot) (r : Nat) (v : List Word) : (t.setQ r v).st = t.st := rfl
@[simp] theorem Slot.setQ_gen (t : Slot) (r : Nat) (v : List Word) : (t.setQ r v).gen = t.gen := rfl
@[simp] theorem Slot.setQ_pc (t : Slot) (r : Nat) (v : List Word) : (t.setQ r v).pc = t.pc := rfl
@[simp] theorem Slot.setQ_x (t : Slot) (r : Nat) (v : List Word) : (t.setQ r v).x = t.x := rfl
@[simp] theorem Slot.setQ_v (t : Slot) (r : Nat) (v : List Word) : (t.setQ r v).v = t.v := rfl
@[simp] theorem Slot.setQ_p (t : Slot) (r : Nat) (v : List Word) : (t.setQ r v).p = t.p := rfl
@[simp] theorem Slot.setQ_wid (t : Slot) (r : Nat) (v : List Word) : (t.setQ r v).wid = t.wid := rfl
@[simp] theorem Slot.setQ_lease (t : Slot) (r : Nat) (v : List Word) : (t.setQ r v).lease = t.lease := rfl
@[simp] theorem Slot.setQ_tag (t : Slot) (r : Nat) (v : List Word) : (t.setQ r v).tag = t.tag := rfl
@[simp] theorem Slot.setQ_part (t : Slot) (r : Nat) (v : List Word) : (t.setQ r v).part = t.part := rfl
@[simp] theorem Slot.setQ_ss (t : Slot) (r : Nat) (v : List Word) : (t.setQ r v).ss = t.ss := rfl
@[simp] theorem Slot.setQ_ff (t : Slot) (r : Nat) (v : List Word) : (t.setQ r v).ff = t.ff := rfl
@[simp] theorem Slot.setQ_phase (t : Slot) (r : Nat) (v : List Word) : (t.setQ r v).phase = t.phase := rfl
@[simp] theorem Slot.setQ_dom (t : Slot) (r : Nat) (v : List Word) : (t.setQ r v).dom = t.dom := rfl
@[simp] theorem Slot.setQ_ctype (t : Slot) (r : Nat) (v : List Word) : (t.setQ r v).ctype = t.ctype := rfl
@[simp] theorem Slot.setQ_bexp (t : Slot) (r : Nat) (v : List Word) : (t.setQ r v).bexp = t.bexp := rfl
@[simp] theorem Slot.setQ_lc (t : Slot) (r : Nat) (v : List Word) : (t.setQ r v).lc = t.lc := rfl
@[simp] theorem Slot.setQ_ls (t : Slot) (r : Nat) (v : List Word) : (t.setQ r v).ls = t.ls := rfl
@[simp] theorem Slot.setQ_le (t : Slot) (r : Nat) (v : List Word) : (t.setQ r v).le = t.le := rfl
@[simp] theorem Slot.setQ_wdc (t : Slot) (r : Nat) (v : List Word) : (t.setQ r v).wdc = t.wdc := rfl
@[simp] theorem Slot.setQ_hlc (t : Slot) (r : Nat) (v : List Word) : (t.setQ r v).hlc = t.hlc := rfl
@[simp] theorem Slot.setQ_hrc (t : Slot) (r : Nat) (v : List Word) : (t.setQ r v).hrc = t.hrc := rfl
@[simp] theorem Slot.setQ_warned (t : Slot) (r : Nat) (v : List Word) : (t.setQ r v).warned = t.warned := rfl
@[simp] theorem Slot.setQ_epoch (t : Slot) (r : Nat) (v : List Word) : (t.setQ r v).epoch = t.epoch := rfl
@[simp] theorem Slot.setQ_frames (t : Slot) (r : Nat) (v : List Word) : (t.setQ r v).frames = t.frames := rfl
@[simp] theorem Slot.setQ_ahead (t : Slot) (r : Nat) (v : List Word) : (t.setQ r v).ahead = t.ahead := rfl
@[simp] theorem Slot.setQ_account (t : Slot) (r : Nat) (v : List Word) : (t.setQ r v).account = t.account := rfl
@[simp] theorem Slot.setQ_counted (t : Slot) (r : Nat) (v : List Word) : (t.setQ r v).counted = t.counted := rfl
@[simp] theorem Slot.setQ_upcall (t : Slot) (r : Nat) (v : List Word) : (t.setQ r v).upcall = t.upcall := rfl
@[simp] theorem Slot.setQ_gang (t : Slot) (r : Nat) (v : List Word) : (t.setQ r v).gang = t.gang := rfl
@[simp] theorem Slot.setQ_entryTask (t : Slot) (r : Nat) (v : List Word) : (t.setQ r v).entryTask = t.entryTask := rfl
@[simp] theorem Slot.setQ_unwound (t : Slot) (r : Nat) (v : List Word) : (t.setQ r v).unwound = t.unwound := rfl
@[simp] theorem Slot.setPfx_st (t : Slot) (w : Option (BitVec 12)) : (t.setPfx w).st = t.st := by cases w <;> rfl
@[simp] theorem Slot.setPfx_gen (t : Slot) (w : Option (BitVec 12)) : (t.setPfx w).gen = t.gen := by cases w <;> rfl
@[simp] theorem Slot.setPfx_pc (t : Slot) (w : Option (BitVec 12)) : (t.setPfx w).pc = t.pc := by cases w <;> rfl
@[simp] theorem Slot.setPfx_x (t : Slot) (w : Option (BitVec 12)) : (t.setPfx w).x = t.x := by cases w <;> rfl
@[simp] theorem Slot.setPfx_v (t : Slot) (w : Option (BitVec 12)) : (t.setPfx w).v = t.v := by cases w <;> rfl
@[simp] theorem Slot.setPfx_p (t : Slot) (w : Option (BitVec 12)) : (t.setPfx w).p = t.p := by cases w <;> rfl
@[simp] theorem Slot.setPfx_q (t : Slot) (w : Option (BitVec 12)) : (t.setPfx w).q = t.q := by cases w <;> rfl
@[simp] theorem Slot.setPfx_wid (t : Slot) (w : Option (BitVec 12)) : (t.setPfx w).wid = t.wid := by cases w <;> rfl
@[simp] theorem Slot.setPfx_lease (t : Slot) (w : Option (BitVec 12)) : (t.setPfx w).lease = t.lease := by cases w <;> rfl
@[simp] theorem Slot.setPfx_tag (t : Slot) (w : Option (BitVec 12)) : (t.setPfx w).tag = t.tag := by cases w <;> rfl
@[simp] theorem Slot.setPfx_part (t : Slot) (w : Option (BitVec 12)) : (t.setPfx w).part = t.part := by cases w <;> rfl
@[simp] theorem Slot.setPfx_ff (t : Slot) (w : Option (BitVec 12)) : (t.setPfx w).ff = t.ff := by cases w <;> rfl
@[simp] theorem Slot.setPfx_phase (t : Slot) (w : Option (BitVec 12)) : (t.setPfx w).phase = t.phase := by cases w <;> rfl
@[simp] theorem Slot.setPfx_dom (t : Slot) (w : Option (BitVec 12)) : (t.setPfx w).dom = t.dom := by cases w <;> rfl
@[simp] theorem Slot.setPfx_ctype (t : Slot) (w : Option (BitVec 12)) : (t.setPfx w).ctype = t.ctype := by cases w <;> rfl
@[simp] theorem Slot.setPfx_bexp (t : Slot) (w : Option (BitVec 12)) : (t.setPfx w).bexp = t.bexp := by cases w <;> rfl
@[simp] theorem Slot.setPfx_lc (t : Slot) (w : Option (BitVec 12)) : (t.setPfx w).lc = t.lc := by cases w <;> rfl
@[simp] theorem Slot.setPfx_ls (t : Slot) (w : Option (BitVec 12)) : (t.setPfx w).ls = t.ls := by cases w <;> rfl
@[simp] theorem Slot.setPfx_le (t : Slot) (w : Option (BitVec 12)) : (t.setPfx w).le = t.le := by cases w <;> rfl
@[simp] theorem Slot.setPfx_wdc (t : Slot) (w : Option (BitVec 12)) : (t.setPfx w).wdc = t.wdc := by cases w <;> rfl
@[simp] theorem Slot.setPfx_hlc (t : Slot) (w : Option (BitVec 12)) : (t.setPfx w).hlc = t.hlc := by cases w <;> rfl
@[simp] theorem Slot.setPfx_hrc (t : Slot) (w : Option (BitVec 12)) : (t.setPfx w).hrc = t.hrc := by cases w <;> rfl
@[simp] theorem Slot.setPfx_warned (t : Slot) (w : Option (BitVec 12)) : (t.setPfx w).warned = t.warned := by cases w <;> rfl
@[simp] theorem Slot.setPfx_epoch (t : Slot) (w : Option (BitVec 12)) : (t.setPfx w).epoch = t.epoch := by cases w <;> rfl
@[simp] theorem Slot.setPfx_frames (t : Slot) (w : Option (BitVec 12)) : (t.setPfx w).frames = t.frames := by cases w <;> rfl
@[simp] theorem Slot.setPfx_ahead (t : Slot) (w : Option (BitVec 12)) : (t.setPfx w).ahead = t.ahead := by cases w <;> rfl
@[simp] theorem Slot.setPfx_account (t : Slot) (w : Option (BitVec 12)) : (t.setPfx w).account = t.account := by cases w <;> rfl
@[simp] theorem Slot.setPfx_counted (t : Slot) (w : Option (BitVec 12)) : (t.setPfx w).counted = t.counted := by cases w <;> rfl
@[simp] theorem Slot.setPfx_upcall (t : Slot) (w : Option (BitVec 12)) : (t.setPfx w).upcall = t.upcall := by cases w <;> rfl
@[simp] theorem Slot.setPfx_gang (t : Slot) (w : Option (BitVec 12)) : (t.setPfx w).gang = t.gang := by cases w <;> rfl
@[simp] theorem Slot.setPfx_entryTask (t : Slot) (w : Option (BitVec 12)) : (t.setPfx w).entryTask = t.entryTask := by cases w <;> rfl
@[simp] theorem Slot.setPfx_unwound (t : Slot) (w : Option (BitVec 12)) : (t.setPfx w).unwound = t.unwound := by cases w <;> rfl
@[simp] theorem Slot.setLoop_st (t : Slot) (l : Nat) (b : Bool) : (t.setLoop l b).st = t.st := rfl
@[simp] theorem Slot.setLoop_gen (t : Slot) (l : Nat) (b : Bool) : (t.setLoop l b).gen = t.gen := rfl
@[simp] theorem Slot.setLoop_pc (t : Slot) (l : Nat) (b : Bool) : (t.setLoop l b).pc = t.pc := rfl
@[simp] theorem Slot.setLoop_x (t : Slot) (l : Nat) (b : Bool) : (t.setLoop l b).x = t.x := rfl
@[simp] theorem Slot.setLoop_v (t : Slot) (l : Nat) (b : Bool) : (t.setLoop l b).v = t.v := rfl
@[simp] theorem Slot.setLoop_p (t : Slot) (l : Nat) (b : Bool) : (t.setLoop l b).p = t.p := rfl
@[simp] theorem Slot.setLoop_q (t : Slot) (l : Nat) (b : Bool) : (t.setLoop l b).q = t.q := rfl
@[simp] theorem Slot.setLoop_wid (t : Slot) (l : Nat) (b : Bool) : (t.setLoop l b).wid = t.wid := rfl
@[simp] theorem Slot.setLoop_lease (t : Slot) (l : Nat) (b : Bool) : (t.setLoop l b).lease = t.lease := rfl
@[simp] theorem Slot.setLoop_tag (t : Slot) (l : Nat) (b : Bool) : (t.setLoop l b).tag = t.tag := rfl
@[simp] theorem Slot.setLoop_part (t : Slot) (l : Nat) (b : Bool) : (t.setLoop l b).part = t.part := rfl
@[simp] theorem Slot.setLoop_ff (t : Slot) (l : Nat) (b : Bool) : (t.setLoop l b).ff = t.ff := rfl
@[simp] theorem Slot.setLoop_phase (t : Slot) (l : Nat) (b : Bool) : (t.setLoop l b).phase = t.phase := rfl
@[simp] theorem Slot.setLoop_dom (t : Slot) (l : Nat) (b : Bool) : (t.setLoop l b).dom = t.dom := rfl
@[simp] theorem Slot.setLoop_ctype (t : Slot) (l : Nat) (b : Bool) : (t.setLoop l b).ctype = t.ctype := rfl
@[simp] theorem Slot.setLoop_bexp (t : Slot) (l : Nat) (b : Bool) : (t.setLoop l b).bexp = t.bexp := rfl
@[simp] theorem Slot.setLoop_lc (t : Slot) (l : Nat) (b : Bool) : (t.setLoop l b).lc = t.lc := rfl
@[simp] theorem Slot.setLoop_ls (t : Slot) (l : Nat) (b : Bool) : (t.setLoop l b).ls = t.ls := rfl
@[simp] theorem Slot.setLoop_le (t : Slot) (l : Nat) (b : Bool) : (t.setLoop l b).le = t.le := rfl
@[simp] theorem Slot.setLoop_wdc (t : Slot) (l : Nat) (b : Bool) : (t.setLoop l b).wdc = t.wdc := rfl
@[simp] theorem Slot.setLoop_hlc (t : Slot) (l : Nat) (b : Bool) : (t.setLoop l b).hlc = t.hlc := rfl
@[simp] theorem Slot.setLoop_hrc (t : Slot) (l : Nat) (b : Bool) : (t.setLoop l b).hrc = t.hrc := rfl
@[simp] theorem Slot.setLoop_warned (t : Slot) (l : Nat) (b : Bool) : (t.setLoop l b).warned = t.warned := rfl
@[simp] theorem Slot.setLoop_epoch (t : Slot) (l : Nat) (b : Bool) : (t.setLoop l b).epoch = t.epoch := rfl
@[simp] theorem Slot.setLoop_frames (t : Slot) (l : Nat) (b : Bool) : (t.setLoop l b).frames = t.frames := rfl
@[simp] theorem Slot.setLoop_ahead (t : Slot) (l : Nat) (b : Bool) : (t.setLoop l b).ahead = t.ahead := rfl
@[simp] theorem Slot.setLoop_account (t : Slot) (l : Nat) (b : Bool) : (t.setLoop l b).account = t.account := rfl
@[simp] theorem Slot.setLoop_counted (t : Slot) (l : Nat) (b : Bool) : (t.setLoop l b).counted = t.counted := rfl
@[simp] theorem Slot.setLoop_upcall (t : Slot) (l : Nat) (b : Bool) : (t.setLoop l b).upcall = t.upcall := rfl
@[simp] theorem Slot.setLoop_gang (t : Slot) (l : Nat) (b : Bool) : (t.setLoop l b).gang = t.gang := rfl
@[simp] theorem Slot.setLoop_entryTask (t : Slot) (l : Nat) (b : Bool) : (t.setLoop l b).entryTask = t.entryTask := rfl
@[simp] theorem Slot.setLoop_unwound (t : Slot) (l : Nat) (b : Bool) : (t.setLoop l b).unwound = t.unwound := rfl
@[simp] theorem Slot.setLc_st (t : Slot) (l : Nat) (v : Word) : (t.setLc l v).st = t.st := rfl
@[simp] theorem Slot.setLc_gen (t : Slot) (l : Nat) (v : Word) : (t.setLc l v).gen = t.gen := rfl
@[simp] theorem Slot.setLc_pc (t : Slot) (l : Nat) (v : Word) : (t.setLc l v).pc = t.pc := rfl
@[simp] theorem Slot.setLc_x (t : Slot) (l : Nat) (v : Word) : (t.setLc l v).x = t.x := rfl
@[simp] theorem Slot.setLc_v (t : Slot) (l : Nat) (v : Word) : (t.setLc l v).v = t.v := rfl
@[simp] theorem Slot.setLc_p (t : Slot) (l : Nat) (v : Word) : (t.setLc l v).p = t.p := rfl
@[simp] theorem Slot.setLc_q (t : Slot) (l : Nat) (v : Word) : (t.setLc l v).q = t.q := rfl
@[simp] theorem Slot.setLc_wid (t : Slot) (l : Nat) (v : Word) : (t.setLc l v).wid = t.wid := rfl
@[simp] theorem Slot.setLc_lease (t : Slot) (l : Nat) (v : Word) : (t.setLc l v).lease = t.lease := rfl
@[simp] theorem Slot.setLc_tag (t : Slot) (l : Nat) (v : Word) : (t.setLc l v).tag = t.tag := rfl
@[simp] theorem Slot.setLc_part (t : Slot) (l : Nat) (v : Word) : (t.setLc l v).part = t.part := rfl
@[simp] theorem Slot.setLc_ss (t : Slot) (l : Nat) (v : Word) : (t.setLc l v).ss = t.ss := rfl
@[simp] theorem Slot.setLc_ff (t : Slot) (l : Nat) (v : Word) : (t.setLc l v).ff = t.ff := rfl
@[simp] theorem Slot.setLc_phase (t : Slot) (l : Nat) (v : Word) : (t.setLc l v).phase = t.phase := rfl
@[simp] theorem Slot.setLc_dom (t : Slot) (l : Nat) (v : Word) : (t.setLc l v).dom = t.dom := rfl
@[simp] theorem Slot.setLc_ctype (t : Slot) (l : Nat) (v : Word) : (t.setLc l v).ctype = t.ctype := rfl
@[simp] theorem Slot.setLc_bexp (t : Slot) (l : Nat) (v : Word) : (t.setLc l v).bexp = t.bexp := rfl
@[simp] theorem Slot.setLc_ls (t : Slot) (l : Nat) (v : Word) : (t.setLc l v).ls = t.ls := rfl
@[simp] theorem Slot.setLc_le (t : Slot) (l : Nat) (v : Word) : (t.setLc l v).le = t.le := rfl
@[simp] theorem Slot.setLc_wdc (t : Slot) (l : Nat) (v : Word) : (t.setLc l v).wdc = t.wdc := rfl
@[simp] theorem Slot.setLc_hlc (t : Slot) (l : Nat) (v : Word) : (t.setLc l v).hlc = t.hlc := rfl
@[simp] theorem Slot.setLc_hrc (t : Slot) (l : Nat) (v : Word) : (t.setLc l v).hrc = t.hrc := rfl
@[simp] theorem Slot.setLc_warned (t : Slot) (l : Nat) (v : Word) : (t.setLc l v).warned = t.warned := rfl
@[simp] theorem Slot.setLc_epoch (t : Slot) (l : Nat) (v : Word) : (t.setLc l v).epoch = t.epoch := rfl
@[simp] theorem Slot.setLc_frames (t : Slot) (l : Nat) (v : Word) : (t.setLc l v).frames = t.frames := rfl
@[simp] theorem Slot.setLc_ahead (t : Slot) (l : Nat) (v : Word) : (t.setLc l v).ahead = t.ahead := rfl
@[simp] theorem Slot.setLc_account (t : Slot) (l : Nat) (v : Word) : (t.setLc l v).account = t.account := rfl
@[simp] theorem Slot.setLc_counted (t : Slot) (l : Nat) (v : Word) : (t.setLc l v).counted = t.counted := rfl
@[simp] theorem Slot.setLc_upcall (t : Slot) (l : Nat) (v : Word) : (t.setLc l v).upcall = t.upcall := rfl
@[simp] theorem Slot.setLc_gang (t : Slot) (l : Nat) (v : Word) : (t.setLc l v).gang = t.gang := rfl
@[simp] theorem Slot.setLc_entryTask (t : Slot) (l : Nat) (v : Word) : (t.setLc l v).entryTask = t.entryTask := rfl
@[simp] theorem Slot.setLc_unwound (t : Slot) (l : Nat) (v : Word) : (t.setLc l v).unwound = t.unwound := rfl
@[simp] theorem Slot.setLs_st (t : Slot) (l : Nat) (v : BitVec 48) : (t.setLs l v).st = t.st := rfl
@[simp] theorem Slot.setLs_gen (t : Slot) (l : Nat) (v : BitVec 48) : (t.setLs l v).gen = t.gen := rfl
@[simp] theorem Slot.setLs_pc (t : Slot) (l : Nat) (v : BitVec 48) : (t.setLs l v).pc = t.pc := rfl
@[simp] theorem Slot.setLs_x (t : Slot) (l : Nat) (v : BitVec 48) : (t.setLs l v).x = t.x := rfl
@[simp] theorem Slot.setLs_v (t : Slot) (l : Nat) (v : BitVec 48) : (t.setLs l v).v = t.v := rfl
@[simp] theorem Slot.setLs_p (t : Slot) (l : Nat) (v : BitVec 48) : (t.setLs l v).p = t.p := rfl
@[simp] theorem Slot.setLs_q (t : Slot) (l : Nat) (v : BitVec 48) : (t.setLs l v).q = t.q := rfl
@[simp] theorem Slot.setLs_wid (t : Slot) (l : Nat) (v : BitVec 48) : (t.setLs l v).wid = t.wid := rfl
@[simp] theorem Slot.setLs_lease (t : Slot) (l : Nat) (v : BitVec 48) : (t.setLs l v).lease = t.lease := rfl
@[simp] theorem Slot.setLs_tag (t : Slot) (l : Nat) (v : BitVec 48) : (t.setLs l v).tag = t.tag := rfl
@[simp] theorem Slot.setLs_part (t : Slot) (l : Nat) (v : BitVec 48) : (t.setLs l v).part = t.part := rfl
@[simp] theorem Slot.setLs_ss (t : Slot) (l : Nat) (v : BitVec 48) : (t.setLs l v).ss = t.ss := rfl
@[simp] theorem Slot.setLs_ff (t : Slot) (l : Nat) (v : BitVec 48) : (t.setLs l v).ff = t.ff := rfl
@[simp] theorem Slot.setLs_phase (t : Slot) (l : Nat) (v : BitVec 48) : (t.setLs l v).phase = t.phase := rfl
@[simp] theorem Slot.setLs_dom (t : Slot) (l : Nat) (v : BitVec 48) : (t.setLs l v).dom = t.dom := rfl
@[simp] theorem Slot.setLs_ctype (t : Slot) (l : Nat) (v : BitVec 48) : (t.setLs l v).ctype = t.ctype := rfl
@[simp] theorem Slot.setLs_bexp (t : Slot) (l : Nat) (v : BitVec 48) : (t.setLs l v).bexp = t.bexp := rfl
@[simp] theorem Slot.setLs_lc (t : Slot) (l : Nat) (v : BitVec 48) : (t.setLs l v).lc = t.lc := rfl
@[simp] theorem Slot.setLs_le (t : Slot) (l : Nat) (v : BitVec 48) : (t.setLs l v).le = t.le := rfl
@[simp] theorem Slot.setLs_wdc (t : Slot) (l : Nat) (v : BitVec 48) : (t.setLs l v).wdc = t.wdc := rfl
@[simp] theorem Slot.setLs_hlc (t : Slot) (l : Nat) (v : BitVec 48) : (t.setLs l v).hlc = t.hlc := rfl
@[simp] theorem Slot.setLs_hrc (t : Slot) (l : Nat) (v : BitVec 48) : (t.setLs l v).hrc = t.hrc := rfl
@[simp] theorem Slot.setLs_warned (t : Slot) (l : Nat) (v : BitVec 48) : (t.setLs l v).warned = t.warned := rfl
@[simp] theorem Slot.setLs_epoch (t : Slot) (l : Nat) (v : BitVec 48) : (t.setLs l v).epoch = t.epoch := rfl
@[simp] theorem Slot.setLs_frames (t : Slot) (l : Nat) (v : BitVec 48) : (t.setLs l v).frames = t.frames := rfl
@[simp] theorem Slot.setLs_ahead (t : Slot) (l : Nat) (v : BitVec 48) : (t.setLs l v).ahead = t.ahead := rfl
@[simp] theorem Slot.setLs_account (t : Slot) (l : Nat) (v : BitVec 48) : (t.setLs l v).account = t.account := rfl
@[simp] theorem Slot.setLs_counted (t : Slot) (l : Nat) (v : BitVec 48) : (t.setLs l v).counted = t.counted := rfl
@[simp] theorem Slot.setLs_upcall (t : Slot) (l : Nat) (v : BitVec 48) : (t.setLs l v).upcall = t.upcall := rfl
@[simp] theorem Slot.setLs_gang (t : Slot) (l : Nat) (v : BitVec 48) : (t.setLs l v).gang = t.gang := rfl
@[simp] theorem Slot.setLs_entryTask (t : Slot) (l : Nat) (v : BitVec 48) : (t.setLs l v).entryTask = t.entryTask := rfl
@[simp] theorem Slot.setLs_unwound (t : Slot) (l : Nat) (v : BitVec 48) : (t.setLs l v).unwound = t.unwound := rfl
@[simp] theorem Slot.setLe_st (t : Slot) (l : Nat) (v : BitVec 48) : (t.setLe l v).st = t.st := rfl
@[simp] theorem Slot.setLe_gen (t : Slot) (l : Nat) (v : BitVec 48) : (t.setLe l v).gen = t.gen := rfl
@[simp] theorem Slot.setLe_pc (t : Slot) (l : Nat) (v : BitVec 48) : (t.setLe l v).pc = t.pc := rfl
@[simp] theorem Slot.setLe_x (t : Slot) (l : Nat) (v : BitVec 48) : (t.setLe l v).x = t.x := rfl
@[simp] theorem Slot.setLe_v (t : Slot) (l : Nat) (v : BitVec 48) : (t.setLe l v).v = t.v := rfl
@[simp] theorem Slot.setLe_p (t : Slot) (l : Nat) (v : BitVec 48) : (t.setLe l v).p = t.p := rfl
@[simp] theorem Slot.setLe_q (t : Slot) (l : Nat) (v : BitVec 48) : (t.setLe l v).q = t.q := rfl
@[simp] theorem Slot.setLe_wid (t : Slot) (l : Nat) (v : BitVec 48) : (t.setLe l v).wid = t.wid := rfl
@[simp] theorem Slot.setLe_lease (t : Slot) (l : Nat) (v : BitVec 48) : (t.setLe l v).lease = t.lease := rfl
@[simp] theorem Slot.setLe_tag (t : Slot) (l : Nat) (v : BitVec 48) : (t.setLe l v).tag = t.tag := rfl
@[simp] theorem Slot.setLe_part (t : Slot) (l : Nat) (v : BitVec 48) : (t.setLe l v).part = t.part := rfl
@[simp] theorem Slot.setLe_ss (t : Slot) (l : Nat) (v : BitVec 48) : (t.setLe l v).ss = t.ss := rfl
@[simp] theorem Slot.setLe_ff (t : Slot) (l : Nat) (v : BitVec 48) : (t.setLe l v).ff = t.ff := rfl
@[simp] theorem Slot.setLe_phase (t : Slot) (l : Nat) (v : BitVec 48) : (t.setLe l v).phase = t.phase := rfl
@[simp] theorem Slot.setLe_dom (t : Slot) (l : Nat) (v : BitVec 48) : (t.setLe l v).dom = t.dom := rfl
@[simp] theorem Slot.setLe_ctype (t : Slot) (l : Nat) (v : BitVec 48) : (t.setLe l v).ctype = t.ctype := rfl
@[simp] theorem Slot.setLe_bexp (t : Slot) (l : Nat) (v : BitVec 48) : (t.setLe l v).bexp = t.bexp := rfl
@[simp] theorem Slot.setLe_lc (t : Slot) (l : Nat) (v : BitVec 48) : (t.setLe l v).lc = t.lc := rfl
@[simp] theorem Slot.setLe_ls (t : Slot) (l : Nat) (v : BitVec 48) : (t.setLe l v).ls = t.ls := rfl
@[simp] theorem Slot.setLe_wdc (t : Slot) (l : Nat) (v : BitVec 48) : (t.setLe l v).wdc = t.wdc := rfl
@[simp] theorem Slot.setLe_hlc (t : Slot) (l : Nat) (v : BitVec 48) : (t.setLe l v).hlc = t.hlc := rfl
@[simp] theorem Slot.setLe_hrc (t : Slot) (l : Nat) (v : BitVec 48) : (t.setLe l v).hrc = t.hrc := rfl
@[simp] theorem Slot.setLe_warned (t : Slot) (l : Nat) (v : BitVec 48) : (t.setLe l v).warned = t.warned := rfl
@[simp] theorem Slot.setLe_epoch (t : Slot) (l : Nat) (v : BitVec 48) : (t.setLe l v).epoch = t.epoch := rfl
@[simp] theorem Slot.setLe_frames (t : Slot) (l : Nat) (v : BitVec 48) : (t.setLe l v).frames = t.frames := rfl
@[simp] theorem Slot.setLe_ahead (t : Slot) (l : Nat) (v : BitVec 48) : (t.setLe l v).ahead = t.ahead := rfl
@[simp] theorem Slot.setLe_account (t : Slot) (l : Nat) (v : BitVec 48) : (t.setLe l v).account = t.account := rfl
@[simp] theorem Slot.setLe_counted (t : Slot) (l : Nat) (v : BitVec 48) : (t.setLe l v).counted = t.counted := rfl
@[simp] theorem Slot.setLe_upcall (t : Slot) (l : Nat) (v : BitVec 48) : (t.setLe l v).upcall = t.upcall := rfl
@[simp] theorem Slot.setLe_gang (t : Slot) (l : Nat) (v : BitVec 48) : (t.setLe l v).gang = t.gang := rfl
@[simp] theorem Slot.setLe_entryTask (t : Slot) (l : Nat) (v : BitVec 48) : (t.setLe l v).entryTask = t.entryTask := rfl
@[simp] theorem Slot.setLe_unwound (t : Slot) (l : Nat) (v : BitVec 48) : (t.setLe l v).unwound = t.unwound := rfl

/-! ### Registers: a write, then a read -/

@[simp] theorem Slot.getX_zero (t : Slot) : t.getX 0#5 = 0#64 := rfl
@[simp] theorem Slot.setX_zero (t : Slot) (v : Word) : t.setX 0#5 v = t := rfl
theorem Slot.getX_setX (t : Slot) (d r : BitVec 5) (v : Word) : (t.setX d v).getX r = if r = d ∧ d ≠ 0#5 then v else t.getX r := by
  unfold Slot.setX Slot.getX
  by_cases hd : d = 0#5
  · simp [hd]
  · by_cases hr : r = 0#5
    · have : ¬r = d := fun e => hd (e ▸ hr)
      simp [hr, hd]
      intro e; exact absurd e.symm hd
    · by_cases he : r = d
      · simp [hd, he]
      · have hn : r.toNat ≠ d.toNat := fun e => he (BitVec.eq_of_toNat_eq e)
        simp [hr, hd, he, tabGet_tabPut_ne hn]
@[simp] theorem Slot.getV_setV (t : Slot) (r : Nat) (v : VecReg) : (t.setV r v).getV r = v := by simp [Slot.getV, Slot.setV]
theorem Slot.getV_setV_ne (t : Slot) {r n : Nat} (v : VecReg) (h : n ≠ r) : (t.setV r v).getV n = t.getV n := by
  simp [Slot.getV, Slot.setV, tabGet_tabPut_ne h]
theorem Slot.getP_setP (t : Slot) (r n : Nat) (v : BitVec 16) : (t.setP r v).getP n = if n = r ∧ r ≠ 0 then v else t.getP n := by
  unfold Slot.setP Slot.getP
  by_cases hr : r = 0
  · simp [hr]
  · by_cases hn : n = 0
    · have : ¬0 = r := fun e => hr e.symm
      simp [hn, hr, this]
    · by_cases he : n = r
      · simp [hr, he]
      · simp [hr, hn, he, tabGet_tabPut_ne he]
@[simp] theorem Slot.getQ_setQ (t : Slot) (r : Nat) (v : List Word) : (t.setQ r v).getQ r = v := by simp [Slot.getQ, Slot.setQ]
theorem Slot.getQ_setQ_ne (t : Slot) {r n : Nat} (v : List Word) (h : n ≠ r) : (t.setQ r v).getQ n = t.getQ n := by
  simp [Slot.getQ, Slot.setQ, tabGet_tabPut_ne h]

end Sys2Proof.Machine
end

