-- ==== Sys2Proof/Laws/Ops.lean ====
section
/-! SUPPORT. What each shared operation can do: the shell an instruction runs in, completing a word, taking a fault, and writes at a
home; cited instead of unfolding them. -/

set_option Elab.async false

namespace Sys2Proof.Machine

/-! ### Computations -/

section Computations
variable {α β : Type}

@[simp] theorem bindM_apply (x : M α) (f : α → M β) (s : State) : (x >>= f) s = match x s with
    | .ok a s' => f a s'
    | .error e s' => .error e s' := by
  show EStateM.bind x f s = _
  unfold EStateM.bind
  cases x s <;> rfl
@[simp] theorem pureM_apply (a : α) (s : State) : (pure a : M α) s = .ok a s := rfl
@[simp] theorem throwM_apply (e : Stop) (s : State) : (throw e : M α) s = .error e s := rfl
@[simp] theorem curM_apply (s : State) : curM s = .ok s.cur s := rfl
@[simp] theorem getS_apply (s : State) : getS s = .ok s s := rfl
@[simp] theorem modS_apply (f : State → State) (s : State) : modS f s = .ok () (f s) := rfl
@[simp] theorem modCur_apply (f : Slot → Slot) (s : State) : modCur f s = .ok () (s.setCur (f s.cur)) := rfl
@[simp] theorem setXM_apply (d : BitVec 5) (v : Word) (s : State) : setXM d v s = .ok () (s.setCur (s.cur.setX d v)) := rfl
@[simp] theorem faultM_apply (cause : Nat) (a : Option Word) (s : State) :
    (faultM cause a : M α) s = .error (.fault { cause := cause, addr := a }) s := rfl

end Computations

/-! ### The shell -/

theorem State.Plain.isNone {s : State} (h : s.Plain) : s.cur.pfx.isSome = false := by
  have : s.cur.pfx = none := h
  simp [this]

/-- With no prefix pending an instruction runs its body (R34). -/
theorem runSlot_plain {s : State} (h : s.Plain) (body : M Flow) : runSlot body s = .next (finishM s.core s.slot (body s)) := by
  simp [runSlot, h.isNone]

/-- A pending prefix makes an instruction that takes none illegal (R34). -/
theorem runSlot_prefixed {s : State} {w : BitVec 12} (h : s.cur.pfx = some w) (body : M Flow) :
    runSlot body s = .next (s.stopped s.core s.slot .illop) := by
  simp [runSlot, h]

theorem runFmt_plain {s : State} (h : s.Plain) (ok : BitVec 12 → Bool) (body : M Flow) :
    runFmt ok body s = .next (finishM s.core s.slot (body s)) := by
  have : s.cur.pfx = none := h
  simp [runFmt, this]

theorem runFmt_taken {s : State} {w : BitVec 12} (h : s.cur.pfx = some w) {ok : BitVec 12 → Bool} (hw : ok w = true) (body : M Flow) :
    runFmt ok body s = .next (finishM s.core s.slot (body s)) := by
  simp [runFmt, h, hw]

theorem runFmt_refused {s : State} {w : BitVec 12} (h : s.cur.pfx = some w) {ok : BitVec 12 → Bool} (hw : ok w = false) (body : M Flow) :
    runFmt ok body s = .next (s.stopped s.core s.slot .illop) := by
  simp [runFmt, h, hw]

/-- Every instruction of a slot answers a next state. -/
theorem runSlot_next (body : M Flow) (s : State) : ∃ t, runSlot body s = .next t := by
  unfold runSlot
  split <;> exact ⟨_, rfl⟩

@[simp] theorem finishM_ok (c k : Nat) (f : Flow) (s : State) : finishM c k (.ok f s) = s.completed c k f := rfl
@[simp] theorem finishM_error (c k : Nat) (e : Stop) (s : State) : finishM c k (.error e s) = s.stopped c k e := rfl

@[simp] theorem State.setCur_setCur (s : State) (t u : Slot) : (s.setCur t).setCur u = s.setCur u := by
  simp only [State.setCur, State.setSlot_core, State.setSlot_slot, State.setSlot_setSlot]

/-- A register-only instruction is what it makes of its slot, the word completed. -/
theorem runSlot_slotOp {s : State} (h : s.Plain) (f : Slot → Slot) :
    runSlot (slotOp f) s = .next (s.setCur ((f s.cur).complete .seq)) := by
  rw [runSlot_plain h]
  simp only [slotOp, finishM_ok, State.completed, State.setCur, State.slotAt_setSlot, State.setSlot_setSlot]

/-! ### A completed word -/

theorem endLevel_x (t : Slot) (l : Nat) (w : BitVec 48) : (endLevel t l w).1.x = t.x := by
  unfold endLevel
  split
  · split
    · simp only [Slot.setLc]
    · simp only [Slot.setLc, Slot.setLoop]
  · rfl

theorem endCheck_x (t : Slot) (w : BitVec 48) : (endCheck t w).x = t.x := by
  unfold endCheck
  have h1 := endLevel_x t 1 w
  generalize endLevel t 1 w = r at h1 ⊢
  obtain ⟨u, b⟩ := r
  cases b
  · exact (endLevel_x u 0 w).trans h1
  · exact h1

/-- Completing a word changes no x register (R109). -/
theorem Slot.complete_x (t : Slot) : (t.complete .seq).x = t.x := by
  simp only [Slot.complete, endCheck_x]
  rfl

/-! ### Events -/

theorem foldl_mem {α : Type} (f : State → α → State) (h : ∀ s a, (f s a).mem = s.mem) (l : List α) (s : State) : (l.foldl f s).mem = s.mem := by
  induction l generalizing s with
  | nil => rfl
  | cons a l ih => simp only [List.foldl_cons, ih, h]

@[simp] theorem State.setLease_memory (s : State) (l : Nat) (v : Lease) : (s.setLease l v).mem = s.mem := rfl
@[simp] theorem State.countLease_mem (s : State) (l : Nat) (f : Lease → Lease) : (s.countLease l f).mem = s.mem := by
  unfold State.countLease
  split <;> rfl

@[simp] theorem State.notifyLease_mem (s : State) (l c : Nat) (args : List Word) : (s.notifyLease l c args).mem = s.mem := by
  unfold State.notifyLease
  split <;> try rfl
  split <;> rfl

@[simp] theorem State.raiseEvent_mem (s : State) (l c : Nat) (args : List Word) (tag : Nat) : (s.raiseEvent l c args tag).mem = s.mem := by
  unfold State.raiseEvent
  split
  · rfl
  · simp only
    repeat' split
    all_goals simp only [State.countLease_mem, State.setCore_mem, State.notifyLease_mem]

@[simp] theorem State.leaseEvent_mem (s : State) (l : Nat) (args : List Word) (tag : Nat) : (s.leaseEvent l args tag).mem = s.mem := by
  unfold State.leaseEvent
  split <;> simp only [State.raiseEvent_mem, State.countLease_mem, State.notifyLease_mem]

@[simp] theorem State.ownerEvent_mem (s : State) (e : LogEntry) : (s.ownerEvent e).mem = s.mem := by
  unfold State.ownerEvent
  simp only
  split <;> rfl

@[simp] theorem State.poisoned_mem (s : State) (lease : Nat) : (s.poisoned lease).mem = s.mem := State.ownerEvent_mem s _
@[simp] theorem State.consumed_mem (s : State) (ls : List Nat) : (s.consumed ls).mem = s.mem := foldl_mem _ State.poisoned_mem ls s

/-! ### Writes at a home -/

@[simp] theorem State.wakeLine_mem (s : State) (pa : Nat) : (s.wakeLine pa).mem = s.mem := by
  unfold State.wakeLine
  simp only
  split
  · simp only [State.consumed_mem, State.setHome_mem]
  · rfl

@[simp] theorem State.wakeRange_mem (s : State) (pa n : Nat) : (s.wakeRange pa n).mem = s.mem :=
  foldl_mem _ (fun s _ => State.wakeLine_mem s _) _ s

/-- What a home cache holds is no part of memory (R11). -/
@[simp] theorem State.homeTouch_mem (s : State) (pa : Nat) (dirty : Bool) : (s.homeTouch pa dirty).mem = s.mem := by
  unfold State.homeTouch
  split
  · rfl
  · simp only
    split
    · rfl
    · split <;> rfl

@[simp] theorem State.touchRange_mem (s : State) (pa n : Nat) (dirty : Bool) : (s.touchRange pa n dirty).mem = s.mem :=
  foldl_mem _ (fun s _ => State.homeTouch_mem s _ _) _ s

@[simp] theorem State.homeStore_mem (s : State) (pa : Nat) (bs : List Byte) : (s.homeStore pa bs).mem = memPutBytes s.mem pa bs := by
  simp only [State.homeStore, State.wakeRange_mem]

/-- What a write at a home makes of memory (R282). -/
@[simp] theorem State.homeWrite_mem (s : State) (pa : Nat) (bs : List Byte) : (s.homeWrite pa bs).mem = memPutBytes s.mem pa bs := by
  simp only [State.homeWrite, State.homeStore_mem, State.touchRange_mem]

@[simp] theorem State.poisonLine_mem (s : State) (pa : Nat) : (s.poisonLine pa).mem = s.mem := by
  unfold State.poisonLine
  split <;> rfl

/-- Where no LDF waits for a word, its change of state answers nothing (R148). -/
theorem State.answerLdfs_none {s : State} {pa : Nat} (h : ∀ w ∈ (s.homeAt (homeOf pa)).waits, ¬ (w.isLdf = true ∧ w.pa / 8 = pa / 8)) :
    s.answerLdfs pa = s := by
  unfold State.answerLdfs
  have : ((s.homeAt (homeOf pa)).waits.any fun w => w.isLdf && w.pa / 8 == pa / 8) = false := by
    simpa using fun w hw hl he => h w hw ⟨hl, he⟩
  simp only [this]
  split <;> rfl

/-- A word that is EMPTY answers no LDF. -/
theorem State.answerLdfs_empty {s : State} {pa : Nat} (h : s.feOf pa = 0) : s.answerLdfs pa = s := by
  simp only [State.answerLdfs, h, if_true]

/-- One word of a SETE leaves its data unchanged (R150). -/
@[simp] theorem State.homeSete_mem (s : State) (pa : Nat) : (s.homeSete pa).mem = s.mem := by
  have h : ({ s with fe := tabPut s.fe (pa / 8) 0 } : State).feOf pa = 0 := by simp [State.feOf]
  simp only [State.homeSete, State.wakeLine_mem, State.setFe, show (0 = 1) = False from by simp, if_false, State.answerLdfs_empty h]

theorem State.homeWrite_wf {s : State} (h : memWf s.mem = true) (pa : Nat) (bs : List Byte) : memWf (s.homeWrite pa bs).mem = true := by
  simpa using memWf_memPutBytes h _ _

theorem foldl_wf {α : Type} (f : State → α → State) (h : ∀ s a, memWf s.mem = true → memWf (f s a).mem = true) (l : List α) (s : State)
    (hs : memWf s.mem = true) : memWf (l.foldl f s).mem = true := by
  induction l generalizing s with
  | nil => exact hs
  | cons a l ih => exact ih _ (h s a hs)

/-- A WRITEBACK keeps the canonical form of memory. -/
theorem State.writebackLine_wf {s : State} (h : memWf s.mem = true) (die lease ln : Nat) : memWf (s.writebackLine die lease ln).mem = true := by
  unfold State.writebackLine
  split
  · exact h
  · rename_i l _
    have hm : memWf (s.mapLine die lease ln fun l => { l with dirty := 0 }).mem = true := h
    simp only
    split
    · exact State.homeWrite_wf hm _ _
    · refine foldl_wf _ (fun u i hu => ?_) _ _ ?_
      · split
        · exact State.homeWrite_wf hu _ _
        · exact hu
      · split
        · simpa using hm
        · exact hm

theorem State.writebackAll_wf {s : State} (h : memWf s.mem = true) (die : Nat) : memWf (s.writebackAll die).mem = true :=
  foldl_wf _ (fun _ _ hu => State.writebackLine_wf hu _ _ _) _ _ h

@[simp] theorem State.evictLine_mem (s : State) (die lease ln : Nat) : (s.evictLine die lease ln).mem = s.mem := rfl

/-- What an access at a home does first keeps the canonical form of memory (R287). -/
theorem State.homeFlush_wf {s : State} (h : memWf s.mem = true) (who : Asker) (dva : Nat) : memWf (s.homeFlush who dva).mem = true := by
  unfold State.homeFlush State.flushLine
  split
  · split
    · split
      · exact State.writebackLine_wf h _ _ _
      · exact h
    · exact h
  · exact h

/-- The answer to an LDF that waited keeps the canonical form of memory (R292). -/
theorem State.answerLdf_wf {s : State} (h : memWf s.mem = true) (w : WaitEntry) : memWf (s.answerLdf w).mem = true := by
  unfold State.answerLdf
  have hf := State.homeFlush_wf h w.asker w.dva
  simp only
  split
  · simpa using hf
  · exact hf

theorem State.answerLdfs_wf {s : State} (h : memWf s.mem = true) (pa : Nat) : memWf (s.answerLdfs pa).mem = true := by
  unfold State.answerLdfs
  simp only
  split
  · exact h
  · split
    · exact foldl_wf _ (fun _ w hu => State.answerLdf_wf hu w) _ _ h
    · exact h

theorem State.setFe_wf {s : State} (h : memWf s.mem = true) (pa v : Nat) : memWf (s.setFe pa v).mem = true :=
  State.answerLdfs_wf (s := { s with fe := if v = 1 then tabDel s.fe (pa / 8) else tabPut s.fe (pa / 8) v }) h pa

/-- A line given up for room is written back, and memory keeps its canonical form (R301). -/
theorem State.makeRoom_wf {s : State} (h : memWf s.mem = true) (die : Nat) (remote : Bool) : memWf (s.makeRoom die remote).mem = true := by
  unfold State.makeRoom
  generalize (if remote then Config.rdcLines else Config.dieCacheLines) = cap
  simp only
  split
  · exact h
  · split
    · exact State.writebackLine_wf (s := { s with free := s.free + 1 }) h _ _ _
    · exact h

/-! ### Taking a fault -/

@[simp] theorem State.giveUp_mem (s : State) (c k : Nat) : (s.giveUp c k).mem = s.mem := rfl
@[simp] theorem State.park_mem (s : State) (c k : Nat) (p : Park) : (s.park c k p).mem = s.mem := rfl
@[simp] theorem State.stallClk_mem (s : State) (c : Nat) : (s.stallClk c).mem = s.mem := rfl
@[simp] theorem State.upcall_mem (s : State) (c k : Nat) (f : FaultInfo) (pc x15 : Word) (p : Park) : (s.upcall c k f pc x15 p).mem = s.mem := rfl

/-- Giving up the issue place moves no slot (R100). -/
@[simp] theorem Core.giveUp_slots (c : Core) (k : Nat) : (c.giveUp k).slots = c.slots := by
  unfold Core.giveUp
  simp only
  split <;> rfl
@[simp] theorem State.giveUp_slot (s : State) (c k n : Nat) : (s.giveUp c k).slotAt c n = s.slotAt c n := by
  simp [State.slotAt, State.giveUp, Core.slotAt]

/-- A stalled clk leaves every slot as it was (R98). -/
@[simp] theorem State.stallClk_slot (s : State) (c n : Nat) : (s.stallClk c).slotAt c n = s.slotAt c n := by
  simp [State.slotAt, State.stallClk, Core.slotAt]

/-- Parking leaves the slot as it was but for its state, its place in its level given up. -/
theorem State.park_slot (s : State) (c k : Nat) (p : Park) : (s.park c k p).slotAt c k = { s.slotAt c k with st := .parked p } := by
  simp only [State.park, State.slotAt_setSlot, State.giveUp_slot]

/-- Blocking leaves the slot as it was but for its state, its place in its level given up (R98, R100). -/
theorem State.block_slot (s : State) (c k : Nat) (w : Wait) : (s.stopped c k (.block w)).slotAt c k = { s.slotAt c k with st := .blocked w } := by
  simp only [State.stopped, State.slotAt_setSlot, State.giveUp_slot]

end Sys2Proof.Machine
end

