-- ==== Sys2Proof/Laws/Word.lean ====
section
/-! SUPPORT. The bits and the fields of a word put together from its fields (R19). -/

namespace Sys2Proof.Laws

variable (f7 : BitVec 7) (b a : BitVec 5) (f3 : BitVec 3) (d : BitVec 5) (op : BitVec 7)

/-- The bits of a word of the R layout. -/
theorem rWord_getLsbD (i : Nat) : (rWord f7 b a f3 d op).getLsbD i =
    if i < 7 then op.getLsbD i else if i - 7 < 5 then d.getLsbD (i - 7) else if i - 7 - 5 < 3 then f3.getLsbD (i - 7 - 5)
    else if i - 7 - 5 - 3 < 5 then a.getLsbD (i - 7 - 5 - 3) else if i - 7 - 5 - 3 - 5 < 5 then b.getLsbD (i - 7 - 5 - 3 - 5)
    else f7.getLsbD (i - 7 - 5 - 3 - 5 - 5) := by
  change (f7 ++ b ++ a ++ f3 ++ d ++ op : BitVec (7 + 5 + 5 + 3 + 5 + 7)).getLsbD i = _
  simp only [BitVec.getLsbD_append]

@[simp] theorem fieldOp_rWord : fieldOp (rWord f7 b a f3 d op) = op := by
  ext i hi
  simp only [fieldOp, BitVec.getElem_extractLsb', rWord_getLsbD, Nat.zero_add, hi, if_true]
  exact BitVec.getLsbD_eq_getElem hi

@[simp] theorem fieldD_rWord : fieldD (rWord f7 b a f3 d op) = d := by
  ext i hi
  have h1 : ¬7 + i < 7 := by omega
  have h2 : 7 + i - 7 = i := by omega
  simp only [fieldD, BitVec.getElem_extractLsb', rWord_getLsbD, h1, h2, hi, if_true, if_false]
  exact BitVec.getLsbD_eq_getElem hi

@[simp] theorem fieldF3_rWord : fieldF3 (rWord f7 b a f3 d op) = f3 := by
  ext i hi
  have h1 : ¬12 + i < 7 := by omega
  have h2 : ¬12 + i - 7 < 5 := by omega
  have h3 : 12 + i - 7 - 5 = i := by omega
  simp only [fieldF3, BitVec.getElem_extractLsb', rWord_getLsbD, h1, h2, h3, hi, if_true, if_false]
  exact BitVec.getLsbD_eq_getElem hi

@[simp] theorem fieldA_rWord : fieldA (rWord f7 b a f3 d op) = a := by
  ext i hi
  have h1 : ¬15 + i < 7 := by omega
  have h2 : ¬15 + i - 7 < 5 := by omega
  have h3 : ¬15 + i - 7 - 5 < 3 := by omega
  have h4 : 15 + i - 7 - 5 - 3 = i := by omega
  simp only [fieldA, BitVec.getElem_extractLsb', rWord_getLsbD, h1, h2, h3, h4, hi, if_true, if_false]
  exact BitVec.getLsbD_eq_getElem hi

@[simp] theorem fieldB_rWord : fieldB (rWord f7 b a f3 d op) = b := by
  ext i hi
  have h1 : ¬20 + i < 7 := by omega
  have h2 : ¬20 + i - 7 < 5 := by omega
  have h3 : ¬20 + i - 7 - 5 < 3 := by omega
  have h4 : ¬20 + i - 7 - 5 - 3 < 5 := by omega
  have h5 : 20 + i - 7 - 5 - 3 - 5 = i := by omega
  simp only [fieldB, BitVec.getElem_extractLsb', rWord_getLsbD, h1, h2, h3, h4, h5, hi, if_true, if_false]
  exact BitVec.getLsbD_eq_getElem hi

@[simp] theorem fieldF7_rWord : fieldF7 (rWord f7 b a f3 d op) = f7 := by
  ext i hi
  have h1 : ¬25 + i < 7 := by omega
  have h2 : ¬25 + i - 7 < 5 := by omega
  have h3 : ¬25 + i - 7 - 5 < 3 := by omega
  have h4 : ¬25 + i - 7 - 5 - 3 < 5 := by omega
  have h5 : ¬25 + i - 7 - 5 - 3 - 5 < 5 := by omega
  have h6 : 25 + i - 7 - 5 - 3 - 5 - 5 = i := by omega
  simp only [fieldF7, BitVec.getElem_extractLsb', rWord_getLsbD, h1, h2, h3, h4, h5, h6, if_false]
  exact BitVec.getLsbD_eq_getElem hi

/-! ### Fields made of two or three parts -/

@[simp] theorem high4_3 (x : BitVec 4) (y : BitVec 3) : (x ++ y : BitVec 7).extractLsb' 3 4 = x :=
  BitVec.extractLsb'_append_eq_left
@[simp] theorem low4_3 (x : BitVec 4) (y : BitVec 3) : (x ++ y : BitVec 7).extractLsb' 0 3 = y :=
  BitVec.extractLsb'_append_eq_right
@[simp] theorem high2_3 (x : BitVec 2) (y : BitVec 3) : (x ++ y : BitVec 5).extractLsb' 3 2 = x :=
  BitVec.extractLsb'_append_eq_left
@[simp] theorem low2_3 (x : BitVec 2) (y : BitVec 3) : (x ++ y : BitVec 5).extractLsb' 0 3 = y :=
  BitVec.extractLsb'_append_eq_right
@[simp] theorem high6_1 (x : BitVec 6) (y : BitVec 1) : (x ++ y : BitVec 7).extractLsb' 1 6 = x :=
  BitVec.extractLsb'_append_eq_left
@[simp] theorem low6_1 (x : BitVec 6) (y : BitVec 1) : (x ++ y : BitVec 7).extractLsb' 0 1 = y :=
  BitVec.extractLsb'_append_eq_right
@[simp] theorem high1_4 (x : BitVec 1) (y : BitVec 4) : (x ++ y : BitVec 5).extractLsb' 4 1 = x :=
  BitVec.extractLsb'_append_eq_left
@[simp] theorem low1_4 (x : BitVec 1) (y : BitVec 4) : (x ++ y : BitVec 5).extractLsb' 0 4 = y :=
  BitVec.extractLsb'_append_eq_right
@[simp] theorem high5_2 (x : BitVec 5) (y : BitVec 2) : (x ++ y : BitVec 7).extractLsb' 2 5 = x :=
  BitVec.extractLsb'_append_eq_left
@[simp] theorem low5_2 (x : BitVec 5) (y : BitVec 2) : (x ++ y : BitVec 7).extractLsb' 0 2 = y :=
  BitVec.extractLsb'_append_eq_right
@[simp] theorem high4_1 (x : BitVec 4) (y : BitVec 1) : (x ++ y : BitVec 5).extractLsb' 1 4 = x :=
  BitVec.extractLsb'_append_eq_left
@[simp] theorem low4_1 (x : BitVec 4) (y : BitVec 1) : (x ++ y : BitVec 5).extractLsb' 0 1 = y :=
  BitVec.extractLsb'_append_eq_right
@[simp] theorem high1_6 (x : BitVec 1) (y : BitVec 6) : (x ++ y : BitVec 7).extractLsb' 6 1 = x :=
  BitVec.extractLsb'_append_eq_left
@[simp] theorem low1_6 (x : BitVec 1) (y : BitVec 6) : (x ++ y : BitVec 7).extractLsb' 0 6 = y :=
  BitVec.extractLsb'_append_eq_right
@[simp] theorem high4_1_2 (x : BitVec 4) (y : BitVec 1) (z : BitVec 2) : (x ++ y ++ z : BitVec 7).extractLsb' 3 4 = x := by
  have h := BitVec.extractLsb'_append_eq_of_le (xhi := x ++ y) (xlo := z) (start := 3) (len := 4) (by omega)
  exact h.trans BitVec.extractLsb'_append_eq_left
@[simp] theorem mid4_1_2 (x : BitVec 4) (y : BitVec 1) (z : BitVec 2) : (x ++ y ++ z : BitVec 7).extractLsb' 2 1 = y := by
  have h := BitVec.extractLsb'_append_eq_of_le (xhi := x ++ y) (xlo := z) (start := 2) (len := 1) (by omega)
  exact h.trans BitVec.extractLsb'_append_eq_right
@[simp] theorem low4_1_2 (x : BitVec 4) (y : BitVec 1) (z : BitVec 2) : (x ++ y ++ z : BitVec 7).extractLsb' 0 2 = z :=
  BitVec.extractLsb'_append_eq_right
@[simp] theorem high2_3_2 (x : BitVec 2) (y : BitVec 3) (z : BitVec 2) : (x ++ y ++ z : BitVec 7).extractLsb' 5 2 = x := by
  have h := BitVec.extractLsb'_append_eq_of_le (xhi := x ++ y) (xlo := z) (start := 5) (len := 2) (by omega)
  exact h.trans BitVec.extractLsb'_append_eq_left
@[simp] theorem mid2_3_2 (x : BitVec 2) (y : BitVec 3) (z : BitVec 2) : (x ++ y ++ z : BitVec 7).extractLsb' 2 3 = y := by
  have h := BitVec.extractLsb'_append_eq_of_le (xhi := x ++ y) (xlo := z) (start := 2) (len := 3) (by omega)
  exact h.trans BitVec.extractLsb'_append_eq_right
@[simp] theorem low2_3_2 (x : BitVec 2) (y : BitVec 3) (z : BitVec 2) : (x ++ y ++ z : BitVec 7).extractLsb' 0 2 = z :=
  BitVec.extractLsb'_append_eq_right

/-! ### Fields joined again -/

theorem join2 {w : Nat} (x : BitVec w) (i m n : Nat) :
    (x.extractLsb' (i + n) m ++ x.extractLsb' i n) = x.extractLsb' i (m + n) :=
  BitVec.extractLsb'_append_extractLsb'_eq_extractLsb' rfl

@[simp] theorem join12 (c : BitVec 12) : (c.extractLsb' 5 7 ++ c.extractLsb' 0 5 : BitVec 12) = c :=
  (join2 c 0 7 5).trans BitVec.extractLsb'_eq_self
@[simp] theorem join6 (c : BitVec 6) : (c.extractLsb' 5 1 ++ c.extractLsb' 0 5 : BitVec 6) = c :=
  (join2 c 0 1 5).trans BitVec.extractLsb'_eq_self
@[simp] theorem join20 (c : BitVec 20) :
    (c.extractLsb' 13 7 ++ c.extractLsb' 8 5 ++ c.extractLsb' 3 5 ++ c.extractLsb' 0 3 : BitVec 20) = c := by
  have h1 : (c.extractLsb' 13 7 ++ c.extractLsb' 8 5 : BitVec 12) = c.extractLsb' 8 12 := join2 c 8 7 5
  have h2 : (c.extractLsb' 8 12 ++ c.extractLsb' 3 5 : BitVec 17) = c.extractLsb' 3 17 := join2 c 3 12 5
  have h3 : (c.extractLsb' 3 17 ++ c.extractLsb' 0 3 : BitVec 20) = c := (join2 c 0 17 3).trans BitVec.extractLsb'_eq_self
  exact (congrArg (fun v : BitVec 12 => (v ++ c.extractLsb' 3 5 ++ c.extractLsb' 0 3 : BitVec 20)) h1).trans
    ((congrArg (fun v : BitVec 17 => (v ++ c.extractLsb' 0 3 : BitVec 20)) h2).trans h3)

theorem zero1 {w : Nat} (c : BitVec w) (h : c.extractLsb' 0 2 = 0#2) : c.extractLsb' 0 1 = 0#1 := by
  ext i hi
  have := congrArg (fun v => v.getLsbD i) h
  simp only [BitVec.getLsbD_extractLsb', BitVec.getElem_extractLsb'] at this ⊢
  have h2 : i < 2 := by omega
  simpa [h2] using this

/-- A branch offset of an aligned target, joined from its scattered bits (R19). -/
theorem joinB (c : BitVec 13) (h : c.extractLsb' 0 2 = 0#2) :
    (c.extractLsb' 12 1 ++ c.extractLsb' 11 1 ++ c.extractLsb' 5 6 ++ c.extractLsb' 1 4 ++ 0#1 : BitVec 13) = c := by
  have h1 : (c.extractLsb' 12 1 ++ c.extractLsb' 11 1 : BitVec 2) = c.extractLsb' 11 2 := join2 c 11 1 1
  have h2 : (c.extractLsb' 11 2 ++ c.extractLsb' 5 6 : BitVec 8) = c.extractLsb' 5 8 := join2 c 5 2 6
  have h3 : (c.extractLsb' 5 8 ++ c.extractLsb' 1 4 : BitVec 12) = c.extractLsb' 1 12 := join2 c 1 8 4
  have h4 : (c.extractLsb' 1 12 ++ c.extractLsb' 0 1 : BitVec 13) = c := (join2 c 0 12 1).trans BitVec.extractLsb'_eq_self
  rw [← zero1 c h]
  exact (congrArg (fun v : BitVec 2 => (v ++ c.extractLsb' 5 6 ++ c.extractLsb' 1 4 ++ c.extractLsb' 0 1 : BitVec 13)) h1).trans
    ((congrArg (fun v : BitVec 8 => (v ++ c.extractLsb' 1 4 ++ c.extractLsb' 0 1 : BitVec 13)) h2).trans
      ((congrArg (fun v : BitVec 12 => (v ++ c.extractLsb' 0 1 : BitVec 13)) h3).trans h4))

/-- A jump offset of an aligned target, joined from its scattered bits (R19). -/
theorem joinJ (c : BitVec 21) (h : c.extractLsb' 0 2 = 0#2) :
    (c.extractLsb' 20 1 ++ c.extractLsb' 15 5 ++ c.extractLsb' 12 3 ++ c.extractLsb' 11 1 ++ c.extractLsb' 5 6 ++ c.extractLsb' 1 4 ++
      0#1 : BitVec 21) = c := by
  have h1 : (c.extractLsb' 20 1 ++ c.extractLsb' 15 5 : BitVec 6) = c.extractLsb' 15 6 := join2 c 15 1 5
  have h2 : (c.extractLsb' 15 6 ++ c.extractLsb' 12 3 : BitVec 9) = c.extractLsb' 12 9 := join2 c 12 6 3
  have h3 : (c.extractLsb' 12 9 ++ c.extractLsb' 11 1 : BitVec 10) = c.extractLsb' 11 10 := join2 c 11 9 1
  have h4 : (c.extractLsb' 11 10 ++ c.extractLsb' 5 6 : BitVec 16) = c.extractLsb' 5 16 := join2 c 5 10 6
  have h5 : (c.extractLsb' 5 16 ++ c.extractLsb' 1 4 : BitVec 20) = c.extractLsb' 1 20 := join2 c 1 16 4
  have h6 : (c.extractLsb' 1 20 ++ c.extractLsb' 0 1 : BitVec 21) = c := (join2 c 0 20 1).trans BitVec.extractLsb'_eq_self
  rw [← zero1 c h]
  have g1 := congrArg (fun v : BitVec 6 => (v ++ c.extractLsb' 12 3 ++ c.extractLsb' 11 1 ++ c.extractLsb' 5 6 ++ c.extractLsb' 1 4 ++ c.extractLsb' 0 1 : BitVec 21)) h1
  have g2 := congrArg (fun v : BitVec 9 => (v ++ c.extractLsb' 11 1 ++ c.extractLsb' 5 6 ++ c.extractLsb' 1 4 ++ c.extractLsb' 0 1 : BitVec 21)) h2
  have g3 := congrArg (fun v : BitVec 10 => (v ++ c.extractLsb' 5 6 ++ c.extractLsb' 1 4 ++ c.extractLsb' 0 1 : BitVec 21)) h3
  have g4 := congrArg (fun v : BitVec 16 => (v ++ c.extractLsb' 1 4 ++ c.extractLsb' 0 1 : BitVec 21)) h4
  have g5 := congrArg (fun v : BitVec 20 => (v ++ c.extractLsb' 0 1 : BitVec 21)) h5
  exact g1.trans (g2.trans (g3.trans (g4.trans (g5.trans h6))))

end Sys2Proof.Laws
end

