-- ==== Sys2Proof/Laws/PerInstr.lean ====
section
/-! SUPPORT. Laws of the instructions as syntax, one lemma a constructor. -/

set_option Elab.async false

namespace Sys2Proof.Laws.RoundTrip

/-- A well-formed instruction that has a word is read back from it with every operand (R19 to R29); an event or command of the
package has none. -/
def Statement (i : Instr) : Prop :=
  if encode i = 0#32 then decode (encode i) = .error .opcode else i.wellFormed = true → decode (encode i) = .ok i

/-- The range rules leave what they accept. -/
theorem checkRange_ok {i : Instr} (h : i.wellFormed = true) : checkRange (.ok i) = .ok i := by simp [checkRange, h]

/-- What a constructor's lemma needs: the fields of its word decode to it. -/
theorem of_fields {i : Instr} (h0 : fieldOp (encode i) ≠ 0#7)
    (h : i.wellFormed = true → decodeFields (fieldF7 (encode i)) (fieldB (encode i)) (fieldA (encode i)) (fieldF3 (encode i))
      (fieldD (encode i)) (fieldOp (encode i)) = .ok i) : Statement i := by
  unfold Statement
  have hz : encode i ≠ 0#32 := fun e => h0 (by rw [e]; rfl)
  rw [if_neg hz]
  intro hw
  unfold decode
  rw [h hw]
  exact checkRange_ok hw

/-- An event or command has the all-zeros word, which decodes to nothing (R22). -/
theorem of_zero {i : Instr} (h : encode i = 0#32) : Statement i := by
  unfold Statement
  rw [if_pos h, h]
  rfl

theorem lui (d : BitVec 5) (imm : BitVec 20) : Statement (.lui d imm) := of_fields (by simp [encode]) (fun _ => by
  simp [encode, decodeFields, decodeLui])
theorem auipc (d : BitVec 5) (imm : BitVec 20) : Statement (.auipc d imm) := of_fields (by simp [encode]) (fun _ => by
  simp [encode, decodeFields, decodeAuipc])
theorem jal (d : BitVec 5) (off : BitVec 21) : Statement (.jal d off) := of_fields (by simp [encode]) (fun h => by
  simp only [Instr.wellFormed, beq_iff_eq] at h
  simp [encode, decodeFields, decodeJal]
  exact joinJ off h)
theorem jalr (d : BitVec 5) (a : BitVec 5) (imm : BitVec 12) : Statement (.jalr d a imm) := of_fields (by simp [encode]) (fun _ => by
  simp [encode, decodeFields, decodeJalr])
theorem beq (a : BitVec 5) (b : BitVec 5) (off : BitVec 13) : Statement (.beq a b off) := of_fields (by simp [encode]) (fun h => by
  simp only [Instr.wellFormed, beq_iff_eq] at h
  simp [encode, decodeFields, decodeBranch]
  exact joinB off h)
theorem bne (a : BitVec 5) (b : BitVec 5) (off : BitVec 13) : Statement (.bne a b off) := of_fields (by simp [encode]) (fun h => by
  simp only [Instr.wellFormed, beq_iff_eq] at h
  simp [encode, decodeFields, decodeBranch]
  exact joinB off h)
theorem blt (a : BitVec 5) (b : BitVec 5) (off : BitVec 13) : Statement (.blt a b off) := of_fields (by simp [encode]) (fun h => by
  simp only [Instr.wellFormed, beq_iff_eq] at h
  simp [encode, decodeFields, decodeBranch]
  exact joinB off h)
theorem bge (a : BitVec 5) (b : BitVec 5) (off : BitVec 13) : Statement (.bge a b off) := of_fields (by simp [encode]) (fun h => by
  simp only [Instr.wellFormed, beq_iff_eq] at h
  simp [encode, decodeFields, decodeBranch]
  exact joinB off h)
theorem bltu (a : BitVec 5) (b : BitVec 5) (off : BitVec 13) : Statement (.bltu a b off) := of_fields (by simp [encode]) (fun h => by
  simp only [Instr.wellFormed, beq_iff_eq] at h
  simp [encode, decodeFields, decodeBranch]
  exact joinB off h)
theorem bgeu (a : BitVec 5) (b : BitVec 5) (off : BitVec 13) : Statement (.bgeu a b off) := of_fields (by simp [encode]) (fun h => by
  simp only [Instr.wellFormed, beq_iff_eq] at h
  simp [encode, decodeFields, decodeBranch]
  exact joinB off h)
theorem lb (d : BitVec 5) (a : BitVec 5) (imm : BitVec 12) : Statement (.lb d a imm) := of_fields (by simp [encode]) (fun _ => by
  simp [encode, decodeFields, decodeLoad])
theorem lh (d : BitVec 5) (a : BitVec 5) (imm : BitVec 12) : Statement (.lh d a imm) := of_fields (by simp [encode]) (fun _ => by
  simp [encode, decodeFields, decodeLoad])
theorem lw (d : BitVec 5) (a : BitVec 5) (imm : BitVec 12) : Statement (.lw d a imm) := of_fields (by simp [encode]) (fun _ => by
  simp [encode, decodeFields, decodeLoad])
theorem ld (d : BitVec 5) (a : BitVec 5) (imm : BitVec 12) : Statement (.ld d a imm) := of_fields (by simp [encode]) (fun _ => by
  simp [encode, decodeFields, decodeLoad])
theorem lbu (d : BitVec 5) (a : BitVec 5) (imm : BitVec 12) : Statement (.lbu d a imm) := of_fields (by simp [encode]) (fun _ => by
  simp [encode, decodeFields, decodeLoad])
theorem lhu (d : BitVec 5) (a : BitVec 5) (imm : BitVec 12) : Statement (.lhu d a imm) := of_fields (by simp [encode]) (fun _ => by
  simp [encode, decodeFields, decodeLoad])
theorem lwu (d : BitVec 5) (a : BitVec 5) (imm : BitVec 12) : Statement (.lwu d a imm) := of_fields (by simp [encode]) (fun _ => by
  simp [encode, decodeFields, decodeLoad])
theorem sb (a : BitVec 5) (b : BitVec 5) (imm : BitVec 12) : Statement (.sb a b imm) := of_fields (by simp [encode]) (fun _ => by
  simp [encode, decodeFields, decodeStore])
theorem sh (a : BitVec 5) (b : BitVec 5) (imm : BitVec 12) : Statement (.sh a b imm) := of_fields (by simp [encode]) (fun _ => by
  simp [encode, decodeFields, decodeStore])
theorem sw (a : BitVec 5) (b : BitVec 5) (imm : BitVec 12) : Statement (.sw a b imm) := of_fields (by simp [encode]) (fun _ => by
  simp [encode, decodeFields, decodeStore])
theorem sd (a : BitVec 5) (b : BitVec 5) (imm : BitVec 12) : Statement (.sd a b imm) := of_fields (by simp [encode]) (fun _ => by
  simp [encode, decodeFields, decodeStore])
theorem addi (d : BitVec 5) (a : BitVec 5) (imm : BitVec 12) : Statement (.addi d a imm) := of_fields (by simp [encode]) (fun _ => by
  simp [encode, decodeFields, decodeOpImm])
theorem slti (d : BitVec 5) (a : BitVec 5) (imm : BitVec 12) : Statement (.slti d a imm) := of_fields (by simp [encode]) (fun _ => by
  simp [encode, decodeFields, decodeOpImm])
theorem sltiu (d : BitVec 5) (a : BitVec 5) (imm : BitVec 12) : Statement (.sltiu d a imm) := of_fields (by simp [encode]) (fun _ => by
  simp [encode, decodeFields, decodeOpImm])
theorem xori (d : BitVec 5) (a : BitVec 5) (imm : BitVec 12) : Statement (.xori d a imm) := of_fields (by simp [encode]) (fun _ => by
  simp [encode, decodeFields, decodeOpImm])
theorem ori (d : BitVec 5) (a : BitVec 5) (imm : BitVec 12) : Statement (.ori d a imm) := of_fields (by simp [encode]) (fun _ => by
  simp [encode, decodeFields, decodeOpImm])
theorem andi (d : BitVec 5) (a : BitVec 5) (imm : BitVec 12) : Statement (.andi d a imm) := of_fields (by simp [encode]) (fun _ => by
  simp [encode, decodeFields, decodeOpImm])
theorem slli (d : BitVec 5) (a : BitVec 5) (sh : BitVec 6) : Statement (.slli d a sh) := of_fields (by simp [encode]) (fun _ => by
  simp [encode, decodeFields, decodeOpImm])
theorem srli (d : BitVec 5) (a : BitVec 5) (sh : BitVec 6) : Statement (.srli d a sh) := of_fields (by simp [encode]) (fun _ => by
  simp [encode, decodeFields, decodeOpImm])
theorem srai (d : BitVec 5) (a : BitVec 5) (sh : BitVec 6) : Statement (.srai d a sh) := of_fields (by simp [encode]) (fun _ => by
  simp [encode, decodeFields, decodeOpImm])
theorem rori (d : BitVec 5) (a : BitVec 5) (sh : BitVec 6) : Statement (.rori d a sh) := of_fields (by simp [encode]) (fun _ => by
  simp [encode, decodeFields, decodeOpImm])
theorem add (d : BitVec 5) (a : BitVec 5) (b : BitVec 5) : Statement (.add d a b) := of_fields (by simp [encode]) (fun _ => by
  simp [encode, decodeFields, decodeOp])
theorem sub (d : BitVec 5) (a : BitVec 5) (b : BitVec 5) : Statement (.sub d a b) := of_fields (by simp [encode]) (fun _ => by
  simp [encode, decodeFields, decodeOp])
theorem sll (d : BitVec 5) (a : BitVec 5) (b : BitVec 5) : Statement (.sll d a b) := of_fields (by simp [encode]) (fun _ => by
  simp [encode, decodeFields, decodeOp])
theorem slt (d : BitVec 5) (a : BitVec 5) (b : BitVec 5) : Statement (.slt d a b) := of_fields (by simp [encode]) (fun _ => by
  simp [encode, decodeFields, decodeOp])
theorem sltu (d : BitVec 5) (a : BitVec 5) (b : BitVec 5) : Statement (.sltu d a b) := of_fields (by simp [encode]) (fun _ => by
  simp [encode, decodeFields, decodeOp])
theorem xor (d : BitVec 5) (a : BitVec 5) (b : BitVec 5) : Statement (.xor d a b) := of_fields (by simp [encode]) (fun _ => by
  simp [encode, decodeFields, decodeOp])
theorem srl (d : BitVec 5) (a : BitVec 5) (b : BitVec 5) : Statement (.srl d a b) := of_fields (by simp [encode]) (fun _ => by
  simp [encode, decodeFields, decodeOp])
theorem sra (d : BitVec 5) (a : BitVec 5) (b : BitVec 5) : Statement (.sra d a b) := of_fields (by simp [encode]) (fun _ => by
  simp [encode, decodeFields, decodeOp])
theorem or (d : BitVec 5) (a : BitVec 5) (b : BitVec 5) : Statement (.or d a b) := of_fields (by simp [encode]) (fun _ => by
  simp [encode, decodeFields, decodeOp])
theorem and (d : BitVec 5) (a : BitVec 5) (b : BitVec 5) : Statement (.and d a b) := of_fields (by simp [encode]) (fun _ => by
  simp [encode, decodeFields, decodeOp])
theorem mul (d : BitVec 5) (a : BitVec 5) (b : BitVec 5) : Statement (.mul d a b) := of_fields (by simp [encode]) (fun _ => by
  simp [encode, decodeFields, decodeOp])
theorem mulh (d : BitVec 5) (a : BitVec 5) (b : BitVec 5) : Statement (.mulh d a b) := of_fields (by simp [encode]) (fun _ => by
  simp [encode, decodeFields, decodeOp])
theorem mulhu (d : BitVec 5) (a : BitVec 5) (b : BitVec 5) : Statement (.mulhu d a b) := of_fields (by simp [encode]) (fun _ => by
  simp [encode, decodeFields, decodeOp])
theorem div (d : BitVec 5) (a : BitVec 5) (b : BitVec 5) : Statement (.div d a b) := of_fields (by simp [encode]) (fun _ => by
  simp [encode, decodeFields, decodeOp])
theorem divu (d : BitVec 5) (a : BitVec 5) (b : BitVec 5) : Statement (.divu d a b) := of_fields (by simp [encode]) (fun _ => by
  simp [encode, decodeFields, decodeOp])
theorem rem (d : BitVec 5) (a : BitVec 5) (b : BitVec 5) : Statement (.rem d a b) := of_fields (by simp [encode]) (fun _ => by
  simp [encode, decodeFields, decodeOp])
theorem remu (d : BitVec 5) (a : BitVec 5) (b : BitVec 5) : Statement (.remu d a b) := of_fields (by simp [encode]) (fun _ => by
  simp [encode, decodeFields, decodeOp])
theorem clmul (d : BitVec 5) (a : BitVec 5) (b : BitVec 5) : Statement (.clmul d a b) := of_fields (by simp [encode]) (fun _ => by
  simp [encode, decodeFields, decodeOp])
theorem clmulh (d : BitVec 5) (a : BitVec 5) (b : BitVec 5) : Statement (.clmulh d a b) := of_fields (by simp [encode]) (fun _ => by
  simp [encode, decodeFields, decodeOp])
theorem clz (d : BitVec 5) (a : BitVec 5) : Statement (.clz d a) := of_fields (by simp [encode]) (fun _ => by
  simp [encode, decodeFields, decodeOp, whenZero])
theorem ctz (d : BitVec 5) (a : BitVec 5) : Statement (.ctz d a) := of_fields (by simp [encode]) (fun _ => by
  simp [encode, decodeFields, decodeOp, whenZero])
theorem cpop (d : BitVec 5) (a : BitVec 5) : Statement (.cpop d a) := of_fields (by simp [encode]) (fun _ => by
  simp [encode, decodeFields, decodeOp, whenZero])
theorem ror (d : BitVec 5) (a : BitVec 5) (b : BitVec 5) : Statement (.ror d a b) := of_fields (by simp [encode]) (fun _ => by
  simp [encode, decodeFields, decodeOp])
theorem bswap (d : BitVec 5) (a : BitVec 5) : Statement (.bswap d a) := of_fields (by simp [encode]) (fun _ => by
  simp [encode, decodeFields, decodeOp, whenZero])
theorem faddS (d : BitVec 5) (a : BitVec 5) (b : BitVec 5) (m : BitVec 3) : Statement (.faddS d a b m) := of_fields (by simp [encode]) (fun _ => by
  simp [encode, decodeFields, decodeOpFp])
theorem fsubS (d : BitVec 5) (a : BitVec 5) (b : BitVec 5) (m : BitVec 3) : Statement (.fsubS d a b m) := of_fields (by simp [encode]) (fun _ => by
  simp [encode, decodeFields, decodeOpFp])
theorem fmulS (d : BitVec 5) (a : BitVec 5) (b : BitVec 5) (m : BitVec 3) : Statement (.fmulS d a b m) := of_fields (by simp [encode]) (fun _ => by
  simp [encode, decodeFields, decodeOpFp])
theorem fdivS (d : BitVec 5) (a : BitVec 5) (b : BitVec 5) (m : BitVec 3) : Statement (.fdivS d a b m) := of_fields (by simp [encode]) (fun _ => by
  simp [encode, decodeFields, decodeOpFp])
theorem fsqrtS (d : BitVec 5) (a : BitVec 5) (m : BitVec 3) : Statement (.fsqrtS d a m) := of_fields (by simp [encode]) (fun _ => by
  simp [encode, decodeFields, decodeOpFp, whenZero])
theorem fsgnjS (d : BitVec 5) (a : BitVec 5) (b : BitVec 5) : Statement (.fsgnjS d a b) := of_fields (by simp [encode]) (fun _ => by
  simp [encode, decodeFields, decodeOpFp])
theorem fsgnjnS (d : BitVec 5) (a : BitVec 5) (b : BitVec 5) : Statement (.fsgnjnS d a b) := of_fields (by simp [encode]) (fun _ => by
  simp [encode, decodeFields, decodeOpFp])
theorem fsgnjxS (d : BitVec 5) (a : BitVec 5) (b : BitVec 5) : Statement (.fsgnjxS d a b) := of_fields (by simp [encode]) (fun _ => by
  simp [encode, decodeFields, decodeOpFp])
theorem fminS (d : BitVec 5) (a : BitVec 5) (b : BitVec 5) : Statement (.fminS d a b) := of_fields (by simp [encode]) (fun _ => by
  simp [encode, decodeFields, decodeOpFp])
theorem fmaxS (d : BitVec 5) (a : BitVec 5) (b : BitVec 5) : Statement (.fmaxS d a b) := of_fields (by simp [encode]) (fun _ => by
  simp [encode, decodeFields, decodeOpFp])
theorem fleS (d : BitVec 5) (a : BitVec 5) (b : BitVec 5) : Statement (.fleS d a b) := of_fields (by simp [encode]) (fun _ => by
  simp [encode, decodeFields, decodeOpFp])
theorem fltS (d : BitVec 5) (a : BitVec 5) (b : BitVec 5) : Statement (.fltS d a b) := of_fields (by simp [encode]) (fun _ => by
  simp [encode, decodeFields, decodeOpFp])
theorem feqS (d : BitVec 5) (a : BitVec 5) (b : BitVec 5) : Statement (.feqS d a b) := of_fields (by simp [encode]) (fun _ => by
  simp [encode, decodeFields, decodeOpFp])
theorem fcvtWS (d : BitVec 5) (a : BitVec 5) (m : BitVec 3) : Statement (.fcvtWS d a m) := of_fields (by simp [encode]) (fun _ => by
  simp [encode, decodeFields, decodeOpFp])
theorem fcvtLS (d : BitVec 5) (a : BitVec 5) (m : BitVec 3) : Statement (.fcvtLS d a m) := of_fields (by simp [encode]) (fun _ => by
  simp [encode, decodeFields, decodeOpFp])
theorem fcvtSW (d : BitVec 5) (a : BitVec 5) (m : BitVec 3) : Statement (.fcvtSW d a m) := of_fields (by simp [encode]) (fun _ => by
  simp [encode, decodeFields, decodeOpFp])
theorem fcvtSL (d : BitVec 5) (a : BitVec 5) (m : BitVec 3) : Statement (.fcvtSL d a m) := of_fields (by simp [encode]) (fun _ => by
  simp [encode, decodeFields, decodeOpFp])
theorem fclassS (d : BitVec 5) (a : BitVec 5) : Statement (.fclassS d a) := of_fields (by simp [encode]) (fun _ => by
  simp [encode, decodeFields, decodeOpFp, whenZero])
theorem fmaddS (d : BitVec 5) (a : BitVec 5) (b : BitVec 5) (c : BitVec 5) (m : BitVec 3) : Statement (.fmaddS d a b c m) := of_fields (by simp [encode]) (fun _ => by
  simp [encode, decodeFields, decodeFmadd, whenZero])
theorem trap : Statement .trap := of_fields (by simp [encode]) (fun _ => by
  simp [encode, decodeFields, decodeSystem, whenZero])
theorem bkpt : Statement .bkpt := of_fields (by simp [encode]) (fun _ => by
  simp [encode, decodeFields, decodeSystem, whenZero])
theorem resume (d : BitVec 5) (a : BitVec 5) : Statement (.resume d a) := of_fields (by simp [encode]) (fun _ => by
  simp [encode, decodeFields, decodeSystem, whenZero])
theorem kill (d : BitVec 5) (a : BitVec 5) : Statement (.kill d a) := of_fields (by simp [encode]) (fun _ => by
  simp [encode, decodeFields, decodeSystem, whenZero])
theorem slotrd (d : BitVec 5) (a : BitVec 5) : Statement (.slotrd d a) := of_fields (by simp [encode]) (fun _ => by
  simp [encode, decodeFields, decodeSystem, whenZero])
theorem plbinv (d : BitVec 5) (a : BitVec 5) (b : BitVec 5) : Statement (.plbinv d a b) := of_fields (by simp [encode]) (fun _ => by
  simp [encode, decodeFields, decodeSystem])
theorem tlbi1 (d : BitVec 5) (a : BitVec 5) (b : BitVec 5) : Statement (.tlbi1 d a b) := of_fields (by simp [encode]) (fun _ => by
  simp [encode, decodeFields, decodeSystem])
theorem tlbi2 (d : BitVec 5) (a : BitVec 5) (b : BitVec 5) : Statement (.tlbi2 d a b) := of_fields (by simp [encode]) (fun _ => by
  simp [encode, decodeFields, decodeSystem])
theorem mgmt (d : BitVec 5) (a : BitVec 5) : Statement (.mgmt d a) := of_fields (by simp [encode]) (fun _ => by
  simp [encode, decodeFields, decodeSystem, whenZero])
theorem slotwr (d : BitVec 5) (a : BitVec 5) (b : BitVec 5) : Statement (.slotwr d a b) := of_fields (by simp [encode]) (fun _ => by
  simp [encode, decodeFields, decodeSystem])
theorem csrrw (d : BitVec 5) (a : BitVec 5) (csr : BitVec 12) : Statement (.csrrw d a csr) := of_fields (by simp [encode]) (fun _ => by
  simp [encode, decodeFields, decodeSystem])
theorem csrrs (d : BitVec 5) (a : BitVec 5) (csr : BitVec 12) : Statement (.csrrs d a csr) := of_fields (by simp [encode]) (fun _ => by
  simp [encode, decodeFields, decodeSystem])
theorem csrrc (d : BitVec 5) (a : BitVec 5) (csr : BitVec 12) : Statement (.csrrc d a csr) := of_fields (by simp [encode]) (fun _ => by
  simp [encode, decodeFields, decodeSystem])
theorem csrrwi (d : BitVec 5) (u : BitVec 5) (csr : BitVec 12) : Statement (.csrrwi d u csr) := of_fields (by simp [encode]) (fun _ => by
  simp [encode, decodeFields, decodeSystem])
theorem csrrsi (d : BitVec 5) (u : BitVec 5) (csr : BitVec 12) : Statement (.csrrsi d u csr) := of_fields (by simp [encode]) (fun _ => by
  simp [encode, decodeFields, decodeSystem])
theorem csrrci (d : BitVec 5) (u : BitVec 5) (csr : BitVec 12) : Statement (.csrrci d u csr) := of_fields (by simp [encode]) (fun _ => by
  simp [encode, decodeFields, decodeSystem])
theorem loop (l : BitVec 1) (a : BitVec 5) (n : BitVec 12) : Statement (.loop l a n) := of_fields (by simp [encode]) (fun _ => by
  simp [encode, decodeFields, decodeCustom0, whenZero])
theorem fmt (w : BitVec 12) : Statement (.fmt w) := of_fields (by simp [encode]) (fun _ => by
  simp [encode, decodeFields, decodeCustom0, whenZero])
theorem send (d : BitVec 5) (a : BitVec 5) (b : BitVec 5) : Statement (.send d a b) := of_fields (by simp [encode]) (fun _ => by
  simp [encode, decodeFields, decodeCustom0])
theorem sendc (d : BitVec 5) (a : BitVec 5) (b : BitVec 5) : Statement (.sendc d a b) := of_fields (by simp [encode]) (fun _ => by
  simp [encode, decodeFields, decodeCustom0])
theorem jarm (d : BitVec 5) (a : BitVec 5) (b : BitVec 5) : Statement (.jarm d a b) := of_fields (by simp [encode]) (fun _ => by
  simp [encode, decodeFields, decodeCustom0])
theorem jdec (d : BitVec 5) (a : BitVec 5) (b : BitVec 5) : Statement (.jdec d a b) := of_fields (by simp [encode]) (fun _ => by
  simp [encode, decodeFields, decodeCustom0])
theorem tagen (d : BitVec 5) (a : BitVec 5) : Statement (.tagen d a) := of_fields (by simp [encode]) (fun _ => by
  simp [encode, decodeFields, decodeCustom0, whenZero])
theorem tagdis (d : BitVec 5) (a : BitVec 5) : Statement (.tagdis d a) := of_fields (by simp [encode]) (fun _ => by
  simp [encode, decodeFields, decodeCustom0, whenZero])
theorem tagpd (d : BitVec 5) (a : BitVec 5) : Statement (.tagpd d a) := of_fields (by simp [encode]) (fun _ => by
  simp [encode, decodeFields, decodeCustom0, whenZero])
theorem lnch (d : BitVec 5) (a : BitVec 5) : Statement (.lnch d a) := of_fields (by simp [encode]) (fun _ => by
  simp [encode, decodeFields, decodeCustom0, whenZero])
theorem yield : Statement .yield := of_fields (by simp [encode]) (fun _ => by
  simp [encode, decodeFields, decodeCustom0, whenZero])
theorem endTask : Statement .endTask := of_fields (by simp [encode]) (fun _ => by
  simp [encode, decodeFields, decodeCustom0, whenZero])
theorem waita (d : BitVec 5) (a : BitVec 5) (b : BitVec 5) : Statement (.waita d a b) := of_fields (by simp [encode]) (fun _ => by
  simp [encode, decodeFields, decodeCustom0])
theorem wake (d : BitVec 5) (a : BitVec 5) : Statement (.wake d a) := of_fields (by simp [encode]) (fun _ => by
  simp [encode, decodeFields, decodeCustom0, whenZero])
theorem barr (d : BitVec 5) (a : BitVec 5) : Statement (.barr d a) := of_fields (by simp [encode]) (fun _ => by
  simp [encode, decodeFields, decodeCustom0, whenZero])
theorem gate (n : BitVec 6) : Statement (.gate n) := of_fields (by simp [encode]) (fun _ => by
  simp [encode, decodeFields, decodeCustom0, whenZero])
theorem gret : Statement .gret := of_fields (by simp [encode]) (fun _ => by
  simp [encode, decodeFields, decodeCustom0, whenZero])
theorem gqry (d : BitVec 5) (a : BitVec 5) : Statement (.gqry d a) := of_fields (by simp [encode]) (fun _ => by
  simp [encode, decodeFields, decodeCustom0, whenZero])
theorem qpush (q : BitVec 3) (a : BitVec 5) : Statement (.qpush q a) := of_fields (by simp [encode]) (fun _ => by
  simp [encode, decodeFields, decodeCustom0, whenZero])
theorem qpop (d : BitVec 5) (q : BitVec 3) : Statement (.qpop d q) := of_fields (by simp [encode]) (fun _ => by
  simp [encode, decodeFields, decodeCustom0, whenZero])
theorem qcnt (d : BitVec 5) (q : BitVec 3) : Statement (.qcnt d q) := of_fields (by simp [encode]) (fun _ => by
  simp [encode, decodeFields, decodeCustom0, whenZero])
theorem vaddF (p : BitVec 3) (d : BitVec 5) (a : BitVec 5) (b : BitVec 5) : Statement (.vaddF p d a b) := of_fields (by simp [encode]) (fun _ => by
  simp [encode, decodeFields, decodeCustom1, decodeGroup0])
theorem vsubF (p : BitVec 3) (d : BitVec 5) (a : BitVec 5) (b : BitVec 5) : Statement (.vsubF p d a b) := of_fields (by simp [encode]) (fun _ => by
  simp [encode, decodeFields, decodeCustom1, decodeGroup0])
theorem vmulF (p : BitVec 3) (d : BitVec 5) (a : BitVec 5) (b : BitVec 5) : Statement (.vmulF p d a b) := of_fields (by simp [encode]) (fun _ => by
  simp [encode, decodeFields, decodeCustom1, decodeGroup0])
theorem vfmaF (p : BitVec 3) (d : BitVec 5) (a : BitVec 5) (b : BitVec 5) : Statement (.vfmaF p d a b) := of_fields (by simp [encode]) (fun _ => by
  simp [encode, decodeFields, decodeCustom1, decodeGroup0])
theorem vminF (p : BitVec 3) (d : BitVec 5) (a : BitVec 5) (b : BitVec 5) : Statement (.vminF p d a b) := of_fields (by simp [encode]) (fun _ => by
  simp [encode, decodeFields, decodeCustom1, decodeGroup0])
theorem vmaxF (p : BitVec 3) (d : BitVec 5) (a : BitVec 5) (b : BitVec 5) : Statement (.vmaxF p d a b) := of_fields (by simp [encode]) (fun _ => by
  simp [encode, decodeFields, decodeCustom1, decodeGroup0])
theorem vabsF (p : BitVec 3) (d : BitVec 5) (a : BitVec 5) : Statement (.vabsF p d a) := of_fields (by simp [encode]) (fun _ => by
  simp [encode, decodeFields, decodeCustom1, decodeGroup0, whenZero])
theorem vnegF (p : BitVec 3) (d : BitVec 5) (a : BitVec 5) : Statement (.vnegF p d a) := of_fields (by simp [encode]) (fun _ => by
  simp [encode, decodeFields, decodeCustom1, decodeGroup0, whenZero])
theorem vdivF (p : BitVec 3) (d : BitVec 5) (a : BitVec 5) (b : BitVec 5) : Statement (.vdivF p d a b) := of_fields (by simp [encode]) (fun _ => by
  simp [encode, decodeFields, decodeCustom1, decodeGroup0])
theorem vsqrtF (p : BitVec 3) (d : BitVec 5) (a : BitVec 5) : Statement (.vsqrtF p d a) := of_fields (by simp [encode]) (fun _ => by
  simp [encode, decodeFields, decodeCustom1, decodeGroup0, whenZero])
theorem vexp2F (p : BitVec 3) (d : BitVec 5) (a : BitVec 5) : Statement (.vexp2F p d a) := of_fields (by simp [encode]) (fun _ => by
  simp [encode, decodeFields, decodeCustom1, decodeGroup0, whenZero])
theorem vrcpF (p : BitVec 3) (d : BitVec 5) (a : BitVec 5) : Statement (.vrcpF p d a) := of_fields (by simp [encode]) (fun _ => by
  simp [encode, decodeFields, decodeCustom1, decodeGroup0, whenZero])
theorem vfmasF (p : BitVec 3) (d : BitVec 5) (a : BitVec 5) (b : BitVec 5) : Statement (.vfmasF p d a b) := of_fields (by simp [encode]) (fun _ => by
  simp [encode, decodeFields, decodeCustom1, decodeGroup0])
theorem vaddI (p : BitVec 3) (d : BitVec 5) (a : BitVec 5) (b : BitVec 5) : Statement (.vaddI p d a b) := of_fields (by simp [encode]) (fun _ => by
  simp [encode, decodeFields, decodeCustom1, decodeGroup1])
theorem vsubI (p : BitVec 3) (d : BitVec 5) (a : BitVec 5) (b : BitVec 5) : Statement (.vsubI p d a b) := of_fields (by simp [encode]) (fun _ => by
  simp [encode, decodeFields, decodeCustom1, decodeGroup1])
theorem vmulI (p : BitVec 3) (d : BitVec 5) (a : BitVec 5) (b : BitVec 5) : Statement (.vmulI p d a b) := of_fields (by simp [encode]) (fun _ => by
  simp [encode, decodeFields, decodeCustom1, decodeGroup1])
theorem vminI (p : BitVec 3) (d : BitVec 5) (a : BitVec 5) (b : BitVec 5) : Statement (.vminI p d a b) := of_fields (by simp [encode]) (fun _ => by
  simp [encode, decodeFields, decodeCustom1, decodeGroup1])
theorem vmaxI (p : BitVec 3) (d : BitVec 5) (a : BitVec 5) (b : BitVec 5) : Statement (.vmaxI p d a b) := of_fields (by simp [encode]) (fun _ => by
  simp [encode, decodeFields, decodeCustom1, decodeGroup1])
theorem vminuI (p : BitVec 3) (d : BitVec 5) (a : BitVec 5) (b : BitVec 5) : Statement (.vminuI p d a b) := of_fields (by simp [encode]) (fun _ => by
  simp [encode, decodeFields, decodeCustom1, decodeGroup1])
theorem vmaxuI (p : BitVec 3) (d : BitVec 5) (a : BitVec 5) (b : BitVec 5) : Statement (.vmaxuI p d a b) := of_fields (by simp [encode]) (fun _ => by
  simp [encode, decodeFields, decodeCustom1, decodeGroup1])
theorem vand (p : BitVec 3) (d : BitVec 5) (a : BitVec 5) (b : BitVec 5) : Statement (.vand p d a b) := of_fields (by simp [encode]) (fun _ => by
  simp [encode, decodeFields, decodeCustom1, decodeGroup1])
theorem vor (p : BitVec 3) (d : BitVec 5) (a : BitVec 5) (b : BitVec 5) : Statement (.vor p d a b) := of_fields (by simp [encode]) (fun _ => by
  simp [encode, decodeFields, decodeCustom1, decodeGroup1])
theorem vxor (p : BitVec 3) (d : BitVec 5) (a : BitVec 5) (b : BitVec 5) : Statement (.vxor p d a b) := of_fields (by simp [encode]) (fun _ => by
  simp [encode, decodeFields, decodeCustom1, decodeGroup1])
theorem vshl (p : BitVec 3) (d : BitVec 5) (a : BitVec 5) (b : BitVec 5) : Statement (.vshl p d a b) := of_fields (by simp [encode]) (fun _ => by
  simp [encode, decodeFields, decodeCustom1, decodeGroup1])
theorem vsrl (p : BitVec 3) (d : BitVec 5) (a : BitVec 5) (b : BitVec 5) : Statement (.vsrl p d a b) := of_fields (by simp [encode]) (fun _ => by
  simp [encode, decodeFields, decodeCustom1, decodeGroup1])
theorem vsra (p : BitVec 3) (d : BitVec 5) (a : BitVec 5) (b : BitVec 5) : Statement (.vsra p d a b) := of_fields (by simp [encode]) (fun _ => by
  simp [encode, decodeFields, decodeCustom1, decodeGroup1])
theorem vcmpFEQ (p : BitVec 3) (d : BitVec 3) (a : BitVec 5) (b : BitVec 5) : Statement (.vcmpFEQ p d a b) := of_fields (by simp [encode]) (fun _ => by
  simp [encode, decodeFields, decodeCustom1, decodeGroup2, whenZero])
theorem vcmpFLT (p : BitVec 3) (d : BitVec 3) (a : BitVec 5) (b : BitVec 5) : Statement (.vcmpFLT p d a b) := of_fields (by simp [encode]) (fun _ => by
  simp [encode, decodeFields, decodeCustom1, decodeGroup2, whenZero])
theorem vcmpFLE (p : BitVec 3) (d : BitVec 3) (a : BitVec 5) (b : BitVec 5) : Statement (.vcmpFLE p d a b) := of_fields (by simp [encode]) (fun _ => by
  simp [encode, decodeFields, decodeCustom1, decodeGroup2, whenZero])
theorem vcmpIEQ (p : BitVec 3) (d : BitVec 3) (a : BitVec 5) (b : BitVec 5) : Statement (.vcmpIEQ p d a b) := of_fields (by simp [encode]) (fun _ => by
  simp [encode, decodeFields, decodeCustom1, decodeGroup2, whenZero])
theorem vcmpILT (p : BitVec 3) (d : BitVec 3) (a : BitVec 5) (b : BitVec 5) : Statement (.vcmpILT p d a b) := of_fields (by simp [encode]) (fun _ => by
  simp [encode, decodeFields, decodeCustom1, decodeGroup2, whenZero])
theorem vcmpILTU (p : BitVec 3) (d : BitVec 3) (a : BitVec 5) (b : BitVec 5) : Statement (.vcmpILTU p d a b) := of_fields (by simp [encode]) (fun _ => by
  simp [encode, decodeFields, decodeCustom1, decodeGroup2, whenZero])
theorem vsel (p : BitVec 3) (d : BitVec 5) (a : BitVec 5) (b : BitVec 5) : Statement (.vsel p d a b) := of_fields (by simp [encode]) (fun _ => by
  simp [encode, decodeFields, decodeCustom1, decodeGroup2])
theorem pand (d : BitVec 3) (a : BitVec 3) (b : BitVec 3) : Statement (.pand d a b) := of_fields (by simp [encode]) (fun _ => by
  simp [encode, decodeFields, decodeCustom1, decodeGroup2, whenZero])
theorem por (d : BitVec 3) (a : BitVec 3) (b : BitVec 3) : Statement (.por d a b) := of_fields (by simp [encode]) (fun _ => by
  simp [encode, decodeFields, decodeCustom1, decodeGroup2, whenZero])
theorem pxor (d : BitVec 3) (a : BitVec 3) (b : BitVec 3) : Statement (.pxor d a b) := of_fields (by simp [encode]) (fun _ => by
  simp [encode, decodeFields, decodeCustom1, decodeGroup2, whenZero])
theorem pnot (d : BitVec 3) (a : BitVec 3) : Statement (.pnot d a) := of_fields (by simp [encode]) (fun _ => by
  simp [encode, decodeFields, decodeCustom1, decodeGroup2, whenZero])
theorem pset (d : BitVec 3) (a : BitVec 5) : Statement (.pset d a) := of_fields (by simp [encode]) (fun _ => by
  simp [encode, decodeFields, decodeCustom1, decodeGroup2, whenZero])
theorem pget (d : BitVec 5) (a : BitVec 3) : Statement (.pget d a) := of_fields (by simp [encode]) (fun _ => by
  simp [encode, decodeFields, decodeCustom1, decodeGroup2, whenZero])
theorem ppop (p : BitVec 3) (d : BitVec 5) (a : BitVec 3) : Statement (.ppop p d a) := of_fields (by simp [encode]) (fun _ => by
  simp [encode, decodeFields, decodeCustom1, decodeGroup2, whenZero])
theorem vbcast (p : BitVec 3) (d : BitVec 5) (a : BitVec 5) : Statement (.vbcast p d a) := of_fields (by simp [encode]) (fun _ => by
  simp [encode, decodeFields, decodeCustom1, decodeGroup3, whenZero])
theorem vbcastq (p : BitVec 3) (d : BitVec 5) (q : BitVec 3) : Statement (.vbcastq p d q) := of_fields (by simp [encode]) (fun _ => by
  simp [encode, decodeFields, decodeCustom1, decodeGroup3, whenZero])
theorem vmvxv (d : BitVec 5) (a : BitVec 5) (j : BitVec 4) : Statement (.vmvxv d a j) := of_fields (by simp [encode]) (fun _ => by
  simp [encode, decodeFields, decodeCustom1, decodeGroup3, whenZero])
theorem vmvvx (d : BitVec 5) (a : BitVec 5) (j : BitVec 4) : Statement (.vmvvx d a j) := of_fields (by simp [encode]) (fun _ => by
  simp [encode, decodeFields, decodeCustom1, decodeGroup3, whenZero])
theorem vperm (p : BitVec 3) (d : BitVec 5) (a : BitVec 5) (b : BitVec 5) : Statement (.vperm p d a b) := of_fields (by simp [encode]) (fun _ => by
  simp [encode, decodeFields, decodeCustom1, decodeGroup3])
theorem vslide (p : BitVec 3) (d : BitVec 5) (a : BitVec 5) (b : BitVec 5) : Statement (.vslide p d a b) := of_fields (by simp [encode]) (fun _ => by
  simp [encode, decodeFields, decodeCustom1, decodeGroup3])
theorem viota (p : BitVec 3) (d : BitVec 5) : Statement (.viota p d) := of_fields (by simp [encode]) (fun _ => by
  simp [encode, decodeFields, decodeCustom1, decodeGroup3, whenZero])
theorem vrsumF (p : BitVec 3) (d : BitVec 5) (a : BitVec 5) : Statement (.vrsumF p d a) := of_fields (by simp [encode]) (fun _ => by
  simp [encode, decodeFields, decodeCustom1, decodeGroup3, whenZero])
theorem vrmaxF (p : BitVec 3) (d : BitVec 5) (a : BitVec 5) : Statement (.vrmaxF p d a) := of_fields (by simp [encode]) (fun _ => by
  simp [encode, decodeFields, decodeCustom1, decodeGroup3, whenZero])
theorem vrsumI (p : BitVec 3) (d : BitVec 5) (a : BitVec 5) : Statement (.vrsumI p d a) := of_fields (by simp [encode]) (fun _ => by
  simp [encode, decodeFields, decodeCustom1, decodeGroup3, whenZero])
theorem vcvtFI (p : BitVec 3) (d : BitVec 5) (a : BitVec 5) : Statement (.vcvtFI p d a) := of_fields (by simp [encode]) (fun _ => by
  simp [encode, decodeFields, decodeCustom1, decodeGroup4, whenZero])
theorem vcvtIF (p : BitVec 3) (d : BitVec 5) (a : BitVec 5) : Statement (.vcvtIF p d a) := of_fields (by simp [encode]) (fun _ => by
  simp [encode, decodeFields, decodeCustom1, decodeGroup4, whenZero])
theorem vcvtFH (p : BitVec 3) (d : BitVec 5) (a : BitVec 5) (h : BitVec 1) : Statement (.vcvtFH p d a h) := of_fields (by simp [encode]) (fun _ => by
  simp [encode, decodeFields, decodeCustom1, decodeGroup4, whenZero])
theorem vcvtHF (p : BitVec 3) (d : BitVec 5) (a : BitVec 5) (h : BitVec 1) : Statement (.vcvtHF p d a h) := of_fields (by simp [encode]) (fun _ => by
  simp [encode, decodeFields, decodeCustom1, decodeGroup4, whenZero])
theorem vqnt (p : BitVec 3) (d : BitVec 5) (a : BitVec 5) (b : BitVec 5) : Statement (.vqnt p d a b) := of_fields (by simp [encode]) (fun _ => by
  simp [encode, decodeFields, decodeCustom1, decodeGroup4])
theorem vdqnt (p : BitVec 3) (d : BitVec 5) (a : BitVec 5) (b : BitVec 5) : Statement (.vdqnt p d a b) := of_fields (by simp [encode]) (fun _ => by
  simp [encode, decodeFields, decodeCustom1, decodeGroup4])
theorem vbexp (p : BitVec 3) (d : BitVec 5) (a : BitVec 5) : Statement (.vbexp p d a) := of_fields (by simp [encode]) (fun _ => by
  simp [encode, decodeFields, decodeCustom1, decodeGroup4, whenZero])
theorem vld (p : BitVec 3) (d : BitVec 5) (a : BitVec 5) : Statement (.vld p d a) := of_fields (by simp [encode]) (fun _ => by
  simp [encode, decodeFields, decodeCustom1, decodeGroup5, whenZero])
theorem vst (p : BitVec 3) (d : BitVec 5) (a : BitVec 5) : Statement (.vst p d a) := of_fields (by simp [encode]) (fun _ => by
  simp [encode, decodeFields, decodeCustom1, decodeGroup5, whenZero])
theorem vlds (p : BitVec 3) (d : BitVec 5) (a : BitVec 5) (b : BitVec 5) : Statement (.vlds p d a b) := of_fields (by simp [encode]) (fun _ => by
  simp [encode, decodeFields, decodeCustom1, decodeGroup5])
theorem vsts (p : BitVec 3) (d : BitVec 5) (a : BitVec 5) (b : BitVec 5) : Statement (.vsts p d a b) := of_fields (by simp [encode]) (fun _ => by
  simp [encode, decodeFields, decodeCustom1, decodeGroup5])
theorem vldx (p : BitVec 3) (d : BitVec 5) (a : BitVec 5) (b : BitVec 5) : Statement (.vldx p d a b) := of_fields (by simp [encode]) (fun _ => by
  simp [encode, decodeFields, decodeCustom1, decodeGroup5])
theorem vstx (p : BitVec 3) (d : BitVec 5) (a : BitVec 5) (b : BitVec 5) : Statement (.vstx p d a b) := of_fields (by simp [encode]) (fun _ => by
  simp [encode, decodeFields, decodeCustom1, decodeGroup5])
theorem vredx (p : BitVec 3) (d : BitVec 5) (a : BitVec 5) (b : BitVec 5) : Statement (.vredx p d a b) := of_fields (by simp [encode]) (fun _ => by
  simp [encode, decodeFields, decodeCustom1, decodeGroup5])
theorem ldsG (a : BitVec 5) : Statement (.ldsG a) := of_fields (by simp [encode]) (fun _ => by
  simp [encode, decodeFields, decodeCustom2, whenZero])
theorem swsG : Statement .swsG := of_fields (by simp [encode]) (fun _ => by
  simp [encode, decodeFields, decodeCustom2, whenZero])
theorem mmaG (t : BitVec 3) (a : BitVec 5) (b : BitVec 5) : Statement (.mmaG t a b) := of_fields (by simp [encode]) (fun _ => by
  simp [encode, decodeFields, decodeCustom2, whenZero])
theorem mwait (a : BitVec 5) : Statement (.mwait a) := of_fields (by simp [encode]) (fun _ => by
  simp [encode, decodeFields, decodeCustom2, whenZero])
theorem mzero (t : BitVec 3) : Statement (.mzero t) := of_fields (by simp [encode]) (fun _ => by
  simp [encode, decodeFields, decodeCustom2, whenZero])
theorem aswap (d : BitVec 5) (t : BitVec 3) (b : BitVec 5) : Statement (.aswap d t b) := of_fields (by simp [encode]) (fun _ => by
  simp [encode, decodeFields, decodeCustom2, whenZero])
theorem mrec (d : BitVec 5) (t : BitVec 3) (b : BitVec 5) : Statement (.mrec d t b) := of_fields (by simp [encode]) (fun _ => by
  simp [encode, decodeFields, decodeCustom2, whenZero])
theorem mrd (d : BitVec 5) (t : BitVec 3) (b : BitVec 5) : Statement (.mrd d t b) := of_fields (by simp [encode]) (fun _ => by
  simp [encode, decodeFields, decodeCustom2, whenZero])
theorem mwr (t : BitVec 3) (a : BitVec 5) (b : BitVec 5) : Statement (.mwr t a b) := of_fields (by simp [encode]) (fun _ => by
  simp [encode, decodeFields, decodeCustom2, whenZero])
theorem maddv (t : BitVec 3) (a : BitVec 5) (b : BitVec 5) : Statement (.maddv t a b) := of_fields (by simp [encode]) (fun _ => by
  simp [encode, decodeFields, decodeCustom2, whenZero])
theorem mstat (d : BitVec 5) (a : BitVec 5) : Statement (.mstat d a) := of_fields (by simp [encode]) (fun _ => by
  simp [encode, decodeFields, decodeCustom2, whenZero])
theorem ginit (d : BitVec 5) (a : BitVec 5) (b : BitVec 5) : Statement (.ginit d a b) := of_fields (by simp [encode]) (fun _ => by
  simp [encode, decodeFields, decodeCustom2])
theorem gadd (d : BitVec 5) (a : BitVec 5) (b : BitVec 5) : Statement (.gadd d a b) := of_fields (by simp [encode]) (fun _ => by
  simp [encode, decodeFields, decodeCustom2])
theorem gaddv (d : BitVec 5) (a : BitVec 5) (b : BitVec 5) : Statement (.gaddv d a b) := of_fields (by simp [encode]) (fun _ => by
  simp [encode, decodeFields, decodeCustom2])
theorem gaband (d : BitVec 5) (a : BitVec 5) : Statement (.gaband d a) := of_fields (by simp [encode]) (fun _ => by
  simp [encode, decodeFields, decodeCustom2, whenZero])
theorem gstat (d : BitVec 5) (a : BitVec 5) : Statement (.gstat d a) := of_fields (by simp [encode]) (fun _ => by
  simp [encode, decodeFields, decodeCustom2, whenZero])
theorem grec (d : BitVec 5) (a : BitVec 5) (b : BitVec 5) : Statement (.grec d a b) := of_fields (by simp [encode]) (fun _ => by
  simp [encode, decodeFields, decodeCustom2])
theorem crd (d : BitVec 5) (a : BitVec 5) : Statement (.crd d a) := of_fields (by simp [encode]) (fun _ => by
  simp [encode, decodeFields, decodeCustom2, whenZero])
theorem cwr (d : BitVec 5) (a : BitVec 5) : Statement (.cwr d a) := of_fields (by simp [encode]) (fun _ => by
  simp [encode, decodeFields, decodeCustom2, whenZero])
theorem cmov (d : BitVec 5) (a : BitVec 5) : Statement (.cmov d a) := of_fields (by simp [encode]) (fun _ => by
  simp [encode, decodeFields, decodeCustom2, whenZero])
theorem cfill (d : BitVec 5) (a : BitVec 5) (b : BitVec 5) : Statement (.cfill d a b) := of_fields (by simp [encode]) (fun _ => by
  simp [encode, decodeFields, decodeCustom2])
theorem cwait (d : BitVec 5) (a : BitVec 5) : Statement (.cwait d a) := of_fields (by simp [encode]) (fun _ => by
  simp [encode, decodeFields, decodeCustom2, whenZero])
theorem cstat (d : BitVec 5) (a : BitVec 5) : Statement (.cstat d a) := of_fields (by simp [encode]) (fun _ => by
  simp [encode, decodeFields, decodeCustom2, whenZero])
theorem coll (d : BitVec 5) (a : BitVec 5) : Statement (.coll d a) := of_fields (by simp [encode]) (fun _ => by
  simp [encode, decodeFields, decodeCustom2, whenZero])
theorem lda (z : BitVec 2) (s : BitVec 3) (d : BitVec 5) (a : BitVec 5) : Statement (.lda z s d a) := of_fields (by simp [encode]) (fun _ => by
  simp [encode, decodeFields, decodeCustom3, whenZero])
theorem stl (z : BitVec 2) (s : BitVec 3) (a : BitVec 5) (b : BitVec 5) : Statement (.stl z s a b) := of_fields (by simp [encode]) (fun _ => by
  simp [encode, decodeFields, decodeCustom3, whenZero])
theorem amoadd (z : BitVec 1) (s : BitVec 2) (d : BitVec 5) (a : BitVec 5) (b : BitVec 5) : Statement (.amoadd z s d a b) := of_fields (by simp [encode]) (fun _ => by
  simp [encode, decodeFields, decodeCustom3])
theorem amoswap (z : BitVec 1) (s : BitVec 2) (d : BitVec 5) (a : BitVec 5) (b : BitVec 5) : Statement (.amoswap z s d a b) := of_fields (by simp [encode]) (fun _ => by
  simp [encode, decodeFields, decodeCustom3])
theorem amocas (z : BitVec 1) (s : BitVec 2) (d : BitVec 5) (a : BitVec 5) (b : BitVec 5) : Statement (.amocas z s d a b) := of_fields (by simp [encode]) (fun _ => by
  simp [encode, decodeFields, decodeCustom3])
theorem amoand (z : BitVec 1) (s : BitVec 2) (d : BitVec 5) (a : BitVec 5) (b : BitVec 5) : Statement (.amoand z s d a b) := of_fields (by simp [encode]) (fun _ => by
  simp [encode, decodeFields, decodeCustom3])
theorem amoor (z : BitVec 1) (s : BitVec 2) (d : BitVec 5) (a : BitVec 5) (b : BitVec 5) : Statement (.amoor z s d a b) := of_fields (by simp [encode]) (fun _ => by
  simp [encode, decodeFields, decodeCustom3])
theorem amoxor (z : BitVec 1) (s : BitVec 2) (d : BitVec 5) (a : BitVec 5) (b : BitVec 5) : Statement (.amoxor z s d a b) := of_fields (by simp [encode]) (fun _ => by
  simp [encode, decodeFields, decodeCustom3])
theorem amomin (z : BitVec 1) (s : BitVec 2) (d : BitVec 5) (a : BitVec 5) (b : BitVec 5) : Statement (.amomin z s d a b) := of_fields (by simp [encode]) (fun _ => by
  simp [encode, decodeFields, decodeCustom3])
theorem amomax (z : BitVec 1) (s : BitVec 2) (d : BitVec 5) (a : BitVec 5) (b : BitVec 5) : Statement (.amomax z s d a b) := of_fields (by simp [encode]) (fun _ => by
  simp [encode, decodeFields, decodeCustom3])
theorem amominu (z : BitVec 1) (s : BitVec 2) (d : BitVec 5) (a : BitVec 5) (b : BitVec 5) : Statement (.amominu z s d a b) := of_fields (by simp [encode]) (fun _ => by
  simp [encode, decodeFields, decodeCustom3])
theorem amomaxu (z : BitVec 1) (s : BitVec 2) (d : BitVec 5) (a : BitVec 5) (b : BitVec 5) : Statement (.amomaxu z s d a b) := of_fields (by simp [encode]) (fun _ => by
  simp [encode, decodeFields, decodeCustom3])
theorem amofadd (s : BitVec 2) (d : BitVec 5) (a : BitVec 5) (b : BitVec 5) : Statement (.amofadd s d a b) := of_fields (by simp [encode]) (fun _ => by
  have h1 : ∀ s : BitVec 2, (20#5 ++ s : BitVec 7).extractLsb' 3 4 = 10#4 := by decide
  simp [h1, encode, decodeFields, decodeCustom3])
theorem redadd (z : BitVec 1) (s : BitVec 2) (a : BitVec 5) (b : BitVec 5) : Statement (.redadd z s a b) := of_fields (by simp [encode]) (fun _ => by
  simp [encode, decodeFields, decodeCustom3, whenZero])
theorem redfadd (s : BitVec 2) (a : BitVec 5) (b : BitVec 5) : Statement (.redfadd s a b) := of_fields (by simp [encode]) (fun _ => by
  have h1 : ∀ s : BitVec 2, (2#5 ++ s : BitVec 7).extractLsb' 3 4 = 1#4 := by decide
  simp [h1, encode, decodeFields, decodeCustom3, whenZero])
theorem redmax (z : BitVec 1) (s : BitVec 2) (a : BitVec 5) (b : BitVec 5) : Statement (.redmax z s a b) := of_fields (by simp [encode]) (fun _ => by
  have h1 : ∀ z : BitVec 1, ¬(2#4 ++ z : BitVec 5) = 2#5 := by decide
  simp [h1, encode, decodeFields, decodeCustom3, whenZero])
theorem redmin (z : BitVec 1) (s : BitVec 2) (a : BitVec 5) (b : BitVec 5) : Statement (.redmin z s a b) := of_fields (by simp [encode]) (fun _ => by
  have h1 : ∀ z : BitVec 1, ¬(3#4 ++ z : BitVec 5) = 2#5 := by decide
  simp [h1, encode, decodeFields, decodeCustom3, whenZero])
theorem lde (d : BitVec 5) (a : BitVec 5) (b : BitVec 5) : Statement (.lde d a b) := of_fields (by simp [encode]) (fun _ => by
  simp [encode, decodeFields, decodeCustom3])
theorem ldfW (d : BitVec 5) (a : BitVec 5) : Statement (.ldfW d a) := of_fields (by simp [encode]) (fun _ => by
  simp [encode, decodeFields, decodeCustom3, whenZero])
theorem ldfD (d : BitVec 5) (a : BitVec 5) : Statement (.ldfD d a) := of_fields (by simp [encode]) (fun _ => by
  simp [encode, decodeFields, decodeCustom3, whenZero])
theorem stfW (a : BitVec 5) (b : BitVec 5) : Statement (.stfW a b) := of_fields (by simp [encode]) (fun _ => by
  simp [encode, decodeFields, decodeCustom3, whenZero])
theorem stfD (a : BitVec 5) (b : BitVec 5) : Statement (.stfD a b) := of_fields (by simp [encode]) (fun _ => by
  simp [encode, decodeFields, decodeCustom3, whenZero])
theorem sete (a : BitVec 5) (b : BitVec 5) : Statement (.sete a b) := of_fields (by simp [encode]) (fun _ => by
  simp [encode, decodeFields, decodeCustom3, whenZero])
theorem drain (d : BitVec 5) (a : BitVec 5) : Statement (.drain d a) := of_fields (by simp [encode]) (fun _ => by
  simp [encode, decodeFields, decodeCustom3, whenZero])
theorem fence (s : BitVec 3) : Statement (.fence s) := of_fields (by simp [encode]) (fun _ => by
  simp [encode, decodeFields, decodeCustom3, whenZero])
theorem tfence : Statement .tfence := of_fields (by simp [encode]) (fun _ => by
  simp [encode, decodeFields, decodeCustom3, whenZero])
theorem pbar : Statement .pbar := of_fields (by simp [encode]) (fun _ => by
  simp [encode, decodeFields, decodeCustom3, whenZero])
theorem pbarw : Statement .pbarw := of_fields (by simp [encode]) (fun _ => by
  simp [encode, decodeFields, decodeCustom3, whenZero])
theorem launchSubmit : Statement .launchSubmit := of_zero rfl
theorem distributorAccept : Statement .distributorAccept := of_zero rfl
theorem distributeIdentifier : Statement .distributeIdentifier := of_zero rfl
theorem gangDistribute : Statement .gangDistribute := of_zero rfl
theorem launchComplete : Statement .launchComplete := of_zero rfl
theorem launchTagFree : Statement .launchTagFree := of_zero rfl
theorem partnew : Statement .partnew := of_zero rfl
theorem partdel : Statement .partdel := of_zero rfl
theorem leasenew : Statement .leasenew := of_zero rfl
theorem leasedel : Statement .leasedel := of_zero rfl
theorem rights : Statement .rights := of_zero rfl
theorem qgrant : Statement .qgrant := of_zero rfl
theorem qtake : Statement .qtake := of_zero rfl
theorem slices : Statement .slices := of_zero rfl
theorem s1root : Statement .s1root := of_zero rfl
theorem s2root : Statement .s2root := of_zero rfl
theorem budgetAssign : Statement .budgetAssign := of_zero rfl
theorem budgetSet : Statement .budgetSet := of_zero rfl
theorem budgetAdd : Statement .budgetAdd := of_zero rfl
theorem budgetBind : Statement .budgetBind := of_zero rfl
theorem wdlim : Statement .wdlim := of_zero rfl
theorem driftlim : Statement .driftlim := of_zero rfl
theorem fgroup : Statement .fgroup := of_zero rfl
theorem aperture : Statement .aperture := of_zero rfl
theorem vfreset : Statement .vfreset := of_zero rfl
theorem attest : Statement .attest := of_zero rfl
theorem statewin : Statement .statewin := of_zero rfl
theorem evroute : Statement .evroute := of_zero rfl
theorem evackResolve : Statement .evackResolve := of_zero rfl
theorem evackKill : Statement .evackKill := of_zero rfl
theorem windowRegisterWrite : Statement .windowRegisterWrite := of_zero rfl
theorem vtbWrite : Statement .vtbWrite := of_zero rfl
theorem gtbWrite : Statement .gtbWrite := of_zero rfl
theorem cullWrite : Statement .cullWrite := of_zero rfl
theorem cullszWrite : Statement .cullszWrite := of_zero rfl
theorem latchRelease : Statement .latchRelease := of_zero rfl
theorem messageArrival : Statement .messageArrival := of_zero rfl
theorem handlerStart : Statement .handlerStart := of_zero rfl
theorem messageAgeing : Statement .messageAgeing := of_zero rfl
theorem watchdogExpiry : Statement .watchdogExpiry := of_zero rfl
theorem glimitExpiry : Statement .glimitExpiry := of_zero rfl
theorem sliceEnd : Statement .sliceEnd := of_zero rfl
theorem preemptionSwitch : Statement .preemptionSwitch := of_zero rfl
theorem chargeArrival : Statement .chargeArrival := of_zero rfl
theorem noticeDelivery : Statement .noticeDelivery := of_zero rfl
theorem ldfRetry : Statement .ldfRetry := of_zero rfl
theorem slotUnblock : Statement .slotUnblock := of_zero rfl
theorem storeBufferDrain : Statement .storeBufferDrain := of_zero rfl
theorem fill : Statement .fill := of_zero rfl
theorem writeback : Statement .writeback := of_zero rfl
theorem evict : Statement .evict := of_zero rfl
theorem pageWalk : Statement .pageWalk := of_zero rfl
theorem vectorCommandExecute : Statement .vectorCommandExecute := of_zero rfl
theorem copyStart : Statement .copyStart := of_zero rfl
theorem ecopy : Statement .ecopy := of_zero rfl
theorem copyComplete : Statement .copyComplete := of_zero rfl
theorem engineHeldDelivery : Statement .engineHeldDelivery := of_zero rfl
theorem engineFaultUpcall : Statement .engineFaultUpcall := of_zero rfl
theorem collectiveStart : Statement .collectiveStart := of_zero rfl
theorem collectiveComplete : Statement .collectiveComplete := of_zero rfl
theorem collectiveAbort : Statement .collectiveAbort := of_zero rfl
theorem gangBarrierComplete : Statement .gangBarrierComplete := of_zero rfl
theorem gangOperationAccept : Statement .gangOperationAccept := of_zero rfl
theorem passComplete : Statement .passComplete := of_zero rfl
theorem gatherContribution : Statement .gatherContribution := of_zero rfl
theorem gatherInitPerform : Statement .gatherInitPerform := of_zero rfl
theorem gatherAbandonPerform : Statement .gatherAbandonPerform := of_zero rfl
theorem gatherQueryPerform : Statement .gatherQueryPerform := of_zero rfl
theorem ldfHome : Statement .ldfHome := of_zero rfl
theorem stfHome : Statement .stfHome := of_zero rfl
theorem seteHome : Statement .seteHome := of_zero rfl
theorem continuationSend : Statement .continuationSend := of_zero rfl
theorem carriedCodeExecute : Statement .carriedCodeExecute := of_zero rfl
theorem jdecApply : Statement .jdecApply := of_zero rfl
theorem culletRefill : Statement .culletRefill := of_zero rfl
theorem driftGrant : Statement .driftGrant := of_zero rfl
theorem ddrain : Statement .ddrain := of_zero rfl
theorem forcedDrain : Statement .forcedDrain := of_zero rfl
theorem dieReset : Statement .dieReset := of_zero rfl
theorem staleResponseDrop : Statement .staleResponseDrop := of_zero rfl
theorem lehrAccept : Statement .lehrAccept := of_zero rfl
theorem lehrRetire : Statement .lehrRetire := of_zero rfl
theorem pwrfailN : Statement .pwrfailN := of_zero rfl
theorem powerLoss : Statement .powerLoss := of_zero rfl
theorem packageReset : Statement .packageReset := of_zero rfl
theorem leaseReset : Statement .leaseReset := of_zero rfl
theorem uncorrectableError : Statement .uncorrectableError := of_zero rfl
theorem homeTagParityError : Statement .homeTagParityError := of_zero rfl
theorem pairLinkFailure : Statement .pairLinkFailure := of_zero rfl
theorem hostLinkDown : Statement .hostLinkDown := of_zero rfl
theorem fabricPortDown : Statement .fabricPortDown := of_zero rfl
theorem fabricReplay : Statement .fabricReplay := of_zero rfl
theorem fabricAdmission : Statement .fabricAdmission := of_zero rfl
theorem fabricAck : Statement .fabricAck := of_zero rfl
theorem fabricTimeout : Statement .fabricTimeout := of_zero rfl
theorem clk : Statement .clk := of_zero rfl
theorem illegalInstruction : Statement .illegalInstruction := of_zero rfl
theorem clockLowering : Statement .clockLowering := of_zero rfl
theorem correctableError : Statement .correctableError := of_zero rfl
theorem hostLinkWrite : Statement .hostLinkWrite := of_zero rfl
theorem staleRequestDiscard : Statement .staleRequestDiscard := of_zero rfl
theorem migrationEngineCopy : Statement .migrationEngineCopy := of_zero rfl

end Sys2Proof.Laws.RoundTrip
end

