-- ==== Sys2Proof/Tests/Slice0.lean ====
section
/-! SUPPORT. The model's own tests: decode tests with words written out from the spec's encodings, an ill-formed term for each check of
WellFormed, for every statement with hypotheses a state and operands that meet them, and one-step tests with results worked by hand. -/

set_option Elab.async false

namespace Sys2Proof.Tests

open Sys2Proof Sys2Proof.Machine

/-! ### Small states -/

/-- A READY task of lease 0 at 0x1000 with some x registers. -/
def task (x : Tab Word := []) : Slot := { Slot.init with st := .ready, pc := 0x1000, x := x }
/-- The same task of the runtime class (R32). -/
def boss (x : Tab Word := []) : Slot := { task x with ss := 0x8000000#28 }
/-- A callee of one gate call, its frame lease-owned or partition-owned, with vectors or without. -/
def callee (own vec : Bool) (x : Tab Word := []) : Slot :=
  { task x with frames := [{ pc := 0x2000, x := [(5, 7#64)], dom := 3, ff := 1, ctype := 0, bexp := 127, lc := (0, 0), ls := (0, 0), le := (0, 0),
                             loops := 0, vec := vec, v := [], p := [], q := [], remaining := 9, own := own, index := 2, sbase := 0, ssize := 64 }] }
/-- Every right of domain 0 on the first segment and on the local window's. -/
def rights : List PlbEntry :=
  [{ lease := 0, dom := 0, seg := 0, r := true, w := true, x := true, g := true },
   { lease := 0, dom := 0, seg := 0x3FFFFFF, r := true, w := true, x := true, g := true }]
/-- The translation of page 2 to the same address in the interleaved window, of a kind. -/
def xlat (kind : Nat) : Xlat :=
  { lease := 0, page := 2, pa := 0x2000, ra := 0x2000, kind := kind, region := 1, wc1 := true, xc1 := true, lv1 := 3,
    wc2 := true, xc2 := true, lv2 := 3, dirty := true }
/-- One core with one task, its rights, and the translation of page 2 on its die. -/
def at0 (t : Slot) (kind : Nat := 0) : State :=
  { State.reset with cores := [(0, { Core.init with slots := [(0, t)], plb := rights })], dies := [(0, { Die.init with dtc := [xlat kind] })] }
/-- A state with the operands of an event. -/
def withEv (s : State) (e : EventArgs) : State := { s with ev := e }

def isOk {α : Type} (r : EStateM.Result Stop State α) (p : α → State → Bool := fun _ _ => true) : Bool :=
  match r with
  | .ok a s => p a s
  | .error _ _ => false
def isFault {α : Type} (r : EStateM.Result Stop State α) (cause : Nat) : Bool :=
  match r with
  | .error (.fault f) _ => f.cause == cause
  | _ => false
/-- The state that an outcome gives passes a test. -/
def gives (r : Host.Outcome State Fault Refusal) (p : State → Bool) : Bool :=
  match r with
  | .next s => p s
  | _ => false
def decodesTo (w : BitVec 32) (i : Instr) : Bool :=
  match decode w with
  | .ok j => j == i
  | .error _ => false
def isIllegal (w : BitVec 32) : Bool :=
  match decode w with
  | .ok _ => false
  | .error _ => true

/-! ### Witnesses of the statements: the machine, scalar forms, control -/

theorem witness_DecodeEncodeAgree : (Instr.addi 31 0 0xFFF#12).wellFormed = true ∧ encode (.addi 31 0 0xFFF#12) ≠ 0#32 := by decide
theorem witness_DecodeIsExact : decodesTo 0xFFF32293#32 (.slti 5 6 0xFFF#12) = true := by decide
theorem witness_StepKeepsMemory : memWf State.reset.mem = true ∧ gives (Sys2Proof.Machine.step State.reset) (fun _ => true) = true := by decide +kernel

theorem witness_StepKeepsMasks : State.reset.MasksWithin ∧ gives (Sys2Proof.Machine.step State.reset) (fun _ => true) = true :=
  ⟨⟨by simp [State.reset, tabFind], by simp [State.reset, tabFind], fun l v h => by
    have h' : l = 0 ∧ Lease.house = v := by simpa [State.leaseAt, State.reset, tabFind] using h
    obtain ⟨-, rfl⟩ := h'
    exact ⟨Partn.house, by decide +kernel⟩⟩, by decide +kernel⟩

/-- Core 0 about to issue, its task at a word fetched ahead, or at page 2 with a word to fetch. -/
def issuing (t : Slot) : State := { at0 t with agenda := [.issue 0] }
theorem witness_StepRunsDecoded_ahead :
    ((issuing { task with ahead := [0x00000013#32] }).coreAt 0).choose = some (0, 0) ∧ (issuing task).up = true ∧
    ((issuing task).coreAt 0).busy = 0 ∧ (at0 task).ownMove = .issue 0 ∧ (at0 task).agenda = [] := by decide +kernel
theorem witness_StepRunsDecoded_fetch :
    isOk (fetchAt 0x2000 { issuing { task with pc := 0x2000 } with core := 0, slot := 0 }) = true ∧
    isFault (fetchAt 0x800000000000 (issuing task)) causeIaddr = true := by decide +kernel
/-- The line of page 2 held on die 0. -/
def heldLine (kind : Nat) (remote : Bool) (bytes : List Byte) (dirty : BitVec 16) : Line :=
  { x := xlat kind, line := 0x80, remote := remote, bytes := bytes, dirty := dirty, poison := false }
def holding (t : Slot) (l : Line) (kind : Nat := 0) : State := { at0 t kind with dies := [(0, { Die.init with dtc := [xlat kind], lines := [l] })] }
theorem witness_StepRunsDecoded_held :
    let s := { holding task (heldLine 0 false [] 0) with mem := [(0x2000, 0x13#8)] }
    s.lineOf 0 0 (0x2000 / 64) = some (heldLine 0 false [] 0) ∧ (xlat 0).cached = true ∧ ownView 0 (0x2000 + 0x2000 % 4096) = false ∧
    ownView 2 (0x2000 + 0x2000 % 4096) = true ∧ s.rangePoisoned 0x2000 4 = false ∧ isOk (fetchAt 0x2000 s) = true := by decide +kernel

/-! ### Words and well-formedness -/

/-- A word by its fields as R18 and R19 lay them out: bits [31:25], [24:20], [19:15], [14:12], [11:7], [6:0]. -/
def word (f7 : BitVec 7) (b a : BitVec 5) (f3 : BitVec 3) (d : BitVec 5) (op : BitVec 7) : BitVec 32 := f7 ++ b ++ a ++ f3 ++ d ++ op
/-- One word and more of every family, bit by bit from the tables of R24 to R29. -/
theorem test_words : ∀ e ∈ [
    (word 0b1000000 0b00000 0b00000 0b001 0b00101 0b0110111, Instr.lui 5 0x80001#20), (word 0b1111111 0b11100 0b00110 0b010 0b00101 0b0000011, .lw 5 6 0xFFC#12),
    (word 0b0000001 0b00111 0b00110 0b011 0b01000 0b0100011, .sd 6 7 0x028#12), (word 0b0000000 0b00011 0b00110 0b000 0b00001 0b0001011, .loop 1 6 3),
    (word 0b0000001 0b11111 0b00000 0b100 0b00000 0b0001011, .gate 63), (word 0b0000000 0b00000 0b00000 0b101 0b00000 0b0001011, .gret),
    (word 0b0000010 0b00111 0b00110 0b011 0b00101 0b0001011, .waita 5 6 7), (word 0b0000011 0b00000 0b00110 0b011 0b00101 0b0001011, .wake 5 6),
    (word 0b0000100 0b00000 0b00110 0b011 0b00101 0b0001011, .barr 5 6), (word 0b0000111 0b00000 0b00110 0b010 0b00101 0b0001011, .lnch 5 6),
    (word 0b0000100 0b00000 0b00110 0b010 0b00101 0b0001011, .tagen 5 6), (word 0b0000011 0b00111 0b00110 0b010 0b00101 0b0001011, .jdec 5 6 7),
    (word 0b0000111 0b00111 0b00110 0b100 0b00101 0b1110011, .slotwr 5 6 7), (word 0b1101000 0b00000 0b00110 0b000 0b00101 0b1111011, .lda 3 2 5 6),
    (word 0b1010000 0b00111 0b00110 0b001 0b00000 0b1111011, .stl 2 4 6 7), (word 0b0000100 0b00000 0b00000 0b101 0b00000 0b1111011, .fence 4),
    (word 0b0000110 0b00111 0b00110 0b010 0b00101 0b1111011, .amoadd 1 2 5 6 7), (word 0b1010011 0b00111 0b00110 0b010 0b00101 0b1111011, .amofadd 3 5 6 7),
    (word 0b0010101 0b00111 0b00110 0b011 0b00000 0b1111011, .redmax 1 1 6 7), (word 0b0000101 0b00111 0b00110 0b100 0b00000 0b1111011, .sete 6 7),
    (word 0b0000000 0b00111 0b00110 0b100 0b00101 0b1111011, .lde 5 6 7), (word 0b0000110 0b00000 0b00110 0b100 0b00101 0b1111011, .drain 5 6),
    (word 0b0000000 0b00000 0b00110 0b010 0b00101 0b1011011, .crd 5 6), (word 0b0000011 0b00111 0b00110 0b010 0b00101 0b1011011, .cfill 5 6 7),
    (word 0b0000110 0b00000 0b00110 0b010 0b00101 0b1011011, .coll 5 6), (word 0b0000001 0b00111 0b00110 0b000 0b00101 0b0101011, .vaddF 1 5 6 7),
    (word 0b1100001 0b00111 0b00110 0b000 0b00101 0b0101011, .vfmasF 1 5 6 7), (word 0b0100001 0b00111 0b00110 0b010 0b00010 0b0101011, .vcmpILT 1 2 6 7),
    (word 0b0111000 0b00100 0b00011 0b010 0b00010 0b0101011, .pand 2 3 4), (word 0b1011000 0b00000 0b00110 0b010 0b00010 0b0101011, .pset 2 6),
    (word 0b0000001 0b00000 0b00110 0b101 0b00101 0b0101011, .vld 1 5 6), (word 0b0101001 0b00111 0b00110 0b101 0b00101 0b0101011, .vstx 1 5 6 7),
    (word 0b0110001 0b00111 0b00110 0b101 0b00101 0b0101011, .vredx 1 5 6 7), (word 0b0100001 0b00111 0b00110 0b100 0b00101 0b0101011, .vqnt 1 5 6 7),
    (word 0b0010000 0b01001 0b00110 0b011 0b00101 0b0101011, .vmvxv 5 6 9), (word 0b0101001 0b00111 0b00110 0b011 0b00101 0b0101011, .vslide 1 5 6 7),
    (word 0b0001001 0b00000 0b00010 0b011 0b00101 0b0101011, .vbcastq 1 5 2), (word 0b0000101 0b00111 0b00010 0b000 0b00101 0b1011011, .aswap 5 2 7),
    (word 0b0000111 0b00111 0b00010 0b000 0b00101 0b1011011, .mrd 5 2 7), (word 0b0001001 0b00111 0b00110 0b000 0b00010 0b1011011, .maddv 2 6 7),
    (word 0b0000100 0b00000 0b00000 0b000 0b00111 0b1011011, .mzero 7), (word 0b0000000 0b00111 0b00110 0b001 0b00101 0b1011011, .ginit 5 6 7),
    (word 0b0000001 0b00111 0b00110 0b001 0b00101 0b1011011, .gadd 5 6 7), (word 0b0000000 0b00110 0b00011 0b111 0b00101 0b1110011, .csrrci 5 3 0x006#12)],
    decodesTo e.1 e.2 = true := by decide +kernel
/-- The worked words of the rules. -/
theorem test_worked_words : ∀ e ∈ [(0xFFF32293#32, Instr.slti 5 6 0xFFF#12), (0x43F3D393#32, .srai 7 7 63), (0x6082D293#32, .rori 5 5 8), (0x407302B3#32, .sub 5 6 7), (0x02C5D533#32, .divu 10 11 12),
    (0x0A7312B3#32, .clmulh 5 6 7), (0x0A0342B3#32, .cpop 5 6), (0x007302D3#32, .faddS 5 6 7 0), (0x58059553#32, .fsqrtS 10 11 1), (0xE00312D3#32, .fclassS 5 6), (0x407302C3#32, .fmaddS 5 6 7 8 0),
    (0x00008067#32, .jalr 0 1 0), (0x0032800B#32, .loop 0 5 3), (0x1030100B#32, .fmt 0x103), (0x0000300B#32, .yield), (0x0200300B#32, .endTask), (0x0201630B#32, .qpop 6 2), (0x0002E10B#32, .qpush 2 5),
    (0x0073228B#32, .send 5 6 7), (0x00629073#32, .csrrw 0 5 6), (0x000542F3#32, .resume 5 10), (0x06B542F3#32, .plbinv 5 10 11), (0x08B542F3#32, .tlbi1 5 10 11), (0x0AB542F3#32, .tlbi2 5 10 11),
    (0x0C05C573#32, .mgmt 10 11), (0x2000507B#32, .tfence), (0x0400507B#32, .fence 2)], decodesTo e.1 e.2 = true := by decide +kernel
/-- Words that no entry has: all zeros, all ones, a compressed word, unassigned opcodes and functions, reserved fields. -/
theorem test_illegal_words : ([0#32, 0xFFFFFFFF#32, 0x00000001#32, 0x00000007#32, 0x02002033#32, 0x0A007033#32, 0x00004053#32, 0x0008000B#32, 0x0000000B#32, 0x00000FFF#32] : List (BitVec 32)).all isIllegal = true := by decide +kernel

/-- A term of every check of `wellFormed` that it refuses: offsets, rounding, CSRs, loop counts, format words, predicates, pairs, scopes. -/
theorem test_ill_formed : ∀ i ∈ [Instr.jal 0 2#21, .beq 1 2 2#13, .bne 1 2 6#13, .blt 1 2 1#13, .bge 1 2 2#13, .bltu 1 2 2#13, .bgeu 1 2 2#13, .faddS 1 2 3 4#3, .fsubS 1 2 3 5#3, .fmulS 1 2 3 6#3, .fdivS 1 2 3 4#3,
    .fsqrtS 1 2 5#3, .fcvtWS 1 2 6#3, .fcvtLS 1 2 4#3, .fcvtSW 1 2 5#3, .fcvtSL 1 2 6#3, .fmaddS 1 2 3 4 4#3, .csrrw 1 2 0x000#12, .csrrs 1 2 0x001#12, .csrrc 1 0 0x00B#12, .csrrwi 1 0 0x060#12, .csrrsi 1 1 0x050#12,
    .csrrci 1 0 0xFFF#12, .loop 0 1 0, .fmt 0x800#12, .fmt 0x180#12, .fmt 0x050#12, .fmt 0x007#12, .vcmpFEQ 1 0 2 3, .vcmpFLT 1 0 2 3, .vcmpFLE 1 0 2 3, .vcmpIEQ 1 0 2 3, .vcmpILT 1 0 2 3, .vcmpILTU 1 0 2 3, .pand 0 1 2,
    .por 0 1 2, .pxor 0 1 2, .pnot 0 1, .pset 0 1, .vqnt 1 2 3 4, .vdqnt 1 3 2 4, .vbexp 1 2 3, .vredx 0 1 2 3, .lda 0 4 1 2, .stl 0 5 1 2, .fence 5], i.wellFormed = false := by decide +kernel
theorem witness_WordsDecode : (1#32).extractLsb' 0 2 ≠ 3#2 ∧ fieldOp 0x00000FFF#32 = 0x7F#7 := by decide

theorem witness_HardwareLoops :
    let s := at0 { task [(5, 3#64)] with lc := (2, 1), ls := (0x0F00, 0x0F80), le := (0x1000, 0x1000), ss := 0#28 }
    let b := at0 { (task [(5, 3#64), (6, 0x100000000#64)]).setLoop 0 true with lc := (2, 1), ls := (0x0F00, 0x0F80), le := (0x1000, 0x1000) }
    s.cur.pfx = none ∧ (s.cur.getX 5).toNat % 2 ^ 32 ≠ 0 ∧ s.cur.loopOn 0 = false ∧ (b.cur.getX 6).toNat % 2 ^ 32 = 0 ∧ b.cur.loopOn 0 = true ∧
    b.cur.leN 0 = b.cur.pc ∧ 1 < (b.cur.lcN 0).toNat ∧ (b.cur.setLoop 1 true).loopOn 1 = true ∧ (b.cur.lcN 1).toNat ≤ 1 := by decide +kernel

/-- What an instruction at 0x1000 leaves in x5, with some registers set. -/
def x5 (x : Tab Word) (i : Instr) (ff : BitVec 8 := 0) : Option Word :=
  match exec i (at0 { task x with ff := ff }) with
  | .next s => some (s.cur.getX 5)
  | _ => none
/-- The PC it leaves. -/
def pcAfter (x : Tab Word) (i : Instr) : Option (BitVec 48) :=
  match exec i (at0 (task x)) with
  | .next s => some s.cur.pc
  | _ => none
/-- The flags it leaves. -/
def ffAfter (x : Tab Word) (i : Instr) : Option (BitVec 8) :=
  match exec i (at0 (task x)) with
  | .next s => some s.cur.ff
  | _ => none
/-- The cause of the lease-owned fault that parks its slot. -/
def faults (s : State) (i : Instr) : Option (BitVec 16) :=
  match exec i s with
  | .next t => if t.cur.st = .parked .fault then some (t.lcoreAt 0 0).fca else none
  | _ => none

theorem witness_ImmediateForms : (at0 (task [(6, 0#64)])).cur.pfx = none ∧ (24#6 ≠ 0#6 ∧ 63#6 ≠ 16#6) := by decide +kernel
/-- Worked by hand: 5 - 1; -1 < 5 signed; 5 below 2^64 - 1 unsigned; the top bit shifted; 5 rotated right by 1. -/
theorem test_op_imm : ∀ e ∈ [(Instr.addi 5 6 0xFFF#12, 4#64), (.slti 5 7 5#12, 1#64), (.sltiu 5 6 0xFFF#12, 1#64), (.xori 5 6 0xFFF#12, 0xFFFFFFFFFFFFFFFA#64),
    (.ori 5 6 2#12, 7#64), (.andi 5 7 0x7F0#12, 0x7F0#64), (.slli 5 6 63#6, 0x8000000000000000#64), (.srli 5 7 63#6, 1#64), (.srai 5 7 63#6, 0xFFFFFFFFFFFFFFFF#64),
    (.rori 5 6 1#6, 0x8000000000000002#64), (.lui 5 0x80000#20, 0xFFFFFFFF80000000#64), (.auipc 5 1#20, 0x2000#64)],
    x5 [(6, 5#64), (7, 0xFFFFFFFFFFFFFFFF#64)] e.1 = some e.2 := by decide +kernel
/-- x0 discards a write, and x[rd] may name its own source. -/
theorem test_x0_and_self : x5 [(5, 7#64)] (.addi 0 5 1#12) = some 7 ∧ x5 [(5, 7#64)] (.add 5 5 5) = some 14 := by decide +kernel

theorem witness_OpForms : (at0 (task [(6, 5#64), (7, 64#64)])).cur.pfx = none := by decide
theorem test_op : ∀ e ∈ [(Instr.add 5 6 7, 4#64), (.sub 5 6 7, 6#64), (.sll 5 6 8, 10#64), (.slt 5 7 6, 1#64), (.sltu 5 7 6, 0#64), (.xor 5 6 7, 0xFFFFFFFFFFFFFFFA#64),
    (.srl 5 7 7, 1#64), (.sra 5 7 7, 0xFFFFFFFFFFFFFFFF#64), (.or 5 6 8, 0x45#64), (.and 5 7 8, 0x41#64)],
    x5 [(6, 5#64), (7, 0xFFFFFFFFFFFFFFFF#64), (8, 0x41#64)] e.1 = some e.2 := by decide +kernel

theorem witness_MulDivForms : (at0 (task [(6, 0x8000000000000000#64), (7, 0xFFFFFFFFFFFFFFFF#64)])).cur.pfx = none := by decide
/-- MIN by -1, a division by zero, -7 by 2 and -7 rem 2 (R122). -/
theorem test_mul_div : ∀ e ∈ [(Instr.mul 5 7 7, 1#64), (.mulh 5 7 7, 0#64), (.mulhu 5 7 7, 0xFFFFFFFFFFFFFFFE#64), (.div 5 6 7, 0x8000000000000000#64),
    (.rem 5 6 7, 0#64), (.div 5 8 0, 0xFFFFFFFFFFFFFFFF#64), (.rem 5 8 0, 0xFFFFFFFFFFFFFFF9#64), (.div 5 8 9, 0xFFFFFFFFFFFFFFFD#64),
    (.rem 5 8 9, 0xFFFFFFFFFFFFFFFF#64), (.divu 5 7 9, 0x7FFFFFFFFFFFFFFF#64), (.remu 5 7 9, 1#64), (.divu 5 9 0, 0xFFFFFFFFFFFFFFFF#64)],
    x5 [(6, 0x8000000000000000#64), (7, 0xFFFFFFFFFFFFFFFF#64), (8, 0xFFFFFFFFFFFFFFF9#64), (9, 2#64)] e.1 = some e.2 := by decide +kernel

theorem witness_BitForms : (at0 (task [(6, 0#64), (7, 1#64)])).cur.pfx = none ∧ 1#5 ≠ 0#5 := by decide
/-- (x + 1)^2 = x^2 + 1 over GF(2); 2^63 squared has its one bit at 126; 40 leading zeros of 2^23; bytes reversed. -/
theorem test_bits : ∀ e ∈ [(Instr.clmul 5 6 6, 5#64), (.clmulh 5 7 7, 0x4000000000000000#64), (.clz 5 8, 40#64), (.clz 5 0, 64#64), (.ctz 5 8, 23#64),
    (.ctz 5 0, 64#64), (.cpop 5 9, 5#64), (.ror 5 6 6, 0x6000000000000000#64), (.bswap 5 9, 0x1700000000000001#64)],
    x5 [(6, 3#64), (7, 0x8000000000000000#64), (8, 0x800000#64), (9, 0x0100000000000017#64)] e.1 = some e.2 := by decide +kernel

theorem witness_FpRoundingForms : (at0 (task [(6, 0x3F800000#64)])).cur.pfx = none ∧ 7#3 = 7#3 ∧ 0#3 ≠ 7#3 := by decide
/-- 1 + 1; 1 - 2; 2 * 2; 1 / 2; sqrt 4; 2 * 2 + 1; 1 / 0 with DZ (bit 3); -1.5 to an integer by RNE and RTZ; -1 to FP32. -/
theorem test_fp : ∀ e ∈ [(Instr.faddS 5 6 6 0#3, 0x40000000#64, 0#8), (.fsubS 5 6 7 0#3, 0xBF800000#64, 0#8), (.fmulS 5 7 7 0#3, 0x40800000#64, 0#8),
    (.fdivS 5 6 7 0#3, 0x3F000000#64, 0#8), (.fsqrtS 5 8 0#3, 0x40000000#64, 0#8), (.fmaddS 5 7 7 6 0#3, 0x40A00000#64, 0#8),
    (.fcvtWS 5 9 0#3, 0xFFFFFFFFFFFFFFFE#64, 1#8), (.fcvtLS 5 9 1#3, 0xFFFFFFFFFFFFFFFF#64, 1#8), (.fcvtSW 5 10 0#3, 0xBF800000#64, 0#8),
    (.fcvtSL 5 10 0#3, 0xBF800000#64, 0#8), (.fclassS 5 9, 2#64, 0#8), (.fsgnjS 5 6 9, 0xBF800000#64, 0#8), (.fsgnjnS 5 6 9, 0x3F800000#64, 0#8),
    (.fsgnjxS 5 9 9, 0x3FC00000#64, 0#8), (.fminS 5 6 9, 0xBFC00000#64, 0#8), (.fmaxS 5 6 9, 0x3F800000#64, 0#8), (.feqS 5 6 6, 1#64, 0#8),
    (.fltS 5 9 6, 1#64, 0#8), (.fleS 5 6 6, 1#64, 0#8)],
    let x : Tab Word := [(6, 0x3F800000#64), (7, 0x40000000#64), (8, 0x40800000#64), (9, 0xBFC00000#64), (10, 0xFFFFFFFFFFFFFFFF#64)]
    x5 x e.1 = some e.2.1 ∧ ffAfter x e.1 = some e.2.2 := by decide +kernel
theorem witness_FpRounding :
    fpExp 0x3F800000#32 ≠ 255 ∧ fpVal 0x3F800000#32 = .fin false 0x800000 (-23) ∧ fpIsNaN 0x7FC00000#32 = true ∧ 2 ^ 24 ≤ (2 ^ 120 - 1 : Nat) ∧
    (2 ^ (23 + 2) ≤ 2 ^ 25 + 2 ∧ 2 ^ 25 + 2 < 2 ^ (24 + 2) ∧ (2 ^ 25 + 2) % 2 ^ 2 = 2 ∧ (2 ^ 25 + 2) / 2 ^ 2 % 2 = 0 ∧ ((2 ^ 25 + 2) / 2 ^ 2 + 1) * 2 ^ 2 < 2 ^ 128) ∧
    (2 ^ (23 + 104) ≤ 2 ^ 128 - 1 ∧ 2 ^ 128 - 1 < 2 ^ (24 + 104) ∧ 2 ^ 128 ≤ ((2 ^ 128 - 1) / 2 ^ 104 + 1) * 2 ^ 104) ∧
    (1 ≤ 1 ∧ 0 < 1 ∧ 1 + 2 ^ 1 < 2 ^ (23 + 1)) := by decide +kernel
theorem witness_FpRounding_operations :
    fpVal 0x40000000#32 = .fin false 0x800000 (-22) ∧ fpVal 0xBF800000#32 = .fin true 0x800000 (-23) ∧ fpVal 0#32 = .fin false 0 (-149) ∧ fpVal 0x80000000#32 = .fin true 0 (-149) ∧
    fpVal 0x7F800000#32 = .inf false ∧ fpVal 0xFF800000#32 = .inf true ∧ fpIsZero 0#32 = true ∧ fpIsNaN 0x3F800000#32 = false ∧ fpIsZero 0x3F800000#32 = false ∧
    (2 ^ 42 * 2 ^ 42 ≤ 0x800000 * 2 ^ 61 ∧ 0x800000 * 2 ^ 61 < (2 ^ 42 + 1) * (2 ^ 42 + 1)) ∧ ((-23 : Int) % 2 ≠ 0) := by decide +kernel
/-- Ties and directed roundings by hand (R125): 2^25 + 2 and 2^25 + 6 are halfway between two values, 2^25 + 1 is not. -/
theorem test_rounding : roundFp 0 false (2 ^ 25 + 2) 0 = (0x4C000000, flagNX) ∧ roundFp 0 false (2 ^ 25 + 6) 0 = (0x4C000002, flagNX) ∧
    roundFp 3 false (2 ^ 25 + 1) 0 = (0x4C000001, flagNX) ∧ roundFp 2 false (2 ^ 25 + 3) 0 = (0x4C000000, flagNX) ∧ roundFp 0 true (2 ^ 128) 0 = (0xFF800000, flagOF ||| flagNX) ∧
    roundFp 1 true (2 ^ 128) 0 = (0xFF7FFFFF, flagOF ||| flagNX) ∧ roundFp 0 false 3 (-150) = (2, flagNX ||| flagUF) ∧ roundFp 0 false 1 (-149) = (1, 0) := by decide +kernel
theorem witness_FpChoiceForms : (at0 (task [(6, 0x80000000#64), (7, 0#64)])).cur.pfx = none := by decide
theorem witness_FpClassForm : (at0 (task [(6, 0x7F800000#64)])).cur.pfx = none := by decide

theorem witness_Jumps :
    let s := at0 (task [(6, 0x2002#64), (7, 0x7FFFFFFFFFFC#64), (8, 0x800000000000#64)])
    s.cur.pfx = none ∧ (s.cur.getX 6).extractLsb' 0 2 ≠ 0#2 ∧ (s.cur.getX 7).extractLsb' 0 2 = 0#2 ∧ (s.cur.getX 7).extractLsb' 47 17 = 0#17 ∧
    (s.cur.getX 8).extractLsb' 0 2 = 0#2 ∧ (s.cur.getX 8).extractLsb' 47 17 ≠ 0#17 ∧
    (s.cur.pc.zeroExtend 64 + (0x1FF000#21).signExtend 64 : Word).extractLsb' 47 17 = 0#17 ∧
    (s.cur.pc.zeroExtend 64 + (0x1FE000#21).signExtend 64 : Word).extractLsb' 47 17 ≠ 0#17 := by decide +kernel
theorem test_jumps : ∀ e ∈ [(Instr.jal 5 0x1FFFFC#21, 0xFFC#48), (.jalr 5 6 0xFFE#12, 0x2000#48), (.beq 6 6 8#13, 0x1008#48), (.bne 6 6 8#13, 0x1004#48),
    (.blt 7 6 0x1FFC#13, 0xFFC#48), (.bge 6 7 8#13, 0x1008#48), (.bltu 7 6 8#13, 0x1004#48), (.bgeu 7 6 8#13, 0x1008#48)],
    pcAfter [(6, 0x2002#64), (7, 0xFFFFFFFFFFFFFFFF#64)] e.1 = some e.2 := by decide +kernel
theorem test_link : x5 [(6, 0x2000#64)] (.jalr 5 6 0#12) = some 0x1004 ∧ x5 [(6, 0x2000#64)] (.jal 5 0x800#21) = some 0x1004 ∧
    faults (at0 (task [(6, 0x2002#64)])) (.jalr 5 6 0#12) = some 0x03 := by decide +kernel
theorem witness_BranchForms : (at0 (task [(6, 1#64)])).cur.pfx = none ∧ (8#13).extractLsb' 0 2 = 0#2 ∧
    (0x1000#64 + (8#13).signExtend 64 : Word).extractLsb' 47 17 = 0#17 ∧ (0x7FFFFFFFFFF8#64 + (8#13).signExtend 64 : Word).extractLsb' 47 17 ≠ 0#17 ∧
    ((at0 task).cur.getX 6 = (at0 task).cur.getX 7) := by decide

theorem witness_YieldEndAndQueues :
    let s := at0 { task with q := [(0, [1, 2, 3, 4]), (1, [1, 2, 3])], counted := true, tag := 1 }
    let w : State := { s with launches := [(1, { lease := 0, fn := none, hdr := [], hdrDva := 0, account := 0, open_ := 1, next := 0, sent := 1, groups := [], rows := [], completed := false })] }
    w.cur.pfx = none ∧ w.cur.frames = [] ∧ (w.coreAt 0).vecq = [] ∧ w.cur.counted = true ∧ (tabFind w.launches w.cur.tag).isSome = true ∧
    tabFind ({ s.coreAt 0 with run := [(s.cur.cls * 4 + s.cur.prio, 2 * 0)] } : Core).run (s.cur.cls * 4 + s.cur.prio) = some (2 * s.slot) ∧ tabFind (s.coreAt 0).run (s.cur.cls * 4 + s.cur.prio) = none ∧
    4 ≤ (w.cur.getQ 0).length ∧ (w.cur.getQ 1).length < 4 ∧ w.cur.getQ 1 = 1 :: [2, 3] ∧ w.cur.getQ 2 = [] ∧ (at0 (callee true false)).cur.frames ≠ [] := by decide +kernel
theorem test_queues :
    gives (exec (.qpush 1 6) (at0 (task [(6, 9#64)]))) (fun s => s.cur.getQ 1 = [9]) = true ∧
    gives (exec (.qpop 5 1) (at0 { task with q := [(1, [7, 8])] })) (fun s => s.cur.getX 5 = 7 && s.cur.getQ 1 = [8]) = true ∧
    gives (exec (.qpop 5 1) (at0 task)) (fun s => s.cur.st = .blocked (.on (.qpop 5 1)) && s.cur.pc = 0x1000) = true ∧
    gives (exec (.qcnt 5 1) (at0 { task with q := [(1, [7, 8])] })) (fun s => s.cur.getX 5 = 2) = true ∧
    gives (exec .endTask (at0 task)) (fun s => s.cur.st = .free) = true ∧
    gives (exec .yield (at0 { task with wdc := 5 })) (fun s => s.cur.wdc = 0 && s.cur.pc = 0x1004) = true ∧
    gives (exec .yield (at0 (task.setPfx (some 3)))) (fun s => s.cur.pfx = some 3 && s.cur.pc = 0x1004) = true := by decide +kernel
theorem test_loop :
    gives (exec (.loop 0 6 2) (at0 (task [(6, 3#64)]))) (fun s => s.cur.lc.1 = 3 && s.cur.ls.1 = 0x1004 && s.cur.le.1 = 0x1008 && s.cur.loopOn 0) = true ∧
    gives (exec (.loop 0 0 2) (at0 task)) (fun s => s.cur.pc = 0x100C && !s.cur.loopOn 0) = true ∧
    gives (exec (.fmt 0x103) (at0 task)) (fun s => s.cur.pfx = some 0x103 && s.cur.pc = 0x1004) = true := by decide +kernel

/-! ### Witnesses and steps: CSRs, faults, the forms on slots -/

theorem witness_CsrForms :
    let s := at0 (task [(6, 0x85#64)])
    let b := at0 (boss [(6, 0x85#64)])
    let s' := s.finishVec 0 0
    let b' := b.finishVec 0 0
    s.cur.pfx = none ∧ s'.cur.cls ≠ 2 ∧ (0x060#12).toNat = 0x060 ∧ (0x030 ≤ (0x030#12).toNat ∧ (0x03B#12).toNat ≤ 0x03B) ∧ b.cur.pfx = none ∧ b'.cur.cls = 2 ∧
    b'.gtbIsLocked b'.cur.lease = false ∧ ({ b' with gangs := [] } : State).gtbIsLocked b'.cur.lease = false := by decide +kernel
theorem test_csr :
    gives (exec (.csrrw 5 6 0x005#12) (at0 (task [(6, 0xE5#64)]))) (fun s => s.cur.ff = 0x05 && s.cur.getX 5 = 0) = true ∧
    gives (exec (.csrrs 5 6 0x009#12) (at0 { task [(6, 0x81#64)] with ctype := 2 })) (fun s => s.cur.ctype = 0x83 && s.cur.getX 5 = 2) = true ∧
    gives (exec (.csrrc 5 6 0x00A#12) (at0 (task [(6, 0x0F#64)]))) (fun s => s.cur.bexp = 0x70 && s.cur.getX 5 = 127) = true ∧
    gives (exec (.csrrwi 5 31 0x010#12) (at0 task)) (fun s => s.cur.lc.1 = 31) = true ∧
    gives (exec (.csrrsi 5 0 0x011#12) (at0 { task with ls := (0x44, 0) })) (fun s => s.cur.getX 5 = 0x44) = true ∧
    gives (exec (.csrrci 5 3 0x006#12) (at0 { task with phase := 0xF })) (fun s => s.cur.phase = 0xC) = true ∧
    faults (at0 (task [(6, 1#64)])) (.csrrw 5 6 0x030#12) = some 0x02 ∧ faults (at0 task) (.csrrs 5 0 0x060#12) = some 0x02 := by decide +kernel

def plainFault : FaultInfo := { cause := 0x03, addr := some 0x2002#64, level := some 0#64 }
theorem witness_FaultEntry :
    let s := at0 task
    let b := at0 boss
    ((s.slotAt 0 0).frames = [] ∧ plainFault.stage2 = false ∧ (s.slotAt 0 0).cls ≠ 2 ∧ plainFault.addr = some 0x2002 ∧ plainFault.level = some 0) ∧
    ((b.slotAt 0 0).frames = [] ∧ (b.slotAt 0 0).cls = 2) ∧ ({ plainFault with stage2 := true } : FaultInfo).stage2 = true := by decide +kernel
theorem test_fault_entry :
    let s := (at0 (task [(6, 7#64)])).takeFault 0 0 plainFault 0 .fault
    s.cur.st = .parked .fault ∧ s.cur.pc = 0x1000 ∧ s.cur.getX 6 = 7 ∧ (s.lcoreAt 0 0).fca = 3 ∧ (s.lcoreAt 0 0).fad = 0x2002 ∧
    ((tabFind (s.coreAt 0).reserve 0).map (·.args)) = some [0, 3, 0x2002, 0x1000, 0, 0] := by decide +kernel
/-- A vector command of the callee that the engine has not executed. -/
def stillRunning : VecCmd := { instr := .viota 0 1, slot := 0, gen := 0, a := 0, b := 0, rm := 0, pfx := none, bexp := 127, epoch := 0, places := [] }
theorem witness_CalleeFaults :
    let s := fun (own : Bool) => at0 (callee own false)
    ((s true).slotAt 0 0).frames ≠ [] ∧ (((s true).slotAt 0 0).frames.head?.map (·.own)) = some true ∧ (((s false).slotAt 0 0).frames.head?.map (·.own)) = some false ∧
    plainFault.stage2 = false ∧ plainFault.gate = false ∧ plainFault.cause ≠ 0x1B ∧ ({ plainFault with cause := 0x1B } : FaultInfo).cause = 0x1B ∧
    ((s false).slotAt 0 0).cls ≠ 2 ∧ ((s true).coreAt 0).vecq = [] ∧
    (((s true).setCore 0 { (s true).coreAt 0 with vecq := [stillRunning] }).coreAt 0).vecq = [stillRunning] ∧ stillRunning.slot = 0 ∧ stillRunning.gen = ((s true).slotAt 0 0).gen := by decide +kernel
theorem test_callee_fault :
    let s := (at0 (callee true false)).takeFault 0 0 plainFault 0 .fault
    s.cur.frames = [] ∧ s.cur.st = .ready ∧ s.cur.pc = 0x2000 ∧ s.cur.getX 5 = 7 ∧ s.cur.getX 10 = 0xFFFFFFFFFFFFFFFF ∧ s.cur.getX 11 = 3 ∧ s.cur.dom = 3 := by decide +kernel
theorem witness_TrapForms : let s := at0 (task [(10, 42#64)])
    s.cur.pfx = none ∧ s.cur.frames = [] ∧ s.cur.cls ≠ 2 ∧ (s.coreAt s.core).vecq = [] := by decide +kernel
theorem test_trap :
    gives (exec .trap (at0 (task [(10, 42#64)]))) (fun t => t.cur.st = .parked .trap && t.cur.pc = 0x1004 && (t.lcoreAt 0 0).fca = 0x20 &&
      ((tabFind (t.coreAt 0).reserve 0).map (·.args)) = some [0, 0x20, 42, 0x1000, 0, 0]) = true ∧
    gives (exec .bkpt (at0 (task [(10, 42#64)]))) (fun t => (t.lcoreAt 0 0).fca = 0x21) = true ∧
    gives (exec .illegalInstruction (at0 task)) (fun t => (t.lcoreAt 0 0).fca = 1 && t.cur.pc = 0x1000) = true := by decide +kernel

/-- The runtime's task in slot 4, a task of another in slot 1 of a state and generation. -/
def two (x : Tab Word) (st : SlotSt) (g : BitVec 8) : State :=
  let s := at0 (boss x)
  { s with slot := 4, cores := [(0, { s.coreAt 0 with slots := [(1, { task with st := st, gen := g }), (4, boss x)] })] }
theorem witness_SlotAndSystemForms :
    let s := two [(6, 0x0301#64), (7, 0x10301#64), (8, 0x0004#64), (9, 0x0009#64)] (.parked .fault) 3
    (s.cur.pfx = none ∧ s.cur.cls = 2 ∧ (at0 task).cur.cls ≠ 2) ∧
    ((s.cur.getX 6).toNat % 8 = 1 ∧ (s.cur.getX 6).toNat / 8 % 32 = 0 ∧ (s.slotAt 0 1).parkedAs 3 = true ∧ (s.slotAt 0 1).parkedAs 4 = false) ∧
    ((s.cur.getX 7).toNat / 65536 % 4096 ≠ 0 ∧ (s.cur.getX 8).toNat % 8 = s.slot ∧ (s.cur.getX 9).toNat / 8 % 32 ≠ 0) ∧
    (((s.finishVec 0 1).slotAt 0 1).writeSel 1 8 ≠ none ∧ ((s.finishVec 0 1).slotAt 0 1).writeSel 0 7 = none) ∧
    (s.levelOf s.cur = 0 ∧ s.leaseAt 0 ≠ none ∧ s.leaseAt 9 = none ∧ s.cur.dom = 0) ∧
    (isOk (accessM 0x2000#64 64 true s) = true ∧ isOk (accessM 0x2000#64 64 false s) = true ∧ isOk (loadM 0 4 (.mem 0x2000 (xlat 0)) 64 false s) = true) ∧
    ({ s with leases := [(0, Lease.house), (1, { Lease.house with part := 1 })], parts := [(1, Partn.house)] } : State).levelOf { s.cur with lease := 1, part := 1 } = 2 := by decide +kernel
theorem test_slot_forms :
    gives (exec (.resume 5 6) (two [(6, 0x0301#64)] (.parked .fault) 3)) (fun t => (t.slotAt 0 1).st = .ready && t.cur.getX 5 = 0) = true ∧
    gives (exec (.resume 5 6) (two [(6, 0x0301#64)] .ready 3)) (fun t => t.cur.getX 5 = 1 && (t.leaseD 0).stale = 1) = true ∧
    gives (exec (.kill 5 6) (two [(6, 0x0301#64)] .ready 3)) (fun t => (t.slotAt 0 1).st = .free && t.cur.getX 5 = 0) = true ∧
    gives (exec (.kill 5 6) (two [(6, 0x0004#64)] .ready 3)) (fun t => t.cur.getX 5 = 2) = true ∧
    gives (exec (.slotwr 5 6 7) (two [(6, 0x210301#64), (7, 99#64)] (.parked .fault) 3)) (fun t => (t.slotAt 0 1).getX 1 = 99 && t.cur.getX 5 = 0) = true ∧
    gives (exec (.plbinv 5 6 7) (two [(6, 0x100#64), (7, 0x10000000000000#64)] .ready 3)) (fun t => t.cur.getX 5 = 0 && (t.coreAt 0).plb = []) = true ∧
    gives (exec (.tlbi1 5 6 0) (two [(6, 0x2000#64)] .ready 3)) (fun t => t.cur.getX 5 = 0 && (t.dieAt 0).dtc = []) = true ∧
    gives (exec (.tlbi2 5 6 7) (two [(6, 0x2000#64), (7, 0#64)] .ready 3)) (fun t => t.cur.getX 5 = 3) = true ∧
    faults (at0 task) (.resume 5 6) = some 0x02 := by decide +kernel

/-! ### Witnesses and steps: memory -/

def spad0 : Word := 0x7FFFFFF00000#64
/-- Memory with the bytes 1 to 8 at 0x2000. -/
def withMem (s : State) : State := { s with mem := [(0x2000, 1#8), (0x2001, 2#8), (0x2002, 3#8), (0x2003, 4#8), (0x2004, 5#8), (0x2005, 6#8), (0x2006, 7#8), (0x2007, 0x88#8)] }
/-- The party of the task of `at0`, or of one in a gate callee with a window. -/
def party (win : Option (Nat × Nat) := none) : Party := { core := 0, lease := 0, dom := 0, win := win, slot := some 0 }
def placed (r : EStateM.Result Stop State Place) (p : Place) : Bool := isOk r fun q _ => decide (q = p)

theorem witness_AddressChecks :
    let s := holding task (heldLine 0 false [] 0)
    let q := fun (w r : Bool) => (({ s.coreAt 0 with plb := [{ lease := 0, dom := 0, seg := 0, r := r, w := w, x := false, g := false }] } : Core))
    isFault (checkPlace (party) 0x2001#64 2 false s) 0x03 = true ∧ isFault (checkPlace (party) 0x1000000000000#64 8 false s) 0x04 = true ∧
    isFault (checkPlace (party) 0x800000000000#64 8 true s) 0x06 = true ∧ isFault (checkPlace (party) (spad0 + 0x40000) 8 false s) 0x07 = true ∧
    isFault (checkPlace (party (some (64, 64))) (spad0 + 56) 8 false s) 0x07 = true ∧ isFault (checkPlace (party (some (64, 64))) (spad0 + 128) 8 false s) 0x07 = true ∧
    isFault (checkPlace (party) (spad0 + 0x3F808) 8 true s) 0x02 = true ∧ placed (checkPlace (party) (spad0 + 0x3F800) 8 true s) (.spad 0x3F800) = true ∧
    placed (checkPlace (party (some (64, 64))) (spad0 + 120) 8 true s) (.spad 120) = true ∧
    placed (checkPlace (party) (spad0 + 0x3FFF8) 8 false s) (.spad 0x3FFF8) = true ∧ placed (checkPlace (party) 0x2008#64 8 true s) (.mem 0x2008 (xlat 0)) = true ∧
    isFault (checkPlace (party) 0x2008#64 8 true (s.setCore 0 (q false true))) 0x14 = true ∧ isFault (checkPlace (party) 0x2008#64 8 false (s.setCore 0 (q true false))) 0x14 = true := by
  decide +kernel

/-- Tables for stage 2 at 0x1000 and for lease 0's stage 1, which is not translated: pages 0 of each level, a leaf of 4 KiB at level 3. -/
def tabled (leaf : Nat) (held : List Xlat := []) : State :=
  let put := fun (m : List Host.Cell) (pa v : Nat) => memPutBytes m pa (leBytes 8 v)
  { State.reset with mem := put (put (put (put [] 0x1000 0x2001) 0x2000 0x3001) 0x3000 0x4001) 0x4000 leaf,
                     leases := [(0, { Lease.house with s1root := 0x1000 })], dies := [(0, { Die.init with dtc := held })] }
def tableAt (s : State) (pa : Nat) : Nat := leNat (memBytes s.mem pa 8)
/-- The page of the rights table, translated to 0x5000. -/
def rightsPage : Xlat := { xlat 0 with page := 0x7FFFFFC00, pa := 0x5000, ra := 0x5000 }
theorem witness_AddressChecks_walk :
    let look : Acc := { write := false, fetch := false }
    let s := tabled 0x508F
    (s.poison = [] ∧ (s.homeAt 0).walks = [] ∧ memWf s.mem = true ∧ tableAt s 0x1000 = 0x2001 ∧ tableAt s 0x2000 = 0x3001 ∧ tableAt s 0x3000 = 0x4001 ∧ tableAt s 0x4000 = 0x508F ∧
      0x508F / 16 % 8 = 0 ∧ 0x508F / 2 ^ 48 % 16 = 0 ∧ s.leafInWindow 0x5000 4096 = true ∧ s.inWindow 0x5000 = true ∧ tableAt (tabled 0) 0x4000 % 2 = 0 ∧
      tableAt (tabled 0x528F) 0x4000 / 2 ^ 9 % 8 ≠ 0 ∧ tableAt (tabled 0x50EF) 0x4000 / 16 % 8 = 6) ∧
    isOk (stage2Walk 0 5 0x10 0x10 look 4 0x1000 0 s) (fun x t => decide (x.pa = 0x5010 ∧ x.leaf = some (0x4000, 0x508F) ∧ t.mem = s.mem)) = true ∧
    isOk (walkTables 0 0x10 look s) (fun x _ => decide (x.paOf 0x10 = 0x5010) && x.covers 0 0x10) = true ∧ s.heldPointer (homeOf 0x1000) false 0 0 0x10 0x1000 = none ∧
    isFault (walkTables 0 0x10 look (tabled 0)) 0x10 = true ∧ isFault (walkTables 0 0x10 look (tabled 0x528F)) 0x11 = true ∧
    isFault (walkTables 0 0x10 look (tabled 0x50EF)) 0x12 = true ∧ isFault (walkTables 0 0x10 { look with write := true } (tabled 0x508B)) 0x13 = true ∧
    isOk (walkTables 0 0x10 { look with write := true } s) (fun x t => x.dirty && decide (tableAt t 0x4000 = 0x518F)) = true ∧
    ((s.partAt 5).isNone = true ∧ ({ s with parts := [(5, Partn.house)] } : State).partAt 5 = some Partn.house) := by decide +kernel
theorem witness_AddressChecks_rights :
    let look : Acc := { write := false, fetch := false }
    let s := fun (dir entry : Nat) => ({ tabled 0x508F [rightsPage] with mem := memPutBytes (memPutBytes [] 0x5008 (leBytes 8 dir)) 0x5800 (leBytes 8 entry) } : State)
    let good := s (2 ^ 32 + 0x800) (2 ^ 52 + 7 * 2 ^ 26 + 3)
    (rightsPage.covers 0 (0x7FFFFFC00000 + 8) = true ∧ rightsPage.wc1 = true ∧ (good.coreAt 0).plb = [] ∧ 3 ≤ 5 ∧ 5 ≤ 7 ∧ 5 * 2 ^ 21 / 2 ^ 21 = 5 ∧
      good.linePoisoned 0x5008 = false ∧ (2 ^ 32 + 0x800) / 2 ^ 32 % 2 ^ 16 = 1 ∧ (2 ^ 32 + 0x800) % 2 ^ 32 = 0x800) ∧
    isOk (readRights 0 0 8 good) (fun d _ => decide (d = 2 ^ 32 + 0x800)) = true ∧
    isOk (searchRights 0 0 5 1 0x800 good) (fun e _ => decide (e = 2 ^ 52 + 7 * 2 ^ 26 + 3)) = true ∧ isOk (searchRights 0 0 9 1 0x800 good) (fun e _ => decide (e = 0)) = true ∧
    isOk (plbRights 0 0 1 (5 * 2 ^ 21) look good) (fun p t => p.r && !p.w && (t.coreAt 0).plb.contains p) = true ∧
    isFault (plbRights 0 0 1 (5 * 2 ^ 21) look (s (2 ^ 48 + 2 ^ 32 + 0x800) 0)) 0x15 = true ∧ isFault (plbRights 0 0 1 (5 * 2 ^ 21) look (s (2 ^ 32 + 0x801) 0)) 0x15 = true ∧
    isFault (plbRights 0 0 1 (5 * 2 ^ 21) look (s (2 ^ 32 + 0x800) (2 ^ 56 + 7 * 2 ^ 26 + 3))) 0x15 = true ∧ isFault (readRights 0 0 8 (tabled 0)) 0x10 = true ∧
    isOk (plbRights 0 0 1 (5 * 2 ^ 21) look (s 0 0)) (fun p _ => !p.r && !p.w && !p.x && !p.g) = true ∧
    isOk (checkRights 0 0 0 0x7FFFFFC00008 { look with write := true } good) = true ∧ isFault (checkRights 0 0 1 0x7FFFFFC00008 { look with write := true } good) 0x14 = true := by
  decide +kernel

theorem witness_LoadAndStoreForms :
    let s := withMem (at0 (task [(6, 0x2000#64), (7, spad0)]))
    s.cur.pfx = none ∧ isOk (accessM 0x2000#64 8 false s) = true ∧ isOk (accessM 0x2000#64 1 true s) (fun p _ => decide (p = .mem 0x2000 (xlat 0))) = true ∧
    isOk (loadM 0 0 (.mem 0x2000 (xlat 0)) 8 false s) = true ∧ isOk (accessM spad0 8 true s) (fun p _ => decide (p = .spad 0)) = true ∧
    isFault (accessM 0x2001#64 2 false s) 0x03 = true ∧ (s.coreAt 0).sb.length < 16 := by decide +kernel
theorem test_loads : ∀ e ∈ [(Instr.lb 5 6 7#12, 0xFFFFFFFFFFFFFF88#64), (.lh 5 6 6#12, 0xFFFFFFFFFFFF8807#64), (.lw 5 6 4#12, 0xFFFFFFFF88070605#64),
    (.ld 5 6 0#12, 0x8807060504030201#64), (.lbu 5 6 7#12, 0x88#64), (.lhu 5 6 6#12, 0x8807#64), (.lwu 5 6 4#12, 0x88070605#64)],
    gives (exec e.1 (withMem (at0 (task [(6, 0x2000#64)])))) (fun s => s.cur.getX 5 = e.2 && s.cur.pc = 0x1004) = true := by decide +kernel
/-- A store waits in the buffer and is read back by its own slot; one to the scratchpad is there at once. -/
theorem test_stores : ∀ e ∈ [(Instr.sb 6 7 8#12, [0xF0#8]), (.sh 6 7 8#12, [0xF0#8, 0xDE#8]), (.sw 6 7 8#12, [0xF0#8, 0xDE#8, 0xBC#8, 0x9A#8]),
    (.sd 6 7 8#12, [0xF0#8, 0xDE#8, 0xBC#8, 0x9A#8, 0x78#8, 0x56#8, 0x34#8, 0x12#8])],
    gives (exec e.1 (withMem (at0 (task [(6, 0x2000#64), (7, 0x123456789ABCDEF0#64)])))) (fun s =>
      (s.coreAt 0).sb.map (fun b => (b.dva, b.op)) = [(0x2008, .store e.2)] && s.mem = (withMem State.reset).mem) = true ∧
    gives (exec e.1 (at0 (task [(6, spad0), (7, 0x123456789ABCDEF0#64)]))) (fun s => (s.lcoreAt 0 0).spadBytes 8 e.2.length = e.2 && (s.coreAt 0).sb = []) = true := by decide +kernel

/-- A store of the slot of `at0` in the buffer. -/
def posted (t : Slot) (kind : Nat) (op : SbOp) : State :=
  let s := withMem (at0 t kind)
  s.setCore 0 { s.coreAt 0 with sb := [s.entryOf 0 0 0x2008 (xlat kind) op] }
theorem witness_StoredAndHomeBytes :
    (posted task 0 (.store [1#8])).Canonical ∧ ((posted task 0 (.store [1#8])).coreAt 0).sb.length = 1 ∧
    (posted task 0 (.store [1#8])).entryOf 0 0 0x2008 (xlat 0) (.store [1#8]) = { (posted task 0 (.store [1#8])).entryOf 0 0 0x2008 (xlat 0) (.store []) with op := .store [1#8] } := by
  refine ⟨?_, by decide +kernel⟩
  show memWf _ = true
  decide +kernel

theorem witness_ScopesAndFences :
    let s := withMem (at0 (task [(6, 0x2000#64), (7, spad0)]))
    let d := fun (k : Nat) => (({ xlat k with pa := 0xB000000002000 } : Xlat))
    s.cur.pfx = none ∧ isOk (accessM 0x2000#64 4 false s) = true ∧ isOk (loadM 0 0 (.mem 0x2000 (xlat 0)) 4 false s) = true ∧ 2 ≤ (2#3).toNat ∧
    s.rangePoisoned 0x2000 4 = false ∧ isOk (releaseM 4 (s.drainSlot 0 0)) = true ∧ isOk (releaseM 1 (s.drainSlot 0 0)) = true ∧ (xlat 3).kind = 3 ∧ (d 3).kind = 3 ∧
    ({ s with lehrs := [(0, [{ core := 0, slot := 0, gen := 0, epoch := 0, pa := 0x2000, bytes := [], accepted := false }])] } : State).recordsPending 0 0 = true ∧
    s.recordsPending 0 0 = false ∧ s.fabricPending 0 0 = false ∧ s.copiesPending 0 0 = false ∧
    ({ s with fabric := [{ id := 0, core := 0, slot := 0, gen := 0, lease := 0, tag := 0, kind := 0, counted := false, dest := 0, copyId := 0, d := 0, inc := 0, type := 0, data := [] }] } : State).fabricPending 0 0 = true := by decide +kernel
theorem test_scopes :
    gives (exec (.lda 3 2 5 6) (withMem (at0 (task [(6, 0x2000#64)])))) (fun s => s.cur.getX 5 = 0x8807060504030201) = true ∧
    gives (exec (.lda 1 0 5 6) (withMem (at0 (task [(6, 0x2006#64)])))) (fun s => s.cur.getX 5 = 0x8807) = true ∧
    gives (exec (.stl 2 2 6 7) (withMem (at0 (task [(6, 0x2000#64), (7, 0xFF#64)])))) (fun s => s.homeRead 0x2000 5 = [0xFF, 0, 0, 0, 5]) = true ∧
    gives (exec (.fence 2) (posted task 0 (.store [9#8]))) (fun s => (s.coreAt 0).sb = [] && s.homeRead 0x2008 1 = [9] && s.cur.pc = 0x1004) = true ∧
    gives (exec .tfence (posted task 0 (.store [9#8]))) (fun s => (s.coreAt 0).sb = [] && s.homeRead 0x2008 1 = [9]) = true ∧
    gives (exec .pbar (at0 task)) (fun s => s.cur.epoch = 1 && s.cur.pc = 0x1004) = true ∧
    gives (exec .pbarw (at0 task)) (fun s => s.cur.epoch = 1 && s.cur.pc = 0x1004) = true := by decide +kernel

theorem witness_Atomics :
    let s := withMem (at0 (task [(6, 0x2000#64)]))
    let e := s.entryOf 0 0 0x2000 (xlat 0) (.store [])
    s.Canonical ∧ (s.cur.pfx = none ∧ isOk (accessM 0x2000#64 8 true s) = true ∧ isOk (checkAtomic 0x2000#64 (.mem 0x2000 (xlat 0)) 0 2 s) = true ∧
    isOk (atomicAt 0 e 0 8 2 1 0 true (s.drainSlot 0 0)) = true ∧ isOk (accessM spad0 8 true s) = true ∧ (s.lcoreAt 0 0).spadPoisoned 0 8 = false ∧
    (s.drainSlot 0 0).cur.lease = s.cur.lease ∧ e.x.dieAtomic 2 = false ∧ e.x.kind ≠ 3 ∧ s.rangePoisoned (e.x.paOf e.dva) 8 = false) := by
  refine ⟨?_, by decide +kernel⟩
  show memWf _ = true
  decide +kernel
/-- The low word at 0x2000 is 0x04030201; the new value stands at home and x5 has the old one. -/
theorem test_amo : ∀ e ∈ [(Instr.amoadd 0 2 5 6 7, [0x02#8, 0x02#8, 0x03#8, 0x84#8]), (.amoswap 0 2 5 6 7, [0x01#8, 0x00#8, 0x00#8, 0x80#8]), (.amoand 0 2 5 6 7, [0x01#8, 0#8, 0#8, 0#8]),
    (.amoor 0 2 5 6 7, [0x01#8, 0x02#8, 0x03#8, 0x84#8]), (.amoxor 0 2 5 6 7, [0x00#8, 0x02#8, 0x03#8, 0x84#8]), (.amomin 0 2 5 6 7, [0x01#8, 0#8, 0#8, 0x80#8]),
    (.amomax 0 2 5 6 7, [1#8, 2#8, 3#8, 4#8]), (.amominu 0 2 5 6 7, [1#8, 2#8, 3#8, 4#8]), (.amomaxu 0 2 5 6 7, [0x01#8, 0#8, 0#8, 0x80#8])],
    gives (exec e.1 (withMem (at0 (task [(6, 0x2000#64), (7, 0x80000001#64)])))) (fun s => s.homeRead 0x2000 5 = e.2 ++ [5] && s.cur.getX 5 = 0x04030201) = true := by decide +kernel
theorem test_amocas_and_red :
    gives (exec (.amocas 1 2 5 6 7) (withMem (at0 (task [(5, 0x8807060504030201#64), (6, 0x2000#64), (7, 9#64)])))) (fun s => s.homeRead 0x2000 8 = [9, 0, 0, 0, 0, 0, 0, 0] && s.cur.getX 5 = 0x8807060504030201) = true ∧
    gives (exec (.amocas 1 2 5 6 7) (withMem (at0 (task [(5, 1#64), (6, 0x2000#64), (7, 9#64)])))) (fun s => s.homeRead 0x2000 1 = [1]) = true ∧
    gives (exec (.amofadd 2 5 6 7) (at0 (task [(6, 0x2000#64), (7, 0x3F800000#64)]))) (fun s => s.homeRead 0x2000 4 = [0, 0, 0x80, 0x3F] && s.cur.getX 5 = 0) = true ∧
    (∀ i ∈ [Instr.redadd 0 2 6 7, .redfadd 2 6 7, .redmax 0 2 6 7, .redmin 1 2 6 7],
      gives (exec i (at0 (task [(6, 0x2000#64), (7, 1#64)]))) (fun s => (s.coreAt 0).sb.length = 1 && s.mem = []) = true) ∧
    gives (exec (.redmax 0 2 6 7) (at0 (task [(6, spad0), (7, 5#64)]))) (fun s => (s.lcoreAt 0 0).spadBytes 0 2 = [5, 0]) = true := by decide +kernel

theorem witness_FullEmptyForms :
    let s := withMem (at0 (task [(6, 0x2000#64), (7, 512#64), (8, 513#64)]))
    s.cur.pfx = none ∧ isOk (feWord 0x2000#64 8 false s) = true ∧ isOk (feWord 0x2000#64 4 true s) = true ∧ (s.cur.getX 7).toNat = 512 ∧ (0x2000#64).toNat % 4096 + 8 * 512 ≤ 4096 ∧ (s.cur.getX 8).toNat = 513 ∧
    4096 < (0x2FF8#64).toNat % 4096 + 8 * 2 := by decide +kernel
theorem test_full_empty :
    gives (exec (.ldfD 5 6) (at0 (task [(6, 0x2000#64)]))) (fun s => s.cur.st = .blocked (.ldf 5 0x2000 8 (xlat 0)) && (s.homeAt 2).reqs.length = 1) = true ∧
    gives (exec (.ldfW 5 6) (at0 (task [(6, 0x2004#64)]))) (fun s => s.cur.st = .blocked (.ldf 5 0x2004 4 (xlat 0))) = true ∧
    gives (exec (.stfD 6 7) (at0 (task [(6, 0x2000#64), (7, 3#64)]))) (fun s => s.cur.pc = 0x1004 && (s.homeAt 2).reqs.length = 1 && s.mem = []) = true ∧
    gives (exec (.stfW 6 7) (at0 (task [(6, 0x2004#64), (7, 3#64)]))) (fun s => s.cur.pc = 0x1004) = true ∧
    gives (exec (.sete 6 7) (at0 (task [(6, 0x2000#64), (7, 2#64)]))) (fun s => s.cur.pc = 0x1004 && (s.homeAt 2).reqs.length = 1) = true ∧
    faults (at0 (task [(6, 0x2FF8#64), (7, 2#64)])) (.sete 6 7) = some 0x03 := by decide +kernel

/-- A region of lease 0 with L = 1, U = 1 and no share. -/
def drifting (s : State) (share : Tab Lane := []) : State :=
  { s with leases := [(0, { Lease.house with regions := [(1, { Region.init with l := 0x3F800000, u := 0x3F800000, share := share })] })] }
/-- Core 0's store buffer holds one RED of 1.0 that may be withheld in region 1 (R339, R340). -/
def driftReds (s : State) : State :=
  s.setCore 0 { s.coreAt 0 with sb := [s.entryOf 0 0 0x2000 (xlat 2) (.red 1 4 2 0x3F800000)] }
theorem witness_Drift :
    let s := drifting (at0 (task [(6, 0x2000#64), (7, 0x7FC00000#64), (8, 0x3F800000#64), (9, 2048#64), (10, 2047#64)]) 2)
    let e : Delta := { lease := 0, region := 1, pa := 0x2000, val := 0x3F800000 }
    let t : Tracker := { lease := 0, region := 1, mag := 0, share := 0x3E800000 }
    let g := s.regionAt 0 1
    s.cur.pfx = none ∧ fpIsNaN 0x7FC00000#32 = true ∧ (fpSign 0x80000001#32 = true ∧ fpIsZero 0x80000001#32 = false) ∧ fpIsNaN 0x3F800000#32 = false ∧
    isOk (accessM 0x2000#64 4 false s) (fun p _ => decide (p = .mem 0x2000 (xlat 2))) = true ∧ isOk (accessM spad0 4 false s) = true ∧
    ¬ (fpUnits 0x3F800000#32 < fpUnits g.loss) ∧ s.rangePoisoned 0x2000 4 = false ∧ (s.cur.getX 9).toNat = 2048 ∧ (s.cur.getX 10).toNat < 2048 ∧
    ((s.dieAt 0).tracker 0 1 = none ∧ (s.dieAt 0).trackers.length < 256 ∧ (s.leaseAt 0).isSome = true ∧ g.pend = false ∧ fpUnits (fpMul 1 g.l 0x3E800000#32).1 ≤ fpUnits g.u ∧
      0 < fpUnits (fpMul 1 g.l 0x3E800000#32).1) ∧
    ((driftReds s).redAsks 0 0 1 = true ∧ s.redAsks 0 0 1 = false ∧ memWf s.mem = true ∧ ({ g with u := 0 } : Region).u = 0 ∧
      fpUnits 0#32 ≤ 0 ∧ fpUnits 0#32 < fpUnits (fpMul 1 g.l 0x3E800000#32).1 ∧ { g with pend := true }.pend = true) ∧
    (({ Die.init with trackers := [t] } : Die).tracker 0 1).isSome = true ∧ (({ Die.init with deltas := [e] } : Die).deltas[0]?).isSome = true := by decide +kernel
theorem test_drift :
    gives (exec (.lde 5 6 8) (withMem (drifting (at0 (task [(6, 0x2000#64), (8, 0x3F800000#64)]) 2)))) (fun s => s.cur.getX 5 = 0x04030201) = true ∧
    faults (drifting (at0 (task [(6, 0x2000#64), (8, 0x7FC00000#64)]) 2)) (.lde 5 6 8) = some 0x09 ∧ faults (at0 (task [(6, 0x2000#64), (8, 0#64)])) (.lde 5 6 8) = some 0x0E ∧
    gives (exec (.drain 5 6) (at0 (task [(6, 1#64)]))) (fun s => s.cur.getX 5 = 0) = true ∧ faults (at0 (task [(6, 2048#64)])) (.drain 5 6) = some 0x09 ∧
    gives (exec .driftGrant (withEv (driftReds (drifting (at0 task 2))) { a := 0, b := 0, c := 1 })) (fun s => (s.regionAt 0 1).share = [(0, 0x3E800000)] && (s.dieAt 0).trackers.length = 1) = true ∧
    gives (exec .driftGrant (withEv (drifting (at0 task 2)) { a := 0, b := 0, c := 1 })) (fun s => (s.dieAt 0).trackers.length = 0) = true := by decide +kernel

/-! ### Witnesses and steps: vectors -/

/-- Sixteen lanes, lane 0 first. -/
def lanes (f : Nat → Nat) : VecReg := (List.range 16).foldr (fun i v => (v <<< 32) ||| BitVec.ofNat 512 (f i % 2 ^ 32)) 0#512
def lane (t : Slot) (r i : Nat) : Lane := (t.getV r).extractLsb' (32 * i) 32
/-- A task whose v6 counts from 0, whose v7 holds 5 everywhere, and whose p1 has lanes 0 to 7. -/
def vtask (x : Tab Word := []) : Slot := { task x with v := [(6, lanes id), (7, lanes fun _ => 5), (8, lanes fun _ => 0x3F800000)], p := [(1, 0x00FF#16)] }
/-- What a form read at issue. -/
def cmdOf (i : Instr) (a b : Word := 0) (pfx : Option (BitVec 12) := none) : VecCmd :=
  { instr := i, slot := 0, gen := 0, a := a, b := b, rm := 0, pfx := pfx, bexp := 127, epoch := 0, places := [] }
/-- The engine of core 0 with one command. -/
def engine (i : Instr) (a b : Word := 0) (pfx : Option (BitVec 12) := none) : State :=
  let s := withEv (at0 (vtask)) { a := 0 }
  s.setCore 0 { s.coreAt 0 with vecq := [cmdOf i a b pfx] }
/-- What the engine's command leaves. -/
def executes (i : Instr) (p : State → Bool) (a b : Word := 0) (pfx : Option (BitVec 12) := none) : Bool :=
  gives (exec .vectorCommandExecute (engine i a b pfx)) fun s => p s && (s.coreAt 0).vecq = []

theorem witness_FormatPrefix :
    let s := at0 { (task.setPfx (some 0x105)) with pc := 0x1000 }
    let z := at0 { (task.setLoop 0 true) with le := (0x1000, 0) }
    s.cur.pfx = some 0x105 ∧ ((0x105#12).extractLsb' 0 4 = 5#4) ∧ (at0 task).cur.pfx = none ∧ ((at0 task).cur.loopOn 0 = false ∧ (at0 task).cur.loopOn 1 = false) ∧
    z.cur.loopOn 0 = true ∧ z.cur.leN 0 = z.cur.pc ∧ z.cur.pfx = none := by decide +kernel
theorem witness_FormatPrefix_takes :
    let s := fun (w : BitVec 12) => at0 { (vtask [(6, 0x2000#64), (7, 0#64), (8, spad0)]).setPfx (some w) with gang := some 0 }
    let g := { s 3 with gangs := [(0, { lease := 0, tag := 0, rows := [0], live := [(0, 0)], size := 1, entered := [], agreed := false, passes := [] })] }
    let b := (g.setLCore 0 0 { g.lcoreAt 0 0 with planeA := { (g.lcoreAt 0 0).planeA with bi4 := true } }).finishVec 0 0
    (∀ w ∈ [0#12, 1#12, 2#12, 3#12, 0x604#12], (s w).cur.pfx = some w) ∧ (s 0).cur.frames = [] ∧ ((s 0).coreAt 0).vecq = [] ∧ (s 0).homes = [] ∧ ((s 0).cur.getX 7).extractLsb' 0 56 = 0#56 ∧ ({ (s 0).cur with p := [(2, 0#16)] } : Slot).getP 2 = 0#16 ∧
    (0x604#12).extractLsb' 0 4 = 4#4 ∧ (0x604#12).extractLsb' 9 2 = 3#2 ∧ takesPrefix (.addi 5 5 1) = false ∧ (Instr.addi 5 5 1).wellFormed = true ∧ encode (.addi 5 5 1) ≠ 0#32 ∧
    (let t := ((s 0x604).finishVecAll 0).setCore 0 { (s 0x604).coreAt 0 with vecq := [{ cmdOf (.vredx 1 8 6 9) 0x2000 0 (some 0x604) with bexp := (s 0x604).cur.bexp }] }
     ((s 0x604).finishVecAll 0).core = 0 ∧ isOk (redxLanes 0 0 0x2000#64 1 8 9 0 2 0 16 t) (fun _ u => decide (u.cur.st = .ready) && decide (u.cur.getP 1 = 0) && decide (u.core = 0)) = true) ∧
    isOk (Machine.checkRange spad0 2176 (g.finishVec 0 0)) = true ∧ isOk (checkRights 0 0 0 spad0.toNat { write := false, fetch := false } (g.finishVec 0 0)) = true ∧
    (b.cur.gang = some 0 ∧ (b.lcoreAt 0 0).active.bi4 = true ∧ (0x1F00#64).toNat / 256 + 64 ≤ 0xFFFFFF ∧ isOk (Machine.checkRange spad0 (128 * 32) b) = true) := by decide +kernel
theorem test_prefix_takes :
    gives (exec (.vredx 1 8 6 9) (at0 (({ vtask [(6, 0x2000#64)] with p := [(1, 1#16)] } : Slot).setPfx (some 0x604)))) (fun s => s.cur.pc = 0x1004 && s.cur.pfx = none && s.cur.getP 1 = 0 && (s.coreAt 0).sb.length = 1) = true ∧
    gives (exec (.yield) (at0 (task.setPfx (some 0)))) (fun s => s.cur.pc = 0x1004) = true := by decide +kernel
theorem test_prefix :
    gives (exec (.addi 5 5 1) (at0 (task.setPfx (some 0x103)))) (fun s => (s.lcoreAt 0 0).fca = 1 && s.cur.pfx = none && s.cur.getX 5 = 0) = true ∧
    gives (exec (.vcvtFI 0 5 6) (at0 (task.setPfx (some 0)))) (fun s => (s.coreAt 0).vecq.length = 1 && s.cur.pfx = none) = true ∧
    gives (exec (.vcvtFI 0 5 6) (at0 (task.setPfx (some 5)))) (fun s => (s.lcoreAt 0 0).fca = 1) = true := by decide +kernel

theorem witness_VectorIssue :
    let s := at0 (vtask [(6, 255#64), (7, 256#64)])
    let full := s.setCore 0 { s.coreAt 0 with vecq := [cmdOf (.viota 0 1), cmdOf (.viota 0 1)] }
    let bare := at0 (callee false false)
    s.cur.pfx = none ∧ s.cur.frames = [] ∧ (s.coreAt 0).vecq.length < 2 ∧ 2 ≤ (full.coreAt 0).vecq.length ∧ (bare.cur.frames.head?.map (·.vec)) = some false ∧ bare.cur.pfx = none ∧
    ((0#64 : Word).extractLsb' 0 56 = 0#56 ∧ (0xFF000000000000#64 : Word).extractLsb' 48 8 ≠ 0#8) ∧ (s.cur.getX 6).toNat < 256 ∧ 256 ≤ (s.cur.getX 7).toNat ∧
    ({ s.cur with q := [(2, [4])] } : Slot).getQ 2 = 4 :: [] ∧ s.cur.getQ 2 = [] := by decide +kernel
theorem test_vector_issue :
    gives (exec (.vaddF 0 5 6 7) (at0 vtask)) (fun s => (s.coreAt 0).vecq.length = 1 && s.cur.pc = 0x1004 && lane s.cur 5 0 = 0) = true ∧
    gives (exec (.vbcastq 0 5 2) (at0 { vtask with q := [(2, [4])] })) (fun s => ((s.coreAt 0).vecq.map (·.a)) = [4] && s.cur.getQ 2 = []) = true ∧
    faults (at0 (callee false false)) (.vand 0 5 6 7) = some 0x1A ∧ faults (at0 (vtask [(7, 256#64)])) (.mwr 0 6 7) = some 0x09 := by decide +kernel

/-- A VQNT whose outlier list is at an address, in a core whose right to write there is given or not. -/
def listing (a : Nat) (w : Bool := true) : State :=
  let s := at0 (vtask [(7, BitVec.ofNat 64 a)])
  s.setCore 0 { s.coreAt 0 with plb := rights.map fun r => { r with w := w } }
theorem witness_VectorIssue_list :
    let s := listing (spad0.toNat + 64)
    s.cur.pfx = none ∧ s.cur.frames = [] ∧ (s.cur.getX 7).extractLsb' 48 8 = 0#8 ∧ (s.cur.getX 7).toNat % 2 ^ 48 ≠ 0 ∧ (s.cur.getX 7).toNat % 2 ^ 48 % 16 = 0 ∧ s.cur.window = none ∧
    ((s.coreAt 0).plb.find? fun r => r.lease == 0 && r.dom == 0 && r.seg == (spad0.toNat + 64) / 2 ^ 21).any (·.w) = true ∧ (((listing 0x2000 false).coreAt 0).plb.any (·.w)) = false ∧ (s.coreAt 0).vecq.length < 2 := by decide +kernel
theorem test_vqnt_list :
    faults (listing (spad0.toNat + 68)) (.vqnt 0 5 6 7) = some 0x03 ∧ faults (listing 0x2000) (.vqnt 0 5 6 7) = some 0x07 ∧ faults (listing (spad0.toNat + 0x3F800)) (.vqnt 0 5 6 7) = some 0x07 ∧
    faults (listing (spad0.toNat + 64) false) (.vqnt 0 5 6 7) = some 0x14 ∧
    gives (exec (.vqnt 0 5 6 7) (listing (spad0.toNat + 0x3F7F0))) (fun s => (s.coreAt 0).vecq.length = 1 && s.cur.pc = 0x1004) = true := by decide +kernel

theorem witness_VectorLaneForms :
    let s := engine (.vaddI 1 5 6 7)
    s.ev.a < 4096 ∧ (s.coreAt s.ev.a).vecq = [cmdOf (.vaddI 1 5 6 7)] ∧ (s.slotAt 0 0).st ≠ .free ∧ (s.slotAt 0 0).gen = (cmdOf (.vaddI 1 5 6 7)).gen := by decide +kernel
/-- Lane 3 of v6 is 3, of v7 is 5, of v8 is 1.0; the lanes 8 to 15 are inactive under p1. -/
theorem test_lanes_int : ∀ e ∈ [(Instr.vaddI 1 5 6 7, 8#32), (.vsubI 1 5 6 7, 0xFFFFFFFE#32), (.vmulI 1 5 6 7, 15#32), (.vminI 1 5 6 7, 3#32), (.vmaxI 1 5 6 7, 5#32),
    (.vminuI 1 5 6 7, 3#32), (.vmaxuI 1 5 6 7, 5#32), (.vand 1 5 6 7, 1#32), (.vor 1 5 6 7, 7#32), (.vxor 1 5 6 7, 6#32), (.vshl 1 5 7 6, 40#32), (.vsrl 1 5 7 6, 0#32),
    (.vsra 1 5 7 6, 0#32), (.vperm 1 5 6 7, 5#32), (.vnegF 1 5 8, 0xBF800000#32), (.vabsF 1 5 8, 0x3F800000#32), (.vcvtIF 1 5 6, 0x40400000#32)],
    executes e.1 (fun s => lane (s.slotAt 0 0) 5 3 = e.2 && lane (s.slotAt 0 0) 5 8 = 0) = true := by decide +kernel
theorem test_lanes_fp : ∀ e ∈ [(Instr.vaddF 0 5 8 8, 0x40000000#32), (.vsubF 0 5 8 8, 0#32), (.vmulF 0 5 8 8, 0x3F800000#32), (.vfmaF 0 8 8 8, 0x40000000#32), (.vminF 0 5 8 8, 0x3F800000#32),
    (.vmaxF 0 5 8 6, 0x3F800000#32), (.vdivF 0 5 8 8, 0x3F800000#32), (.vsqrtF 0 5 8, 0x3F800000#32), (.vexp2F 0 5 8, 0x40000000#32), (.vrcpF 0 5 8, 0x3F800000#32),
    (.vcvtFI 0 5 8, 1#32), (.vcvtFH 0 5 8 0, 0x00003F80#32)],
    executes e.1 (fun s => lane (s.slotAt 0 0) (if e.1 = .vfmaF 0 8 8 8 then 8 else 5) 15 = e.2) = true := by decide +kernel
theorem test_lanes_more :
    executes (.vbcast 1 5 6) (fun s => lane (s.slotAt 0 0) 5 7 = 9) 9 = true ∧ executes (.vslide 0 5 6 7) (fun s => lane (s.slotAt 0 0) 5 0 = 2 && lane (s.slotAt 0 0) 5 14 = 0) 0 2 = true ∧
    executes (.vfmasF 0 8 8 7) (fun s => lane (s.slotAt 0 0) 8 1 = 0x40400000) 0 0x40000000 = true ∧ executes (.vcvtHF 0 5 8 1) (fun s => lane (s.slotAt 0 0) 5 0 = 0x3F800000) = true ∧
    executes (.vbcastq 0 5 0) (fun s => lane (s.slotAt 0 0) 5 15 = 4) 4 = true := by decide +kernel

theorem witness_VectorOtherForms :
    let s := engine (.mrd 5 2 7) 1
    s.ev.a < 4096 ∧ (s.coreAt s.ev.a).vecq = [cmdOf (.mrd 5 2 7) 1] ∧ (s.slotAt 0 0).st ≠ .free ∧ (s.slotAt 0 0).gen = 0 ∧ s.passOnTile 0 0 2 = false ∧
    ({ s with gangs := [(0, { lease := 0, tag := 0, rows := [0], live := [], size := 16, entered := [], agreed := false, passes := [{ tile := 2, m := 1, k0 := 0, bi4 := false, addr := 0, planeB := [] }] })] } : State).passOnTile 0 0 2 = true := by decide +kernel
/-- An infinity under the given exponent 127 is an outlier (prefix ESRC 1); a list at offset 64. -/
def outlying : State :=
  let v : VecCmd := cmdOf (.vqnt 0 5 8 7) (127 * 2 ^ 56 + (spad0 + 64)) 0 (some 0x080#12)
  let s := withEv (at0 { task with v := [(8, lanes fun i => if i = 3 then 0x7F800000 else 0x3F800000)] }) { a := 0 }
  s.setCore 0 { s.coreAt 0 with vecq := [v] }
theorem witness_VectorOtherForms_more :
    let s := outlying
    let bad := s.setLCore 0 0 { s.lcoreAt 0 0 with spadPoison := [8] }
    let m := engine (.maddv 2 8 7) 1
    (pfxEsrc (some 0x080#12) = 1 ∧ pfxBi4 (some 0x080#12) = false ∧ ((s.coreAt 0).vecq.head?.map fun v => (v.a.extractLsb' 56 8).toNat) = some 127 ∧
      fpVal (((s.slotAt 0 0).getV 8).extractLsb' (32 * 3) 32) = .inf false ∧ ((s.coreAt 0).vecq.head?.map fun v => (v.a.extractLsb' 0 48).toNat) = some (0x7FFFFFF00000 + 64) ∧
      (bad.lcoreAt 0 0).spadPoisoned 64 16 = true ∧ (s.lcoreAt 0 0).spadPoisoned 64 16 = false) ∧
    accKey true 2 0 7 ∈ (({ m.lcoreAt 0 0 with accPoison := [accKey true 2 0 7] } : LCore)).accPoison ∧ m.passOnTile 0 0 2 = false ∧
    ((m.setCore 0 { m.coreAt 0 with vecq := [] }).finishTile 0 0 2 (m.setCore 0 { m.coreAt 0 with vecq := [] }).passFuel).slotAt 0 0 = m.slotAt 0 0 ∧
    (m.lcoreAt 0 0).accPoison = [] := by decide +kernel
theorem test_vector_others :
    (∀ e ∈ [(Instr.vcmpILT 1 2 6 7, 0x001F#16), (.vcmpIEQ 1 2 6 7, 0x0020#16), (.vcmpILTU 0 2 7 6, 0xFFC0#16), (.vcmpFEQ 0 2 8 8, 0xFFFF#16), (.vcmpFLT 0 2 8 8, 0#16),
        (.vcmpFLE 1 2 8 8, 0x00FF#16), (.pand 2 0 1, 0x00FF#16), (.por 2 0 1, 0xFFFF#16), (.pxor 2 0 1, 0xFF00#16), (.pnot 2 1, 0xFF00#16)],
      executes e.1 (fun s => (s.slotAt 0 0).getP 2 = e.2 && (s.slotAt 0 0).getP 0 = 0xFFFF) = true) ∧
    executes (.pset 2 6) (fun s => (s.slotAt 0 0).getP 2 = 0xABCD) 0x1ABCD = true ∧ executes (.vsel 1 5 6 7) (fun s => lane (s.slotAt 0 0) 5 7 = 7 && lane (s.slotAt 0 0) 5 8 = 5) = true ∧
    executes (.vmvxv 6 6 3) (fun s => lane (s.slotAt 0 0) 6 3 = 9 && lane (s.slotAt 0 0) 6 4 = 4) 9 = true ∧ executes (.viota 1 5) (fun s => lane (s.slotAt 0 0) 5 3 = 3 && lane (s.slotAt 0 0) 5 12 = 8) = true ∧
    executes (.vrsumI 1 5 6) (fun s => lane (s.slotAt 0 0) 5 0 = 28 && lane (s.slotAt 0 0) 5 1 = 0) = true ∧ executes (.vrsumF 0 5 8) (fun s => lane (s.slotAt 0 0) 5 0 = 0x41800000) = true ∧
    executes (.vrmaxF 1 5 8) (fun s => lane (s.slotAt 0 0) 5 0 = 0x3F800000) = true := by decide +kernel
theorem test_bank_rows :
    executes (.mwr 2 6 7) (fun s => (s.lcoreAt 0 0).elem true 2 3 (16 + 9) = 9) (1 + 2 * 3 + 64) = true ∧
    executes (.maddv 2 8 7) (fun s => (s.lcoreAt 0 0).elem true 2 0 0 = 0x3F800000) 1 = true ∧ executes (.mrd 6 2 7) (fun s => lane (s.slotAt 0 0) 6 3 = 0) 1 = true := by decide +kernel

theorem witness_VectorWaitedForms :
    let s := at0 (vtask [(6, 0x2000#64), (7, 8#64)])
    s.cur.pfx = none ∧ (s.coreAt 0).vecq = [] ∧ s.cur.st ≠ .free ∧ s.cur.frames = [] ∧ (s.orderHomes 0 0).cur = s.cur ∧
    isOk (lanePlaces 0x00FF#16 false (fun i => 0x2000#64 + BitVec.ofNat 64 (4 * i)) 16 s) (fun p _ => decide (p.length = 8)) = true ∧
    isFault (lanePlaces 0x00FF#16 false (fun i => 0x2002#64 + BitVec.ofNat 64 (4 * i)) 16 s) 0x03 = true ∧
    isOk (redxLanes 0 0 0x2000#64 1 8 9 1 2 0 16 s) = true ∧ ({ s.cur with p := [(1, 0#16)] } : Slot).getP 1 = 0#16 ∧
    isOk (loadM 0 0 (.mem 0x2000 (xlat 0)) 4 true s) = true := by decide +kernel
/-- The slot blocked on a form of the engine with its command there or done, and commands at the engine with places. -/
def waitingOn (i : Instr) (q : List VecCmd) : State :=
  let s := withEv (at0 { vtask with st := .blocked (.on i) }) { a := 0, b := 0 }
  s.setCore 0 { s.coreAt 0 with vecq := q }
def placing (i : Instr) (places : List (Nat × Place)) (got : List (Nat × Lane) := []) : State :=
  let s := withMem (engine i)
  s.setCore 0 { s.coreAt 0 with vecq := [{ cmdOf i with places := places, got := got }] }
theorem witness_VectorWaitedForms_engine :
    let s := at0 (vtask [(6, spad0), (7, 4#64)])
    let u := waitingOn (.pget 5 1) [cmdOf (.pget 5 1)]
    let v := placing (.vld 1 5 6) [(0, .mem 0x2000 (xlat 0)), (7, .mem 0x2004 (xlat 0))]
    let w := placing (.vst 0 6 6) [(3, .spad 64)]
    let full := s.setCore 0 { s.coreAt 0 with sb := List.replicate 16 (s.entryOf 0 0 0x2000 (xlat 0) (.store [1#8])) }
    (s.homes = [] ∧ (s.coreAt 0).vecq = [] ∧ s.cur.frames = [] ∧ ((s.coreAt 0).plb.find? fun e => e.lease == 0 && e.dom == 0 && e.seg == 0x7FFFFFF00000 / 2 ^ 21).isSome = true ∧
      (∀ i, i < 16 → (s.cur.getX 6 + BitVec.ofNat 64 (4 * i)).toNat % 4 = 0 ∧ 0x7FFFFFF00000 ≤ (s.cur.getX 6 + BitVec.ofNat 64 (4 * i)).toNat ∧
        (s.cur.getX 6 + BitVec.ofNat 64 (4 * i)).toNat < 0x7FFFFFF00000 + 0x3F800) ∧
      ({ s.cur with p := [(1, 0x0008#16)] } : Slot).getP 1 = 1#16 <<< 3 ∧ ((s.cur.getX 6 + ((s.cur.getV 6).extractLsb' 96 32).zeroExtend 64).toNat % 4 = 3) ∧
      ((s.cur.getX 6 + ((s.cur.getV 9).extractLsb' 96 32).zeroExtend 64).toNat % 4 = 0)) ∧
    ((u.slotAt 0 0).st = .blocked (.on (.pget 5 1)) ∧ ((u.coreAt 0).vecq.map fun v => (v.slot, v.gen)) = [(0, (u.slotAt 0 0).gen)] ∧ ((waitingOn (.pget 5 1) []).coreAt 0).vecq = []) ∧
    (((v.coreAt 0).vecq.map fun q => (q.instr, q.places.drop q.got.length)) = [(.vld 1 5 6, [(0, .mem 0x2000 (xlat 0)), (7, .mem 0x2004 (xlat 0))])] ∧ isOk (loadM 0 0 (.mem 0x2000 (xlat 0)) 4 true v) = true) ∧
    (((w.coreAt 0).vecq.map (·.places)) = [[(3, .spad 64)]] ∧ isOk (vecStore 0 0 0 ((w.slotAt 0 0).getV 6) [(3, .spad 64)] (w.setCore 0 { w.coreAt 0 with vecq := [] })) = true) ∧
    (let q := full.setCore 0 { full.coreAt 0 with vecq := [cmdOf (.vredx 1 8 6 9) 0x2000] }
     (match redxLanes 0 0 0x2000#64 1 8 9 1 2 0 16 q with | .error .stall u => decide ((u.coreAt 0).vecq.map (fun v => (v.slot, v.gen, v.redx.isSome)) = [(0, 0, true)]) && decide (u.core = 0) | _ => false) = true ∧
     isFault (redxLanes 0 0 0x2002#64 1 8 9 1 2 0 16 q) 0x03 = true) := by decide +kernel
theorem test_vector_waited :
    (∀ e ∈ [(Instr.pget 5 1, 0xFF#64), (.ppop 1 5 0, 8#64), (.vmvvx 5 6 9, 9#64)],
      gives (exec e.1 (at0 vtask)) (fun s => s.cur.st = .blocked (.on e.1) && ((s.coreAt 0).vecq.map (·.instr)) = [e.1]) = true ∧
      executes e.1 (fun s => (s.slotAt 0 0).getX 5 = e.2) = true ∧
      gives (exec .slotUnblock (waitingOn e.1 [])) (fun s => s.cur.st = .ready && s.cur.pc = 0x1004) = true ∧
      gives (exec .slotUnblock (waitingOn e.1 [cmdOf e.1])) (fun s => s.cur.st = .blocked (.on e.1)) = true) ∧
    gives (exec .vectorCommandExecute (placing (.vld 1 5 6) [(0, .mem 0x2000 (xlat 0)), (7, .mem 0x2004 (xlat 0))])) (fun s =>
      ((s.coreAt 0).vecq.map (·.got)) = [[(0, 0x04030201)]] && lane (s.slotAt 0 0) 5 0 = 0) = true ∧
    gives (exec .vectorCommandExecute (placing (.vld 1 5 6) [(0, .mem 0x2000 (xlat 0)), (7, .mem 0x2004 (xlat 0))] [(0, 0x04030201)])) (fun s =>
      (s.coreAt 0).vecq = [] && lane (s.slotAt 0 0) 5 0 = 0x04030201 && lane (s.slotAt 0 0) 5 7 = 0x88070605) = true ∧
    gives (exec .vectorCommandExecute (placing (.vst 0 6 6) [(3, .spad 64)])) (fun s => (s.lcoreAt 0 0).spadBytes 64 2 = [3, 0]) = true ∧
    (∀ i ∈ [Instr.vld 1 5 6, .vst 1 5 6, .vlds 1 5 6 7, .vsts 1 5 6 7, .vldx 1 5 6 0, .vstx 1 5 6 0],
      gives (exec i (at0 (vtask [(6, 0x2000#64), (7, 8#64)]))) (fun s => ((s.coreAt 0).vecq.map (·.places.length)) = [8] && s.cur.pc = 0x1004) = true) ∧
    gives (exec (.vredx 1 8 6 9) (at0 (vtask [(6, 0x2000#64)]))) (fun s => (s.coreAt 0).sb.length = 8 && s.cur.getP 1 = 0) = true ∧
    faults (at0 (vtask [(6, 0x2002#64)])) (.vld 1 5 6) = some 0x03 := by decide +kernel

/-! ### Witnesses and steps: gangs and row arrays -/

/-- Lease 0's part of core 0 with bytes in its scratchpad. -/
def withSpad (s : State) (off : Nat) (bs : List Byte) : State := s.setLCore 0 0 ((s.lcoreAt 0 0).writeSpad off bs)
def entrant (i : Instr) (a b : Word := 0) : Entrant := { core := 0, slot := 0, instr := i, pfx := none, a := a, b := b, failed := none }
def gang1 (entered : List Entrant) (agreed : Bool := false) (passes : List Pass := []) : Gang :=
  { lease := 0, tag := 0, rows := [0], live := [(0, 0)], size := 1, entered := if agreed then [] else entered, agreed := agreed,
    op := if agreed then entered else [], passes := passes }
/-- A task that is the one member of gang 0. -/
def member (x : Tab Word := []) (g : Gang := gang1 []) : State := withEv { at0 { task x with gang := some 0 } with gangs := [(0, g)] } { a := 0 }
/-- The same task BLOCKED in the barrier. -/
def waiting (g : Gang) : State := withEv { at0 { task with gang := some 0, st := .blocked .gang } with gangs := [(0, g)] } { a := 0 }
def pass1 : Pass := { tile := 2, m := 1, k0 := 0, bi4 := false, addr := 0, planeB := [] }

theorem witness_Gangs :
    let s := member [(6, 0x2000#64), (7, 0x100000000#64), (8, spad0), (9, 0xFFFFDF1F#64), (10, 0x2001#64)]
    let s1 := s.finishVec 0 0
    (s.cur.pfx = none ∧ s.cur.gang = some 0 ∧ tabFind s.gangs 0 = some (gang1 []) ∧ tabFind s1.gangs 0 = some (gang1 []) ∧ (at0 task).cur.gang = none) ∧
    ((s.cur.getX 7) >>> 32 ≠ 0 ∧ (s.cur.getX 10).extractLsb' 0 6 ≠ 0#6 ∧ (s.cur.getX 9) >>> 32 = 0 ∧ (s.cur.getX 9).extractLsb' 5 3 = 0#3 ∧
      ((s.cur.getX 9).toNat / 256) + 32 = 0xFFFFFF ∧ (s1.lcoreAt 0 0).active.bi4 = false) ∧
    isOk (Machine.checkRange spad0 2112 s1) = true ∧ isOk (checkRights 0 0 0 spad0.toNat { write := false, fetch := false } s1) = true ∧
    isOk (Machine.checkRange spad0 (64 * (0x1F + 1)) s1) = true ∧
    ((gang1 [entrant .swsG]).entered.length = (gang1 []).size ∧ (gang1 [entrant .swsG]).agrees = true ∧ (gang1 [entrant .swsG] true).agreed = true ∧
      { gang1 [entrant .swsG, entrant (.ldsG 6)] with size := 2 }.agrees = false ∧ (gang1 []).entered.length ≠ (gang1 []).size ∧
      ((waiting (gang1 [entrant .swsG] true)).slotAt 0 0).st = .blocked .gang ∧ ((waiting (gang1 [entrant .swsG] true)).slotAt 0 0).gen = (entrant .swsG).gen ∧
      s.shadowInUse (gang1 []) = false ∧ (gang1 []).cores.Nodup ∧ (∀ m ∈ (gang1 []).cores, (s.lcoreAt 0 m).planePoison = [] ∧ (s.lcoreAt 0 m).accPoison = []) ∧
      (gang1 [] true [pass1, pass1, pass1, pass1]).passes.length = 4 ∧ (s.lcoreAt 0 0).recOf false 2 = [] ∧ (s.lcoreAt 0 0).spadPoison = []) := by decide +kernel
/-- Two members of gang 0, on the cores 0 and 1, BLOCKED in the operation that they agreed on. -/
def pair (i : Instr) (a0 a1 : Word) (b : Word := 0) : Gang :=
  { gang1 [] true with live := [(0, 0), (1, 0)], size := 2, op := [entrant i a0 b, { entrant i a1 b with core := 1 }] }
def waiting2 (g : Gang) : State :=
  let s := waiting g
  s.setCore 1 { Core.init with slots := [(0, { task with gang := some 0, st := .blocked .gang })] }
/-- The record of tile 2 on core 1. -/
def recorded (s : State) (r : List (Nat × Nat)) : State := s.setLCore 0 1 ((s.lcoreAt 0 1).setRec false 2 r)
theorem witness_Gangs_events :
    let g := pair (.mmaG 2 6 7) spad0 spad0
    let w := waiting2 g
    let b := pair (.barr 5 6) 4 8
    let eight := (List.range 8).map fun j => (100 + 2 * j, 101 + 2 * j)
    (tabFind w.gangs w.ev.a = some g ∧ g.agreed = true ∧ g.op = entrant (.mmaG 2 6 7) spad0 :: [{ entrant (.mmaG 2 6 7) spad0 with core := 1 }] ∧ (g.op.map fun m => (m.core, m.slot)).Nodup ∧ g.cores.Nodup ∧
      g.passes.length < 4 ∧ (∀ m ∈ g.op, (w.slotAt m.core m.slot).gen = m.gen ∧ (w.slotAt m.core m.slot).unwound = m.unwound ∧ (w.slotAt m.core m.slot).st = .blocked .gang)) ∧
    (1 ∈ g.cores ∧ ((recorded w [(31, 32)]).lcoreAt 0 1).recOf false 2 = [(31, 32)] ∧ 0 < 32 ∧ 31 < 32 ∧ (∀ m ∈ g.cores, (w.lcoreAt 0 m).recOf false 2 = [] ∧ (insertFrag 0 32 []).length ≤ 8) ∧
      ((recorded w eight).lcoreAt 0 1).recOf false 2 = eight ∧ (∀ f ∈ eight, ¬ (0 < f.2 ∧ f.1 < 32)) ∧ 8 < (insertFrag 0 32 eight).length) ∧
    (let l := pair (.ldsG 6) spad0 (spad0 + 64)
     (l.op.map (·.core)).Nodup ∧ (waiting2 l).shadowInUse l = false ∧ (∀ m ∈ l.op, ((waiting2 l).lcoreAt 0 m.core).spadPoison = []) ∧
     sliceMax false (List.replicate 2112 0#8) ≤ 0 ∧ (waiting2 { l with passes := [{ pass1 with planeB := [] }] }).shadowInUse l = false) ∧
    b.op.map (·.a) = [4, 8] ∧ ¬ ((waiting2 b).slotAt 0 0).gen = 1 := by decide +kernel
theorem test_gang_events :
    gives (exec .gangOperationAccept (waiting2 (pair (.barr 5 6) 4 8))) (fun s => s.cur.getX 5 = 12 && (s.slotAt 1 0).getX 5 = 12 && s.cur.pc = 0x1004) = true ∧
    gives (exec .gangOperationAccept (recorded (waiting2 (pair (.mmaG 2 6 7) spad0 spad0)) [(31, 32)])) (fun s => (s.gangs.map (·.2.passes.length)) = [0] && (s.lcoreAt 0 0).mst = 1 && s.cur.st = .ready) = true ∧
    gives (exec .gangOperationAccept (recorded (waiting2 (pair (.mmaG 2 6 7) spad0 spad0)) ((List.range 8).map fun j => (100 + 2 * j, 101 + 2 * j)))) (fun s => (s.gangs.map (·.2.passes.length)) = [0] && (s.lcoreAt 0 1).mst = 2) = true := by decide +kernel
/-- Gang 1 has the rows of gang 0: its pass was accepted before gang 0's, or its barrier completed before. -/
def shared (e : List Entrant) : State :=
  let s := waiting { gang1 e (!e.isEmpty) (if e.isEmpty then [{ pass1 with no := 2 }] else []) with turn := 1 }
  { s with gangs := s.gangs ++ [(1, { gang1 e (!e.isEmpty) (if e.isEmpty then [{ pass1 with tile := 3, no := 1 }] else []) with lease := 20 })] }
theorem witness_Gangs_order :
    let s := shared []
    let b := shared [entrant .swsG]
    ((s.gangs.map fun h => h.2.passes.map (·.no)) = [[2], [1]] ∧ (s.gangs.map (·.2.rows)) = [[0], [0]]) ∧
    ((b.gangs.map fun h => (h.2.agreed, h.2.acts, h.2.turn)) = [(true, true, 1), (true, true, 0)] ∧ b.nextTurn = 2) := by decide +kernel
theorem test_gangs_order :
    gives (exec .passComplete (shared [])) (fun s => (s.gangs.map (·.2.passes.length)) = [1, 1]) = true ∧ gives (exec .passComplete (withEv (shared []) { a := 1 })) (fun s => (s.gangs.map (·.2.passes.length)) = [1, 0]) = true ∧
    gives (exec .gangOperationAccept (shared [entrant .swsG])) (fun s => s.cur.st = .blocked .gang) = true ∧
    gives (exec .gangOperationAccept (shared [entrant (.barr 5 6)])) (fun s => s.cur.st = .ready) = true ∧
    gives (exec .gangBarrierComplete { member [] (gang1 [entrant .swsG]) with gangs := [(0, gang1 [entrant .swsG]), (1, { gang1 [entrant .swsG] true with turn := 4 })] }) (fun s => (s.gangs.map (·.2.turn)) = [5, 4]) = true := by decide +kernel
theorem test_gangs :
    gives (exec .swsG (member)) (fun s => s.cur.st = .blocked .gang && (s.gangs.map (·.2.entered.length)) = [1]) = true ∧ faults (at0 task) .swsG = some 0x0B ∧
    gives (exec (.barr 5 6) (member [(6, 4#64)])) (fun s => s.cur.st = .blocked .gang && (s.gangs.map (·.2.entered.map (·.a))) = [[4]]) = true ∧
    gives (exec (.ldsG 6) (member [(6, spad0)])) (fun s => (s.gangs.map (·.2.entered.map (·.failed))) = [[none]]) = true ∧
    gives (exec (.mmaG 2 6 7) (member [(6, spad0), (7, 0#64)])) (fun s => (s.gangs.map (·.2.entered.map (·.failed))) = [[none]]) = true ∧
    gives (exec .gangBarrierComplete (member [] (gang1 [entrant .swsG]))) (fun s => (s.gangs.map (·.2.agreed)) = [true]) = true ∧
    gives (exec .gangOperationAccept (waiting (gang1 [entrant .swsG] true))) (fun s => s.cur.st = .ready && s.cur.pc = 0x1004 && (s.lcoreAt 0 3).activeB) = true ∧
    gives (exec .gangOperationAccept (waiting (gang1 [entrant (.ldsG 6) spad0 0] true))) (fun s => s.cur.st = .ready && s.cur.pc = 0x1004 && !(s.lcoreAt 0 0).activeB) = true ∧
    gives (exec .gangOperationAccept (waiting (gang1 [entrant (.barr 5 6) 4] true))) (fun s => s.cur.getX 5 = 4) = true ∧
    gives (exec .gangOperationAccept (waiting (gang1 [entrant (.mmaG 2 6 7) spad0 0] true))) (fun s => (s.gangs.map (·.2.passes.map (·.tile))) = [[2]]) = true ∧
    gives (exec .passComplete (member [] (gang1 [] false [pass1]))) (fun s => (s.gangs.map (·.2.passes)) = [[]]) = true := by decide +kernel

theorem witness_CoreMatrixForms :
    let s := at0 (task [(6, 0x100000000#64), (7, 0x01000020#64), (8, 32#64), (9, 0x80000020#64), (10, 16#64), (11, 15#64)])
    let k := (fun r => (s.lcoreAt 0 0).setRec false 2 r)
    s.cur.pfx = none ∧ s.cur.frames = [] ∧ (s.coreAt 0).vecq = [] ∧ s.gangs = [] ∧ (s.cur.getX 6) >>> 32 ≠ 0 ∧ (s.cur.getX 7).extractLsb' 24 7 ≠ 0#7 ∧
    (s.cur.getX 8 >>> 32 = 0 ∧ (s.cur.getX 8).extractLsb' 24 7 = 0#7 ∧ (s.cur.getX 8).toNat % 2 ^ 24 ≠ 0 ∧ (s.cur.getX 8).getLsbD 31 = false ∧ (k []).recOf false 2 ≠ [(0, 32)] ∧
      (k [(0, 32)]).recOf false 2 = [(0, 32)]) ∧ (s.cur.getX 9).getLsbD 31 = true ∧ (s.cur.getX 10).toNat = 16 ∧ (s.cur.getX 11).toNat < 16 := by decide +kernel
/-- The member with a pass on tile 2 in flight, the third that the package has accepted. -/
def passing : State := { member [(6, 4#64), (7, 32#64)] (gang1 [] false [{ pass1 with no := 2 }]) with passNo := 3 }
theorem witness_CoreMatrixForms_passes :
    let s := passing
    let c := at0 (task [(7, 32#64)])
    s.passBefore 0 0 4 s.passNo = true ∧ s.passBefore 0 0 8 s.passNo = false ∧ s.passOnTile 0 0 2 = true ∧ (s.cur.getX 7) >>> 32 = 0 ∧ (s.cur.getX 7).extractLsb' 24 7 = 0#7 ∧
    (s.cur.getX 7).toNat % 2 ^ 24 ≠ 0 ∧ ((c.setCore 0 { c.coreAt 0 with vecq := [cmdOf (.viota 0 1)] }).coreAt 0).vecq = [cmdOf (.viota 0 1)] := by decide +kernel
/-- Slot 1 of core 0 waits in an ASWAP on tile 2, its place 0, and slot 0 in one, its place `n`, or is READY. -/
def swapping (n : Option Nat) : State :=
  let s := at0 { task [(7, 0x80000020#64)] with st := match n with | some n => .blocked (.swap 5 2 7 n) | none => .ready }
  withEv (s.setSlot 0 1 { task [(7, 0x80000020#64)] with st := .blocked (.swap 5 2 7 0) }) { a := 0, b := 0 }
theorem witness_CoreMatrixForms_swaps :
    let s := swapping none
    let bare := at0 (callee false false)
    (s.cur.pfx = none ∧ s.cur.frames = [] ∧ (s.coreAt 0).vecq = [] ∧ (s.coreAt 0).slots.any (fun k => k.2.st == .blocked (.swap 5 2 7 0) && k.2.lease == s.cur.lease) = true ∧ s.nextSwap 0 = 1 ∧
      (s.cur.getX 7) >>> 32 = 0 ∧ (s.cur.getX 7).extractLsb' 24 7 = 0#7 ∧ (s.cur.getX 7).toNat % 2 ^ 24 ≠ 0) ∧
    bare.cur.pfx = none ∧ (bare.cur.frames.head?.map (·.vec)) = some false := by decide +kernel
theorem test_swaps_in_order :
    gives (exec (.aswap 5 2 7) (swapping none)) (fun t => t.cur.st = .blocked (.swap 5 2 7 1)) = true ∧ gives (exec (.aswap 5 3 7) (swapping none)) (fun t => t.cur.st = .ready && t.cur.pc = 0x1004) = true ∧
    gives (exec (.mzero 2) (swapping none)) (fun t => (t.coreAt 0).stalled && t.cur.pc = 0x1000) = true ∧
    gives (exec .slotUnblock (swapping (some 1))) (fun t => t.cur.st = .blocked (.swap 5 2 7 1)) = true ∧
    gives (exec .slotUnblock (withEv (swapping (some 1)) { a := 0, b := 1 })) (fun t => (t.slotAt 0 1).st = .ready && (t.slotAt 0 1).pc = 0x1004) = true := by decide +kernel
/-- In a gate callee without vectors the queue forms, the gang forms but BARR and the matrix forms raise GVEC (R366). -/
theorem test_gvec : ∀ i ∈ [Instr.qpush 1 6, .qpop 5 1, .qcnt 5 1, .ldsG 6, .swsG, .mmaG 2 6 7, .mwait 6, .mzero 2, .aswap 5 2 6, .mrec 5 2 6, .mstat 5 6],
    faults (at0 (callee false false)) i = some 0x1A := by decide +kernel
theorem test_matrix :
    let s := fun (x : Word) => (at0 (task [(6, x)])).setLCore 0 0 (((LCore.fresh 0 []).setRec false 2 [(0, 32)]).setElem false 2 1 1 7)
    gives (exec (.aswap 5 2 6) (s 32)) (fun t => t.cur.getX 5 = 0 && (t.lcoreAt 0 0).elem true 2 1 1 = 7 && (t.lcoreAt 0 0).recOf false 2 = []) = true ∧
    gives (exec (.aswap 5 2 6) (s 64)) (fun t => t.cur.getX 5 = 1) = true ∧ gives (exec (.aswap 5 2 6) (s 0)) (fun t => t.cur.getX 5 = 2) = true ∧
    gives (exec (.mzero 2) (s 0)) (fun t => (t.lcoreAt 0 0).elem false 2 1 1 = 0 && (t.lcoreAt 0 0).recOf false 2 = []) = true ∧
    gives (exec (.mrec 5 2 6) (s 0)) (fun t => t.cur.getX 5 = 0x0001000020000000) = true ∧ gives (exec (.mwait 6) (s 4)) (fun t => t.cur.pc = 0x1004) = true ∧
    gives (exec (.mwait 6) passing) (fun t => t.cur.st = .blocked (.passes 4 3) && t.cur.pc = 0x1000) = true ∧
    gives (exec (.aswap 5 2 7) passing) (fun t => t.cur.st = .blocked (.swap 5 2 7 0)) = true ∧
    gives (exec (.mstat 5 6) ((at0 (task [(6, 1#64)])).setLCore 0 0 { LCore.fresh 0 [] with mst := 3 })) (fun t => t.cur.getX 5 = 3 && (t.lcoreAt 0 0).mst = 2) = true := by decide +kernel

/-! ### Witnesses and steps: gathers and copies -/

theorem witness_GatherForms :
    let s := at0 (task [(6, 0x2000#64), (7, 0x0000100F#64), (8, 0x1FFFFFFFFFFFFF#64), (9, 0x800000000000000#64), (10, 0x2008#64), (11, 32#64)])
    let w := (s.cur.getX 7).toNat
    s.cur.pfx = none ∧ s.cur.frames = [] ∧ isOk (gatherPlace 0x2000#64 false s) = true ∧ isOk (gatherPlace 0x2000#64 true s) = true ∧ isOk (releaseM 2 (s.drainSlot 0 0)) = true ∧
    ¬ (2 ^ 38 ≤ w ∨ 1 < gFmt w ∨ gK w = 0 ∨ 31 < w % 64) ∧ isOk (ginitPlace 0x2000#64 w s) = true ∧ gK 0 = 0 ∧ 31 < (s.cur.getX 11).toNat % 64 ∧
    (s.cur.getX 8).toNat + 1 = 2 ^ 53 ∧ (s.cur.getX 9).toNat = 2 ^ 59 ∧ (0#64).toNat.testBit 4 = false ∧ (s.cur.getX 10).toNat % 64 ≠ 0 := by decide +kernel
theorem witness_GatherForms_away :
    let s := at0 (task [(6, 0x800000001000#64), (7, 0#64)])
    let r : State := { s with leases := [(0, { Lease.house with apertures := [(0, (true, 7, 3))] })] }
    let s1 := (r.finishVecMem 0 0).orderHomes 0 0
    (r.cur.getX 6).toNat % 64 = 0 ∧ 2 ^ 47 ≤ (r.cur.getX 6).toNat ∧ (r.cur.getX 6).toNat < 2 ^ 48 ∧ tabFind (s1.leaseD s1.cur.lease).apertures (bitsOf (r.cur.getX 6).toNat 46 40) = some (true, 7, 3) ∧
    isOk (releaseM 3 (s1.drainSlot s1.core s1.slot)) (fun _ t => decide (t.node ≠ 7) && decide ((t.lcoreAt 0 0).accPoison = [])) = true := by decide +kernel
theorem test_gather_away :
    gives (exec (.gadd 5 6 7) { at0 (task [(6, 0x800000001000#64), (7, 0#64)]) with leases := [(0, { Lease.house with apertures := [(0, (true, 7, 3))] })] }) (fun t =>
      t.cur.st = .blocked (.answer 5) && (t.fabric.map fun r => (r.kind, r.dest, r.data.head?)) = [(1, 7 * 8192, some 0x1003#64)]) = true := by decide +kernel
theorem test_gather_forms :
    let s := at0 (task [(6, 0x2000#64), (7, 0x0000100F#64)])
    (∀ i ∈ [Instr.ginit 5 6 7, .gstat 5 6, .grec 5 6 7, .gaband 5 6, .gaddv 5 6 0, .gadd 5 6 0],
      gives (exec i s) (fun t => t.cur.st = .blocked (.answer 5) && (t.homeAt 2).reqs.length = 1) = true) ∧
    gives (exec (.ginit 5 6 0) s) (fun t => t.cur.getX 5 = 5) = true ∧ faults (at0 (task [(6, 0x2008#64)])) (.gaddv 5 6 0) = some 0x03 ∧
    faults (at0 (task [(6, 0x2000#64), (7, 16#64)])) (.gadd 5 6 7) = some 0x0A := by decide +kernel

/-- A descriptor of one row of 8 bytes (R160). -/
def desc (src dst : Word) (len : Nat) : List Byte := leBytes 8 src.toNat ++ leBytes 8 dst.toNat ++ leBytes 4 len ++ [1, 0, 0, 0] ++ List.replicate 40 0
/-- A collective of 2 FP32 elements, an all-reduce of group 0 that completes in a word of the scratchpad (R166). -/
def coll : List Byte := [0, 0, 0, 0, 0, 0, 0, 0] ++ leBytes 8 0x2000 ++ leBytes 8 0x2040 ++ leBytes 8 2 ++ [1] ++ List.replicate 15 0 ++ leBytes 8 0 ++ leBytes 8 9
def copier (d : List Byte) : State := withSpad (at0 (task [(6, spad0), (7, 3#64), (8, spad0 + 8), (9, 0x2000#64)])) 0 d
/-- The house's partition with the one-member group 0 of lease 0. -/
def grouped (s : State) : State := { s with parts := [(0, { Partn.house with groups := [(0, (1, [(0, (0, 0))]))] })] }
theorem witness_CopyForms :
    let s := copier (desc 0x2000 (spad0 + 64) 8)
    let busy := s.setLCore 0 0 { s.lcoreAt 0 0 with copyId := 1, copySt := [(1, 0)] }
    s.cur.pfx = none ∧ (s.cur.getX 8).extractLsb' 0 6 ≠ 0#6 ∧ (s.cur.getX 9).extractLsb' 0 6 = 0#6 ∧ (s.cur.getX 6).extractLsb' 0 6 = 0#6 ∧
    isOk (readDesc spad0 s) (fun d t => decide (d = desc 0x2000 (spad0 + 64) 8) && t.descOk 0 0 none .read d && decide (t.cur = s.cur)) = true ∧
    isOk (readDesc spad0 (copier (desc 0x2000 (spad0 + 64) 0))) (fun d t => !t.descOk 0 0 none .read d) = true ∧
    isOk (readDesc spad0 (grouped (copier coll))) (fun d t => t.collOk 0 none d) = true ∧ isOk (readDesc spad0 (copier coll)) (fun d t => !t.collOk 0 none d) = true ∧
    tabGet 0 s.pending s.cur.account = 0 ∧ (busy.lcoreAt 0 0).copyStatus 1 = 0 ∧ (s.lcoreAt 0 0).copyStatus 0 ≠ 0 := by decide +kernel
/-- What a descriptor and a collective are asked (R160 to R162): a stride that is no word, a row past the scratchpad, a fill of 4 bytes, COUNT 0, MODE 0. -/
theorem test_copy_checks :
    let s := grouped (at0 task)
    let d := desc 0x2000 (spad0 + 64) 8
    s.descOk 0 0 none .read d = true ∧ s.descOk 0 0 none .write d = false ∧ s.descOk 0 0 none .move (desc 0x2000 0x2040 8) = true ∧ s.descOk 0 0 none .fill (desc 0 0x2040 4) = false ∧ s.descOk 0 0 none .fill (desc 0 0x2040 8) = true ∧
    s.descOk 0 0 none .read (desc 0x2000 (spad0 + 0x3F800) 8) = true ∧ s.descOk 0 0 none .read (desc 0x2000 (spad0 + 0x3F801) 8) = false ∧ s.descOk 0 0 (some (64, 7)) .read d = false ∧
    s.descOk 0 0 none .read (d.take 40 ++ leBytes 8 0x1000 ++ d.drop 48) = false ∧ s.collOk 0 none coll = true ∧ s.collOk 0 none (coll.take 24 ++ leBytes 8 0 ++ coll.drop 32) = false ∧
    s.collOk 0 none (coll.take 32 ++ [0] ++ coll.drop 33) = false ∧ s.collOk 20 none coll = false := by decide +kernel
theorem test_copy_forms :
    (∀ e ∈ [(Instr.crd 5 6, desc 0x2000 (spad0 + 64) 8), (.cwr 5 6, desc (spad0 + 64) 0x2000 8), (.cmov 5 6, desc 0x2000 0x2040 8), (.cfill 5 6 7, desc 0 0x2040 8)],
      gives (exec e.1 (copier e.2)) (fun t => t.cur.getX 5 = 1 && t.cur.pc = 0x1004 && ((t.coreAt 0).copyq.map (·.id)) = [1] && t.pending = [(0, 1)]) = true) ∧
    gives (exec (.coll 5 6) (grouped (copier coll))) (fun t => t.cur.getX 5 = 1 && ((t.coreAt 0).copyq.map (·.coll)) = [true]) = true ∧
    faults (copier (desc 0x2000 0x2040 8)) (.crd 5 6) = some 0x09 ∧ faults (copier []) (.crd 5 9) = some 0x07 ∧
    gives (exec (.cstat 5 6) (at0 (task [(6, 1#64)]))) (fun t => t.cur.getX 5 ≠ 0) = true ∧
    gives (exec (.cwait 5 6) ((at0 (task [(6, 1#64)])).setLCore 0 0 { LCore.fresh 0 [] with copyId := 1, copySt := [(1, 0)] })) (fun t => t.cur.st = .blocked (.on (.cwait 5 6))) = true := by decide +kernel

/-! ### Witnesses and steps: messages, joins, waits and gates -/

/-- A vector-table entry (R40). -/
def vtBytes (handler cls b8 : Nat) : List Byte := leBytes 8 (handler + cls) ++ [BitVec.ofNat 8 b8] ++ List.replicate 7 0
/-- Types 1 (class 0, priority 2, enabled) and 0xFE (carried code) of lease 0 on core 0. -/
def withVt (s : State) : State := s.setLCore 0 0 { s.lcoreAt 0 0 with vcache := [(1, vtBytes 0x4000 0 0x0A), (0xFE, vtBytes 0 0 0x04)] }
def sender (x : Tab Word) : State := withVt (at0 (task x))
/-- Lease 0 with an aperture entry of node 7. -/
def reaching (s : State) : State := { s with leases := [(0, { Lease.house with apertures := [(0, (true, 7, 3))] })] }
def aMsg : Msg :=
  { type := 1, args := [4, 5], sender := 9, wid := 6, tag := 0, srcLease := 0, lease := 0, core := 0, counted := false, entry := none, gang := none, jdec := none,
    prio := 2, age := 0, aged := false }
/-- Core 0 with 64 messages of class 0. -/
def crowded (s : State) : State := s.setCore 0 ((s.coreAt 0).setQueue 0 (List.replicate 64 aMsg))
/-- The house's partition with the one-member group of this device's lease 0, and launch 0 live: what R403 admits. -/
def owning (s : State) : State :=
  { s with parts := [(0, { Partn.house with groups := [(0, (1, [(0, (0, 0))]))] })],
           launches := [(0, { lease := 0, fn := none, hdr := [], hdrDva := 0, account := 0, open_ := 1, next := 0, sent := 0, groups := [], rows := [], completed := false })] }
theorem witness_SendForms :
    let s := sender [(6, 0x1000#64), (7, 0x201#64), (8, 0x701#64), (9, 0xF1#64), (10, 0x3FE#64), (11, 0xE000#64), (12, 0x100000000#64)]
    let f := crowded s
    s.cur.pfx = none ∧ 2 ^ 32 ≤ (s.cur.getX 12).toNat ∧ 6 < (s.cur.getX 8).toNat / 256 % 8 ∧ (s.cur.getX 9).toNat % 256 = 0xF1 ∧
    ((s.cur.getX 10).toNat % 256 = 0xFE ∧ (s.cur.getX 10).toNat / 256 % 8 = 3) ∧ s.localWord (s.cur.getX 6) = true ∧ s.destLease 0 0 = some 0 ∧
    ({ s with quads := [(0, { Quad.init with owner := none })] } : State).destLease 0 0 = none ∧ s.localWord (s.cur.getX 11) = false ∧ s.routed 0 7 = false ∧ (reaching s).routed 0 7 = true ∧
    (s.deliver (s.msgOf 0 0 1 0 0 [4, 5]) false).2 = true ∧ (f.deliver (f.msgOf 0 0 1 0 0 [4, 5]) false).2 = false ∧
    (s.ownWord 0#64 = true ∧ s.localWord 0#64 = true ∧ ((owning s).sendOwn 0 (s.msgOf 0 0 1 0 0 [4, 5])).2 = true ∧ s.ownWord (s.cur.getX 6) = false ∧
      ((owning f).sendOwn 0 (f.msgOf 0 0 1 0 0 [4, 5])).2 = false) := by decide +kernel
theorem test_send :
    let x : Tab Word := [(6, 0x1000#64), (7, 0x201#64), (10, 4#64), (11, 5#64), (12, 0xE000#64)]
    gives (exec (.send 5 6 7) (sender x)) (fun t => t.cur.getX 5 = 0 && ((t.coreAt 0).transit.map (·.args)) = [[4, 5]]) = true ∧
    gives (exec (.sendc 5 6 7) (crowded (sender x))) (fun t => t.cur.getX 5 = 1 && (t.coreAt 0).transit = []) = true ∧
    gives (exec (.send 5 6 7) (crowded (sender x))) (fun t => t.cur.st = .blocked (.on (.send 5 6 7))) = true ∧
    gives (exec (.send 5 12 7) (sender x)) (fun t => t.cur.getX 5 = 5) = true ∧ 
    (((reaching (sender x)).sendAway 0 0 0xE000#64 1 [4, 5]).fabric.map fun r => (r.kind, r.dest, r.type, r.data)) = [(0, 0xE000, 1, [4#64, 5#64])] ∧
    gives (exec (.send 5 6 8) (sender ((8, 0xF2#64) :: []))) (fun t => t.cur.getX 5 = 2) = true := by decide +kernel

/-- A launch header: type 1, class 0, priority 2, phase 5, one field of width 8 and four identifiers, one a core (R49 to R52, R84). -/
def header : List Byte :=
  [0x58, 0x4C, 1, 2, 0, 0, 0, 0, 8, 0, 0, 0, 0, 0, 0, 0, 4, 0, 0, 0] ++ List.replicate 20 0 ++ [3, 0, 0, 0, 0, 0, 5, 0] ++ List.replicate 16 0
/-- With the account 0 that lease 0 may charge, lease 0 on quadrant 0 alone. -/
def paying (s : State) : State :=
  { s with accounts := [(0, { balance := 100, part := 0, lease := 0, en := true })], quads := (List.range 31).map fun q => (q + 1, { Quad.init with sched := [] }) }
def armed (x : Tab Word) (j : Nat) : State := withSpad (at0 (task x)) 64 (leBytes 8 j)
/-- A slot whose LNCH has read a header and waits for the distributor. -/
def deciding (h : List Byte) : State :=
  let s := paying (sender [])
  withEv (s.setCur { s.cur with st := .blocked (.launch 5 h spad0.toNat) }) { a := 0, b := 0 }
theorem witness_JoinAndLaunchForms_decision :
    let s := deciding header
    let bad := deciding (List.replicate 64 0)
    let r := s.judgeHeader 0 header
    (s.ev.a = s.core ∧ s.ev.b = s.slot ∧ s.core < 4096 ∧ s.slot < 8 ∧ s.cur.st = .blocked (.launch 5 header spad0.toNat)) ∧
    (r.2 = 0 ∧ (r.1.openLaunch 0 none header spad0.toNat).isSome = true ∧ (bad.judgeHeader 0 (List.replicate 64 0)).2 ≠ 0) := by decide +kernel
theorem witness_JoinAndLaunchForms_away :
    let s := reaching (sender [(6, 0xE001#64), (7, 0x200000040#64), (8, 0x1001#64)])
    s.localWord (s.cur.getX 6) = false ∧ s.routed 0 ((s.cur.getX 6).toNat / 2 ^ 13 % 2 ^ 19) = true ∧ (sender []).routed 0 7 = false ∧ (s.cur.getX 8).toNat % 4096 ≠ s.core ∧
    s.localWord (s.cur.getX 8) = true ∧ s.destLease 0 1 = some 0 ∧ s.homes = [] ∧
    (s.deliver { s.msgOf 0 0 0 0 1 [] with jdec := some (64, 2) } (s.cur.member && 0 == s.cur.lease)).2 = true := by decide +kernel
theorem witness_JoinAndLaunchForms :
    let s := paying (sender [(6, 1#64), (7, 0xF1#64), (8, 0x200000040#64), (9, 0x200000041#64), (10, spad0 + 64), (11, 0x100000003#64), (12, 0x300000003#64), (13, spad0 + 4), (14, 0#64)])
    let l := withSpad s 0 header
    (s.cur.pfx = none ∧ (boss []).cls = 2 ∧ s.cur.cls ≠ 2 ∧ 0xF0 ≤ (s.cur.getX 7).toNat % 256 ∧ (s.cur.getX 6).toNat % 256 < 0xF0 ∧ (s.vtEntry 0 0 1).2 = some (vtOfBytes (vtBytes 0x4000 0 0x0A)) ∧
      (vtOfBytes (vtBytes 0x4000 0 0x0A)).dom = s.cur.dom.toNat ∧ (vtOfBytes (vtBytes 0x4000 0 0x0A)).dom ≠ ({ s.cur with dom := 1 } : Slot).dom.toNat) ∧
    ((s.cur.getX 13).extractLsb' 0 3 ≠ 0#3 ∧ s.cur.frames = [] ∧ (s.cur.getX 10).toNat % 8 = 0 ∧ 0x7FFFFFF00000 ≤ (s.cur.getX 10).toNat ∧ (s.cur.getX 10).toNat < 0x7FFFFFF00000 + 0x3F800 ∧
      ((s.coreAt 0).plb.find? fun e => e.lease == 0 && e.dom == 0 && e.seg == (s.cur.getX 10).toNat / 2 ^ 21).isSome = true ∧ (s.cur.getX 11).toNat % 2 ^ 32 = 3 ∧
      (armed [] (3 + 2 ^ 40)).cur.member = false ∧ (((armed [] (3 + 2 ^ 40)).lcoreAt 0 0).readSpad 64 8).testBit 40 = true ∧ (((armed [] 3).lcoreAt 0 0).readSpad 64 8).testBit 40 = false ∧
      (((armed [] 3).lcoreAt 0 0).readSpad 64 8).testBit 41 = false) ∧
    ((s.cur.getX 9).toNat % 2 ^ 18 % 8 ≠ 0 ∧ (s.cur.getX 8).toNat % 2 ^ 18 = 64 ∧ (s.cur.getX 8).toNat / 2 ^ 32 = 2 ∧ s.localWord 0x1000#64 = true ∧ s.destLease 0 0 = some 0) ∧
    (isOk (accessM spad0 64 false l) = true ∧ isOk (loadM 0 0 (.spad 0) 64 false l) (fun h t => decide (h = header) && decide ((t.judgeHeader 0 h).2 = 0)) = true ∧
      (l.openLaunch 0 none header 0).isSome = true ∧ (l.judgeHeader 0 (List.replicate 64 0)).2 = 1 ∧ (s.cur.getX 13).toNat % 64 ≠ 0) := by decide +kernel
/-- A callee of a gate whose window is [64, 128) of the scratchpad, and a task of the live launch 0. -/
def inCallee (x : Tab Word) : State := at0 { (callee true false x) with frames := (callee true false).frames.map fun f => { f with sbase := 64, ssize := 64 } }
theorem witness_JoinAndLaunchForms_callee :
    let s := inCallee [(6, spad0 + 128), (7, 0x100000003#64), (8, spad0 + 120)]
    let c := owning (at0 { task [(6, spad0 + 64), (7, 0x100000003#64)] with counted := true })
    (s.cur.pfx = none ∧ s.cur.window = some (64, 64) ∧ (s.cur.getX 6).toNat % 8 = 0 ∧ 0x7FFFFFF00000 ≤ (s.cur.getX 6).toNat ∧ (s.cur.getX 6).toNat < 0x7FFFFFF00000 + 0x3F800 ∧ (s.coreAt 0).vecq = [] ∧ s.homes = [] ∧
      ((s.coreAt 0).plb.find? fun e => e.lease == 0 && e.dom == s.cur.dom.toNat && e.seg == (s.cur.getX 6).toNat / 2 ^ 21).any (·.w) = true ∧
      64 + 64 < (s.cur.getX 6).toNat - 0x7FFFFFF00000 + 8 ∧ 64 ≤ (s.cur.getX 8).toNat - 0x7FFFFFF00000 ∧ (s.cur.getX 8).toNat - 0x7FFFFFF00000 + 8 ≤ 64 + 64) ∧
    (c.cur.member = true ∧ (c.liveLaunch 0 0).isSome = true ∧ c.cur.window = none) := by decide +kernel
theorem test_jarm_callee :
    faults (inCallee [(6, spad0 + 128), (7, 0x100000003#64)]) (.jarm 5 6 7) = none ∧
    gives (exec (.jarm 5 6 7) (inCallee [(6, spad0 + 128), (7, 0x100000003#64)])) (fun t => t.cur.frames = [] && t.cur.getX 11 = 7 && t.cur.getX 10 = 0xFFFFFFFFFFFFFFFF) = true ∧
    gives (exec (.jarm 5 6 7) (inCallee [(6, spad0 + 120), (7, 0x100000003#64)])) (fun t => t.cur.getX 5 = 0 && (t.lcoreAt 0 0).readSpad 120 8 = 0x10100000003) = true ∧
    gives (exec (.jarm 5 6 7) (owning (at0 { task [(6, spad0 + 64), (7, 0x100000003#64)] with counted := true }))) (fun t => t.cur.getX 5 = 0 && (t.launches.map (·.2.open_)) = [2]) = true := by decide +kernel
/-- Every launch tag in use. -/
def taken256 (s : State) : State := { s with launches := (List.range 256).map fun t => (t, { lease := 0, fn := none, hdr := [], hdrDva := 0, account := 0, open_ := 1, next := 0, sent := 0, groups := [], rows := [], completed := false }) }
set_option maxRecDepth 20000 in
theorem witness_JoinAndLaunchForms_more :
    let s := inCallee [(6, 0x1000#64), (7, 0x100000080#64)]
    let f := taken256 (deciding header)
    (s.cur.pfx = none ∧ s.cur.window = some (64, 64) ∧ (s.cur.getX 7).toNat % 2 ^ 18 = 128) ∧
    ((armed [] 3).lcoreAt 0 0).spadPoisoned 64 8 = false ∧ (((armed [] 3).lcoreAt 0 0).readSpad 64 8).testBit 40 = false ∧ ((armed [] (1 + 2 ^ 40)).lcoreAt 0 0).readSpad 64 8 % 2 ^ 32 < 2 ∧
    (f.judgeHeader 0 header).2 = 0 ∧ (List.range 256).all (fun tag => (tabFind (f.judgeHeader 0 header).1.launches tag).isSome) = true := by decide +kernel
set_option maxRecDepth 20000 in
theorem test_joins_more :
    gives (exec (.jdec 5 6 7) (inCallee [(6, 0x1000#64), (7, 0x100000080#64)])) (fun t => t.cur.frames = [] && t.cur.getX 11 = 7) = true ∧
    gives (exec (.jdec 5 6 7) (armed [(6, 0x1000#64), (7, 0x200000040#64)] 3)) (fun t => (t.lcoreAt 0 0).readSpad 64 8 = 3 && (t.lcoreAt 0 0).readSpad 0x3F81C 4 = 1 && (t.lcoreAt 0 0).readSpad 0x3F818 4 = 0 &&
      ((tabFind (t.coreAt 0).reserve 17).map fun m => (m.type, m.args)) = some (0xF5, [6, 64, 2, 0])) = true ∧
    gives (exec (.jdec 5 6 7) (withVt (armed [(6, 0x1000#64), (7, 0x200000040#64)] 0x10100000001))) (fun t => (t.lcoreAt 0 0).readSpad 64 8 = 0x100000000 && (t.lcoreAt 0 0).readSpad 0x3F818 4 = 1 && (t.lcoreAt 0 0).rcount = 1) = true := by decide +kernel
theorem test_joins :
    gives (exec (.tagdis 5 6) (withVt (at0 (boss [(6, 1#64)])))) (fun t => t.cur.getX 5 = 0 && !(t.lcoreAt 0 0).enabled 1) = true ∧
    gives (exec (.tagen 5 6) (sender [(6, 1#64)])) (fun t => t.cur.getX 5 = 0 && (t.lcoreAt 0 0).enabled 1) = true ∧
    gives (exec (.tagpd 5 6) (crowded (sender [(6, 1#64)]))) (fun t => t.cur.getX 5 = 64) = true ∧
    gives (exec (.jarm 5 6 7) (armed [(6, spad0 + 64), (7, 0x100000003#64)] 0)) (fun t => t.cur.getX 5 = 0 && (t.lcoreAt 0 0).readSpad 64 8 = 0x10100000003) = true ∧
    gives (exec (.jdec 5 6 7) (armed [(6, 0x1000#64), (7, 0x200000040#64)] 0x10100000003)) (fun t => t.cur.getX 5 = 0 && (t.lcoreAt 0 0).readSpad 64 8 = 0x10100000001) = true ∧
    gives (exec (.jdec 5 6 7) (withVt (armed [(6, 0x1000#64), (7, 0x300000040#64)] 0x10100000003))) (fun t => (t.lcoreAt 0 0).rcount = 1 && (t.lcoreAt 0 0).readSpad 64 8 = 0x100000000) = true ∧
    gives (exec (.lnch 5 6) (withSpad (paying (sender [(6, spad0)])) 0 header)) (fun t => t.launches = [] && t.cur.st = .blocked (.launch 5 header spad0.toNat) && t.cur.pc = 0x1000) = true ∧
    gives (exec .slotUnblock (deciding header)) (fun t => t.launches.length = 1 && t.cur.st = .ready && t.cur.pc = 0x1004) = true ∧
    gives (exec .slotUnblock (deciding (List.replicate 64 0))) (fun t => t.launches = [] && t.cur.getX 5 = 1 && t.cur.pc = 0x1004) = true := by decide +kernel

theorem witness_WaitForms :
    let s := withMem (at0 { (task [(6, 0x2000#64), (7, 0x8807060504030201#64), (8, 0#64)]) with ctype := 1 })
    s.cur.pfx = none ∧ (at0 (callee true false)).cur.frames ≠ [] ∧ s.cur.frames = [] ∧ 0xF0 ≤ (0xF0#8).toNat ∧ s.cur.ctype.toNat < 0xF0 ∧
    isOk (watchWord 0x2000#64 false s) = true ∧ isOk (watchWord 0x2000#64 true s) = true ∧ isOk (goHome 0x2000 (xlat 0) true s) = true ∧ s.rangePoisoned 0x2000 8 = false ∧
    BitVec.ofNat 64 (leNat (s.homeRead 0x2000 8)) = s.cur.getX 7 ∧ BitVec.ofNat 64 (leNat (s.homeRead 0x2000 8)) ≠ s.cur.getX 8 ∧ s.cur.member = false ∧ (s.homeAt 2).waits = [] ∧ (s.coreAt 0).vecq = [] := by decide +kernel
/-- The line at 0x2000 held at its own home, with the core's rights on it. -/
def keeping (s : State) : State :=
  s.setDie 0 { s.dieAt 0 with lines := [{ x := xlat 0, line := 0x80, remote := false, bytes := List.replicate 64 0, dirty := 0, poison := false }] }
theorem witness_WaitForms_held :
    let s := keeping (withMem (at0 { (task [(6, 0x2000#64), (8, 0#64)]) with ctype := 1 }))
    s.cur.pfx = none ∧ (s.coreAt 0).vecq = [] ∧ (s.coreAt 0).sb = [] ∧ s.homes = [] ∧ Home.init.reqs = [] ∧ (s.cur.getX 6).toNat = 0x2000 ∧
    ((s.coreAt 0).plb.find? fun e => e.lease == 0 && e.dom == 0 && e.seg == 0x2000 / 2 ^ 21).any (fun e => e.r && e.w) = true ∧
    ((s.dieAt (dieOf 0)).lines.find? fun l => l.x.lease == 0 && l.line == 0x2000 / 64).any
      (fun l => !l.remote && l.x.kind == 0 && l.x.wc1 && l.x.wc2 && l.x.dirty && l.x.paOf 0x2000 == 0x2000) = true ∧ windowOf 0x2000 ≤ 8 ∧ s.cur.frames = [] ∧
    s.cur.ctype.toNat < 0xF0 ∧ s.rangePoisoned 0x2000 8 = false ∧ BitVec.ofNat 64 (leNat (s.homeRead 0x2000 8)) ≠ s.cur.getX 8 ∧
    (s.homeAt (homeOf 0x2000)).waits = [] := by decide +kernel
def waiter (pa : Nat) (ldf : Bool := false) : WaitEntry :=
  { isLdf := ldf, pa := pa, lease := 0, tag := 0, type := 1, sid := 0, core := 0, arg0 := 1, arg1 := 2, wid := 3, counted := false, d := 5, n := 8, dva := pa, inc := 0 }
theorem witness_WaitForms_counted :
    let s := owning (withMem (at0 { (task [(6, 0x2000#64), (7, 0x8807060504030201#64)]) with ctype := 1, counted := true }))
    s.cur.member = true ∧ (s.liveLaunch 0 0).isSome = true ∧ isOk (watchWord 0x2000#64 false s) (fun _ t => isOk (goHome 0x2000 (xlat 0) true t) (fun _ u => decide (u.cur.counted = true) && decide (u.cur.tag = 0))) = true ∧
    ((s.setHome 2 { Home.init with waits := [waiter 0x2038] }).homeAt 2).waits = waiter 0x2038 :: [] ∧ (waiter 0x2038).poison = false := by decide +kernel
theorem test_waits :
    gives (exec (.waita 5 6 7) (owning (withMem (at0 { (task [(6, 0x2000#64), (7, 0x8807060504030201#64)]) with ctype := 1, counted := true }))))
      (fun t => t.cur.st = .free && ((t.homeAt 2).waits.map (·.counted)) = [true] && (t.launches.map (·.2.open_)) = [1]) = true ∧
    gives (exec (.waita 5 6 7) (withMem (at0 { (task [(6, 0x2000#64), (7, 0x8807060504030201#64), (10, 4#64)]) with ctype := 1 })))
      (fun t => t.cur.st = .free && ((t.homeAt 2).waits.map fun w => (w.pa, w.type, w.arg0)) = [(0x2000, 1, 4)]) = true ∧
    gives (exec (.waita 5 6 7) (withMem (at0 (task [(6, 0x2000#64), (7, 0#64)])))) (fun t => t.cur.getX 5 = 0x8807060504030201 && (t.homeAt 2).waits = []) = true ∧
    gives (exec (.wake 5 6) ((at0 (task [(6, 0x2000#64)])).setHome 2 { Home.init with waits := [waiter 0x2038, waiter 0x2040] }))
      (fun t => t.cur.getX 5 = 1 && ((t.homeAt 2).waits.map (·.pa)) = [0x2040] && ((t.homeAt 2).outbox.map (·.args)) = [[1, 2]]) = true := by decide +kernel

/-- Gate entry n of the table at the start of the scratchpad: code at 0x8000 in domain 4, two arguments, 256 clk, a window of 128 bytes at 64. -/
def gated (t : Slot) (w0 : Nat := 2 ^ 63 + 2 * 2 ^ 56 + 4 * 2 ^ 48 + 0x8000) : State :=
  let s := withSpad (at0 t) 0 (leBytes 8 w0 ++ leBytes 8 (64 * 2 ^ 32 + 256) ++ leBytes 8 128 ++ leBytes 8 0)
  s.setLCore 0 0 { s.lcoreAt 0 0 with gtb := spad0 }
theorem witness_GateForms :
    let s := gated (task [(6, 0#64), (7, 63#64), (8, 0x80#64), (9, 64#64)])
    let f := (callee true false).frames
    s.cur.pfx = none ∧ (f ++ f ++ f ++ f).length = 4 ∧ s.cur.frames.length ≠ 4 ∧ (s.coreAt 0).vecq = [] ∧
    isOk (gateEntry 0 s) (fun e t => t.gateOk 0 e && decide (e.argc ≤ 8) && isOk (gateRight e t) (fun g u => g && decide ((u.coreAt 0).vecq = []))) = true ∧
    isOk (gateEntry 0 (gated task 0)) (fun e t => !t.gateOk 0 e) = true ∧ (s.cur.getX 6).toNat < 64 ∧ (s.cur.getX 7).toNat < 64 ∧ (s.cur.getX 8).toNat = 0x80 ∧ (s.cur.getX 9).toNat = 64 ∧
    (at0 (callee true false)).cur.frames ≠ [] ∧ (f.map (·.loops)) = [0] := by decide +kernel
theorem witness_GateForms_rights :
    let s := gated task
    let t := s.setCore 0 { s.coreAt 0 with plb := [{ lease := 0, dom := 0, seg := 0, r := true, w := true, x := true, g := false },
                                                   { lease := 0, dom := 0, seg := 0x3FFFFFF, r := true, w := true, x := true, g := true }] }
    isOk (gateEntry 0 t) (fun e u => u.gateOk 0 e && isOk (gateRight e u) (fun g _ => !g)) = true ∧ t.cur.frames = [] ∧
    (GateEntry.mk (2 ^ 63 + 2 ^ 61) 1 0 0).vec = true ∧ (GateEntry.mk (2 ^ 63 + 2 ^ 61) 1 0 0).argc = 0 ∧ ((at0 (callee true true)).cur.frames.head?.map (·.vec)) = some true ∧
    (s.leaseAt 0).isSome = true ∧ (Lease.house.mask.getLsbD 2 = true) ∧ ({ Lease.house with mask := 0x0FFB } : Lease).mask.getLsbD 2 = false := by decide +kernel
theorem test_gates :
    gives (exec (.gate 0) (gated (task [(5, 7#64), (10, 1#64), (11, 2#64), (12, 3#64)]))) (fun t => t.cur.pc = 0x8000 && t.cur.dom = 4 && t.cur.getX 5 = 0 && t.cur.getX 10 = 1 && t.cur.getX 11 = 2 &&
      t.cur.getX 12 = 0 && t.cur.getX 2 = spad0 + 64 && t.cur.getX 3 = 128 && (t.cur.frames.map (·.remaining)) = [256]) = true ∧
    gives (exec (.gate 0) (gated task 0)) (fun t => (t.lcoreAt 0 0).fca = 0x19) = true ∧
    gives (exec .gret (at0 (callee true false [(10, 1#64), (6, 3#64)]))) (fun t => t.cur.pc = 0x2000 && t.cur.getX 5 = 7 && t.cur.getX 6 = 0 && t.cur.getX 10 = 1 && t.cur.dom = 3 && t.cur.frames = []) = true ∧
    gives (exec .gret (at0 task)) (fun t => (t.lcoreAt 0 0).fca = 1) = true ∧ gives (exec (.gqry 5 6) (gated (task [(6, 64#64)]))) (fun t => t.cur.getX 5 = 0xFFFFFFFFFFFFFFFF) = true := by decide +kernel

/-! ### Witnesses and steps: launches and the gaffer -/

/-- The PF of link 0 bound to lease 0's window, one header waiting in it, or none. -/
def windowed (s : State) (hs : List (List Byte)) : State := s.setWindow (.vf 3) { Window.init with bound := some (false, 0), headers := hs }
def submitting (hs : List (List Byte)) (bs : List Byte := []) (off : Nat := 0) : State := withEv (windowed (paying (sender [])) hs) { fn := .vf 3, bytes := bs, a := off }
/-- Launch 9 of `header`, so far. -/
def live9 (next sent : Nat) (open_ : Int) (completed : Bool := false) (h : List Byte := header) : Launch :=
  { lease := 0, fn := none, hdr := h, hdrDva := 0, account := 0, open_ := open_, next := next, sent := sent, groups := [], rows := [], completed := completed }
def launched (l : Launch) : State := withEv { paying (sender []) with launches := [(9, l)] } { a := 9 }
/-- The header of a launch on gangs of one row (R84, R88): placement code 6. -/
def gangHeader : List Byte := (header.take 40) ++ [6, 0, 0, 1] ++ header.drop 44
theorem witness_LaunchEvents :
    let s := submitting [] header
    let w := submitting [header]
    (HostFn.vf 3).exists = true ∧ s.up = true ∧ header.length = 64 ∧ s.submitter (.vf 3) = some 0 ∧ (s.windowAt (.vf 3)).headers.length < 8 ∧ 8 ≤ ((submitting (List.replicate 8 header)).windowAt (.vf 3)).headers.length ∧ s.submitter (.vf 4) = none ∧
    (w.windowAt (.vf 3)).headers = header :: [] ∧ (w.judgeHeader 0 header).2 = 0 ∧ (w.judgeHeader 0 header).1.freeTag.isSome = true ∧ hdrOk (List.replicate 64 0) = false ∧
    (live9 0 0 0).nextId = some (0, 0, none) ∧ (∀ f ∈ hdrUsed header, f.2.2 ≠ 6) ∧ scopeOf ((launched (live9 2 2 0)).eligQuads 0) (0, 4096) ((hdrUsed header).zip (idValues ((hdrUsed header).map (·.2.1)) 2)) = some (2, 1) ∧
    (launched (live9 2 2 0)).chooseCore 0 0 (2, 1) = some 2 ∧ (launched (live9 2 2 0)).queueRoom 0 2 = true ∧ (crowded (launched (live9 0 0 0))).queueRoom 0 0 = false ∧
    ((launched (live9 2 2 0)).sendsNext = some 9 ∧ (launched (live9 4 4 0)).sendsNext = none ∧ (∀ e ∈ (launched (live9 4 4 0)).launches, (launched (live9 4 4 0)).canSend e.2 = false)) ∧
    (live9 4 4 0).distributed = true ∧ (live9 3 3 0).distributed = false ∧ (launched (live9 4 4 0)).outstanding 0 9 = false ∧ (launched (live9 4 4 0 true)).upcallBears 9 = false := by decide +kernel
theorem witness_LaunchEvents_checks :
    let s := submitting [header]
    let other := header.set 3 4
    let none_ : State := { s with quads := (List.range 32).map fun q => (q, { Quad.init with sched := [] }) }
    s.eligQuads 0 = [0] ∧ hdrOk header = true ∧ ((s.vtUsable (128 * (s.eligQuads 0).headD 0) 0 1).2.map (·.cls)) = some 0 ∧
    hdrOk other = true ∧ (other.getD 3 0#8).toNat / 4 % 4 = 1 ∧ (s.judgeHeader 0 other).2 = 1 ∧ (s.vtUsable 0 0 2).2 = none ∧
    ((s.accountAt 0).en = true ∧ (s.accountAt 0).part = (s.leaseD 0).part ∧ (s.accountAt 0).lease = 0 ∧ (s.accountAt 1).en = false) ∧
    (s.judgeHeader 0 (header.set 44 1)).2 = 2 ∧ none_.eligQuads 0 = [] ∧ (none_.judgeHeader 0 header).2 = 3 ∧ (s.judgeHeader 0 (header.set 16 255)).2 ≠ 0 := by decide +kernel
theorem witness_LaunchEvents_gang :
    let s := launched (live9 0 0 0 false gangHeader)
    (∃ f ∈ hdrUsed gangHeader, f.2.2 = 6) ∧ 0 < groupCount (hdrUsed gangHeader) ∧ hdrGang gangHeader = 1 ∧ s.chooseGang 0 0 1 (0, 4096) = some 0 ∧
    (∀ m ∈ (gangRows 1 0).flatMap rowCores, s.queueRoom 0 m = true) ∧ s.sendsNext = some 9 := by decide +kernel
/-- All 256 tags in use leave none free. -/
theorem witness_LaunchEvents_full :
    ({ State.reset with launches := (List.range 256).map fun t => (t, live9 0 0 0) } : State).freeTag = none := by
  have h : ∀ t, t < 256 → (tabFind ((List.range 256).map fun t => (t, live9 0 0 0)) t).isNone = false := by decide +kernel
  simp only [State.freeTag, List.find?_eq_none, List.mem_map]
  rintro _ ⟨i, -, rfl⟩ hn
  exact absurd hn (by rw [h _ (Nat.mod_lt _ (by decide)), Bool.false_and]; decide)
theorem test_launches :
    gives (exec .launchSubmit (submitting [] header)) (fun t => (t.windowAt (.vf 3)).headers = [header] && (t.windowAt (.vf 3)).refused = 0) = true ∧
    gives (exec .launchSubmit (submitting [] header 8)) (fun t => (t.windowAt (.vf 3)).headers = [] && (t.windowAt (.vf 3)).refused = 1) = true ∧
    gives (exec .launchSubmit (submitting (List.replicate 8 header) header)) (fun t => (t.windowAt (.vf 3)).headers.length = 8 && (t.windowAt (.vf 3)).refused = 0) = true ∧
    gives (exec .distributorAccept (submitting [header])) (fun t => (t.windowAt (.vf 3)).headers = [] && t.launches.length = 1) = true ∧
    gives (exec .distributeIdentifier (launched (live9 2 2 0))) (fun t => ((t.coreAt 2).transit.map fun m => (m.type, m.wid, m.tag, m.counted)) = [(1, 2, 9, true)] &&
      (t.launches.map fun l => (l.2.open_, l.2.next, l.2.sent)) = [(1, 3, 3)]) = true ∧
    gives (exec .gangDistribute (launched (live9 0 0 0 false gangHeader))) (fun t => (t.launches.map fun l => (l.2.open_, l.2.next)) = [(16, 1)] && (t.gangs.map fun g => (g.2.size, g.2.rows)) = [(16, [0])] &&
      ((t.coreAt 15).transit.map (·.type)) = [1]) = true ∧
    gives (exec .launchComplete (launched (live9 4 4 0))) (fun t => (t.launches.map (·.2.completed)) = [true]) = true ∧
    gives (exec .launchComplete (launched (live9 4 4 1))) (fun t => (t.launches.map (·.2.completed)) = [false]) = true ∧
    gives (exec .launchTagFree (launched (live9 4 4 0 true))) (fun t => t.launches = []) = true := by decide +kernel

/-- A command block (R74): code, partition and lease of word 0, then the words. -/
def block (code part lease : Nat) (ws : List Nat) : List Byte := ((leBytes 8 (code + part * 2 ^ 16 + lease * 2 ^ 20) ++ ws.flatMap (leBytes 8)) ++ List.replicate 64 0).take 64
def cmd (code part lease : Nat) (ws : List Nat) (level : Nat := 0) : GafferCmd := { level := level, part := 0, lease := 0, blk := block code part lease ws, fn := some (.pf 0), who := none }
/-- The house with partition 5 (quadrant 3, account 7), whose lease 20 has VF 9, and one command waiting. -/
def house (g : GafferCmd) : State :=
  { State.reset with gaffer := [g], parts := [(5, { Partn.house with vf := 8, control := 21 })], leases := [(0, Lease.house), (20, { Lease.house with part := 5, vf := some 9 }), (21, { Lease.house with part := 5, mask := 0 })],
                     accounts := [(7, { balance := 10, part := 5, lease := 20, en := true })], quads := [(3, { Quad.init with owner := some 5, holder := none, sched := [] })] }
/-- The status that the house's window shows, where the command is done, and what it leaves. -/
def performed (i : Instr) (g : GafferCmd) (status : Nat) (p : State → Bool := fun _ => true) : Bool :=
  gives (exec i (house g)) fun t => t.gaffer = [] && (t.windowAt (.pf 0)).cstat = status && p t

/-- An issuer of partition 5 (level 1), and of its lease 20 (level 2). -/
def ofPart (g : GafferCmd) (part : Nat := 5) : GafferCmd := { g with level := 1, part := part, fn := some (.vf 8) }
def ofLease (g : GafferCmd) (lease : Nat := 20) : GafferCmd := { g with level := 2, part := 5, lease := lease, fn := some (.vf 9) }
theorem witness_RefusalsAndBudgets_targets :
    let s := house (cmd 4 0 41 [])
    ((s.partAt (ofPart (cmd 4 0 0 []) 6).part).isSome = false ∧ (s.partAt (ofPart (cmd 4 0 0 [])).part).isSome = true ∧ (s.leaseAt (ofLease (cmd 0x10 0 0 []) 41).lease).isSome = false ∧
      (s.leaseAt (ofLease (cmd 0x10 0 0 [])).lease).isSome = true) ∧
    ((∀ b, b < 12 → (s.issuerMask (cmd 4 0 41 [])).getLsbD b = true) ∧ (∀ b, b < 12 → (s.issuerMask (ofPart (cmd 4 0 41 []))).getLsbD b = true) ∧
      (∀ b, b < 12 → (s.issuerMask (ofLease (cmd 0x10 0 21 []))).getLsbD b = true)) ∧
    ((ofPart (cmd 4 7 0 [])).partField ≠ (ofPart (cmd 4 7 0 [])).part ∧ (ofLease (cmd 0x10 5 0 [])).partField ≠ 0 ∧ tabFind s.parts 7 = none ∧ (ofLease (cmd 0x10 0 21 [])).leaseField ≠ 20 ∧
      s.leaseAt 41 = none ∧ (ofPart (cmd 4 0 41 [])).level ≠ 2 ∧ 0 < (ofPart (cmd 1 6 0 [])).level) := by decide +kernel
theorem test_targets :
    gives (exec .leasedel (house (ofPart (cmd 4 0 41 [])))) (fun t => (t.windowAt (.vf 8)).cstat = 2 && t.gaffer = []) = true ∧
    gives (exec .leasedel (house (ofPart (cmd 4 7 20 [])))) (fun t => (t.windowAt (.vf 8)).cstat = 1 && (t.leaseAt 20).isSome) = true ∧
    gives (exec .vfreset (house (ofLease (cmd 0x10 0 21 [])))) (fun t => (t.windowAt (.vf 9)).cstat = 1) = true ∧
    gives (exec .vfreset (house (ofLease (cmd 0x10 0 0 []) 41))) (fun t => (t.windowAt (.vf 9)).cstat = 2) = true ∧
    gives (exec .fgroup (house (cmd 0x0E 5 0 [2 ^ 12 + 2 ^ 36, 4 + 255 * 2 ^ 19]))) (fun t => (t.windowAt (.pf 0)).cstat = 3) = true ∧
    performed .evroute (cmd 0x13 0 0 [1 + 4 * 2 ^ 12 + 7 * 2 ^ 24]) 0 (fun t => t.houseTarget = some (true, 4, 7, 0)) = true := by decide +kernel
theorem witness_RefusalsAndBudgets :
    let g := cmd 0x0B 0 0 [7 + 4096 * 3 + 2 ^ 14 * 20 + 2 ^ 22]
    let s := house (cmd 0x0B 5 0 [7])
    (house g).gaffer = g :: [] ∧ g.level = 0 ∧ g.code = 0x0B ∧ (cmd 0x14 0 0 []).code = 0x14 ∧ (cmd 0x13 0 0 []).code = 0x13 ∧ (cmd 0 0 0 []).code = 0 ∧ (cmd 1 0 0 [] 3).level = 3 ∧ (cmd 1 0 0 [] 1).level = 1 ∧
    (cmd 1 0 255 []).leaseField = 255 ∧ bitsOf (g.word 0) 63 28 = 0 ∧ bitsOf (g.word 0) 15 8 = 0 ∧ g.leaseField ≠ 255 ∧
    ((cmd 0x0B 5 0 [7]).partField = 5 ∧ (tabFind s.parts 5).isSome = true ∧ (s.accountAt 7).part = 5 ∧ (tabFind s.parts 0).isSome = false ∧ ((cmd 0x0B 5 0 [7]).word 1) / 4096 = 0) ∧
    ((cmd 0x0B 0 0 [7 + 4096]).word 1 / 4096 = 1 ∧ (cmd 0x0B 0 0 [7 + 2 * 4096]).word 1 / 4096 = 2 ∧ -(2 ^ 63) ≤ (10 : Int) + (BitVec.ofNat 64 (2 ^ 64 - 3)).toInt ∧ (10 : Int) + (BitVec.ofNat 64 (2 ^ 64 - 3)).toInt < 2 ^ 63) ∧
    (g.word 1 < 2 ^ 23 ∧ g.word 1 / 4096 % 4 = 3 ∧ g.word 1 / 2 ^ 14 % 256 = 20 ∧ (((house g).leaseAt 20).map (·.part)) = some 5 ∧ (house g).leaseAt 22 = none) := by decide +kernel
theorem witness_RefusalsAndBudgets_conflict :
    let g := cmd 0x0B 6 0 [7]
    let s : State := { house g with parts := [(5, Partn.house), (6, Partn.house)] }
    g.word 1 / 4096 = 0 ∧ (tabFind s.parts g.partField).isSome = true ∧ g.partField ≠ 0 ∧ (s.accountAt 7).part ≠ 0 ∧ (s.accountAt 7).part ≠ g.partField := by decide +kernel
theorem test_refusals_and_budgets :
    performed .partnew (cmd 1 0 0 [] 1) 1 = true ∧ performed .partdel (cmd 1 0 0 [] 3) 2 = true ∧ performed .attest (cmd 0x14 0 0 []) 6 = true ∧ performed .rights (cmd 5 0 255 []) 3 = true ∧
    gives (exec .rights (house (cmd 4 0 20 []))) (fun t => t = house (cmd 4 0 20 [])) = true ∧
    performed .budgetAssign (cmd 0x0B 0 0 [7]) 0 (fun t => (t.accountAt 7).part = 0) = true ∧ performed .budgetSet (cmd 0x0B 0 0 [7 + 4096, 2 ^ 64 - 1]) 0 (fun t => (t.accountAt 7).balance = -1) = true ∧
    performed .budgetAdd (cmd 0x0B 0 0 [7 + 2 * 4096, 2 ^ 64 - 3]) 0 (fun t => (t.accountAt 7).balance = 7) = true ∧
    performed .budgetBind (cmd 0x0B 0 0 [7 + 4096 * 3 + 2 ^ 14 * 20]) 0 (fun t => (t.accountAt 7).lease = 20 && !(t.accountAt 7).en) = true := by decide +kernel

theorem test_poisoned_command :
    let g := { cmd 1 5 0 [] with poison := true }
    g.poison = true ∧ performed .partnew g 3 (fun t => t.agenda.head? = some (.event .leaseReset { a := 0 })) = true ∧ performed .rights g 3 = true := by decide +kernel
theorem witness_RefusalsAndBudgets_levels :
    let b := fun (op : Nat) => ofPart (cmd 0x0B 0 0 [7 + 4096 * op])
    let s := house (b 1)
    let without : State := { s with parts := [(5, { Partn.house with mask := 0x0FE7 })] }
    (b 1).level = 1 ∧ (s.partAt (b 1).part).isSome = true ∧ ((tabFind s.parts (b 1).part).map fun p => p.mask.getLsbD 4) = some true ∧ (s.accountAt 7).part = (b 1).part ∧
    (s.accountAt 8).part ≠ (b 1).part ∧ ((tabFind without.parts 5).map fun p => p.mask.getLsbD 4) = some false ∧ ((b 1).word 1 / 4096 = 1) ∧ ((b 0).word 1 / 4096 = 0) ∧
    (∀ l, s.leaseAt 20 = some l → l.part = (b 1).part) ∧ (s.leaseAt 20).isSome = true ∧ (0x0FE7#16).getLsbD 4 = false := by
  refine ⟨by decide +kernel, by decide +kernel, by decide +kernel, by decide +kernel, by decide +kernel, by decide +kernel, by decide +kernel, by decide +kernel, ?_,
    by decide +kernel, by decide +kernel⟩
  rintro _ ⟨⟩
  rfl
/-- A partition whose mask lacks the class, and one that may give its budget. -/
theorem test_levels :
    gives (exec .budgetSet (house (ofPart (cmd 0x0B 0 0 [7 + 4096, 3])))) (fun t => (t.windowAt (.vf 8)).cstat = 0 && (t.accountAt 7).balance = 3) = true ∧
    gives (exec .budgetSet { house (ofPart (cmd 0x0B 0 0 [7 + 4096, 3])) with parts := [(5, { Partn.house with vf := 8, mask := 0x0FE7 })] })
      (fun t => (t.windowAt (.vf 8)).cstat = 1 && (t.accountAt 7).balance = 10) = true ∧
    gives (exec .budgetAssign (house (ofPart (cmd 0x0B 0 0 [7])))) (fun t => (t.windowAt (.vf 8)).cstat = 1) = true ∧
    gives (exec .rights (house (cmd 5 5 0 [0x09F7]))) (fun t => ((tabFind t.parts 5).map (·.mask)) = some 0x09F7 && (t.leaseD 20).mask = 0x09F7 && (t.leaseD 0).mask = 0x0FFF) = true ∧
    gives (exec .wdlim (house (ofPart (cmd 0x0C 0 20 [8192])))) (fun t => (t.leaseD 20).wdl = 8192) = true ∧
    gives (exec .evroute (house (ofPart (cmd 0x13 0 0 [1 + 384 * 2 ^ 12 + 7 * 2 ^ 24])))) (fun t => ((tabFind t.parts 5).bind (·.target)) = some (true, 384, 7, 21)) = true := by decide +kernel
theorem witness_PartitionCommands :
    let s := house (cmd 1 6 0 [0x00FF + 10 * 2 ^ 16 + 30 * 2 ^ 26])
    let g := cmd 1 6 0 [0x00FF + 10 * 2 ^ 16 + 30 * 2 ^ 26]
    let e := cmd 0x08 0 0 [3 + 32, 20 + 2 ^ 16 + 2 ^ 32 * (20 + 65535 * 2 ^ 16)]
    let f := cmd 0x0E 5 0 [0 + 2 ^ 12 + 2 ^ 36, 4]
    (s.gaffer = g :: [] ∧ g.level = 0 ∧ bitsOf (g.word 0) 63 28 = 0 ∧ bitsOf (g.word 0) 15 8 = 0 ∧ g.leaseField ≠ 255) ∧
    (g.code = 1 ∧ g.word 1 < 2 ^ 34 ∧ g.partField = 6 ∧ bitsOf (g.word 1) 33 26 = 30 ∧ BitVec.ofNat 16 (g.word 1) &&& 0xF008#16 ≠ 0#16 ∧ BitVec.ofNat 16 0x00F7 &&& 0xF008#16 = 0#16 ∧
      tabFind s.parts 6 = none ∧ (tabFind s.parts 5).isSome = true ∧ s.leaseAt 30 = none ∧ (s.windowAt (.vf 10)).bound = none) ∧
    ((cmd 6 5 0 [31]).word 1 < 32 ∧ (cmd 6 5 0 [31]).partField = 5 ∧ (s.quadAt 31).owner = some 0 ∧ (s.quadAt 3).owner = some 5 ∧ ({ Quad.init with owner := none } : Quad).owner = none) ∧
    (e.word 1 < 256 ∧ (s.quadAt (e.word 1 % 32)).owner = some 5 ∧ (s.quadAt 3).holder = none ∧ (s.quadAt 3).preempt = false ∧ ((s.leaseAt 20).map (·.part)) = some 5 ∧
      (∀ x ∈ (List.range (e.word 1 / 32 + 1)).map fun i => e.word (2 + i / 2) / 2 ^ (32 * (i % 2)) % 2 ^ 32, x / 256 % 256 = 0 ∧ x / 65536 ≠ 0 ∧ x % 256 = 20)) ∧
    ((cmd 9 0 20 [0x1000]).word 1 % 4096 = 0 ∧ (s.leaseAt 20).isSome = true ∧ (cmd 9 0 20 [0x1001]).word 1 % 4096 ≠ 0) ∧
    ((cmd 0x0A 5 0 [0x7000]).word 1 % 4096 = 0 ∧ (cmd 7 5 0 [3]).word 1 = 3 ∧ (s.quadAt 4).owner ≠ some 5 ∧ tabFind (Partn.house).groups 0 = none ∧ (4 + 255 * 2 ^ 19) / 2 ^ 19 = 255 ∧ (s.quadAt 0).holder ≠ none) ∧
    (bitsOf (f.word 1) 63 56 = 0 ∧ bitsOf (f.word 1) 11 8 = 0 ∧ bitsOf (f.word 1) 55 36 = 1 ∧ bitsOf (f.word 1) 35 16 = 0 ∧ bitsOf (f.word 1) 15 12 = 1 ∧ f.word 2 % 2 ^ 32 < 2 ^ 27) := by decide +kernel
set_option maxRecDepth 20000 in
theorem test_partition_commands :
    performed .partnew (cmd 1 6 0 [0x00F7 + 10 * 2 ^ 16 + 30 * 2 ^ 26]) 0 (fun t => (tabFind t.parts 6).map (fun p => (p.mask, p.vf, p.control)) = some (0x00F7, 10, 30) && (t.leaseAt 30).isSome) = true ∧
    performed .partnew (cmd 1 5 0 [0x00F7 + 10 * 2 ^ 16 + 30 * 2 ^ 26]) 5 = true ∧
    performed .qgrant (cmd 6 5 0 [31]) 0 (fun t => (t.quadAt 31).owner = some 5) = true ∧ performed .qgrant (cmd 6 5 0 [3]) 5 = true ∧
    performed .qtake (cmd 7 5 0 [3]) 0 (fun t => (t.quadAt 3).taking && (t.quadAt 3).preempt) = true ∧
    performed .slices (cmd 8 0 0 [3, 20 + 5 * 2 ^ 16]) 0 (fun t => (t.quadAt 3).sched = [(20, 5)] && (t.quadAt 3).preempt) = true ∧
    performed .s1root (cmd 9 0 20 [0x7000]) 0 (fun t => (t.leaseD 20).s1root = 0x7000) = true ∧ performed .s2root (cmd 0x0A 5 0 [0x7001]) 3 = true ∧
    performed .s2root (cmd 0x0A 5 0 [0x7000]) 0 (fun t => ((tabFind t.parts 5).map (·.s2root)) = some 0x7000) = true ∧
    performed .fgroup (cmd 0x0E 5 0 [2 ^ 12 + 2 ^ 36, 4 + 20 * 2 ^ 19]) 0 (fun t => ((tabFind t.parts 5).bind fun p => tabFind p.groups 0) = some (1, [(0, (4, 20))])) = true := by decide +kernel

set_option maxRecDepth 20000 in
theorem test_partdel : performed .partdel (cmd 2 5 0 []) 0 (fun t => t.parts = [] && (t.quadAt 3).owner ≠ some 5 && (t.accountAt 7).part = 0) = true := by decide +kernel

theorem witness_PartitionCommands_levels :
    let e := ofPart (cmd 0x08 0 0 [3, 20 + 2 ^ 16])
    let s := house e
    let busy := s.setQuad 3 { (s.quadAt 3) with holder := some 20 }
    e.level = 1 ∧ (s.partAt e.part).isSome = true ∧ (s.quadAt 3).owner = some e.part ∧ ((tabFind s.parts e.part).map fun p => p.mask.getLsbD 0 && p.mask.getLsbD 2 && p.mask.getLsbD 7) = some true ∧
    ((s.leaseAt 20).map (·.part)) = some e.part ∧ ((busy.quadAt 3).holder ≠ none ∧ (busy.quadAt 3).sched = [] ∧ (busy.quadAt 3).preempt = false) ∧
    (ofPart (cmd 0x0E 5 0 [])).partField = (ofPart (cmd 0x0E 5 0 [])).part := by decide +kernel
theorem witness_LeaseCommands :
    let n := cmd 3 5 40 [0x00F7 + 10 * 2 ^ 16 + 7 * 2 ^ 26, 0, 0x2000]
    let s := house n
    (n.code = 3 ∧ n.word 1 < 2 ^ 38 ∧ n.leaseField = 40 ∧ n.word 2 % 4096 = 0 ∧ n.word 3 % 4096 = 0 ∧ n.partField = 5 ∧ BitVec.ofNat 16 (n.word 1) &&& ~~~(0x0FFF#16) = 0#16 ∧ (BitVec.ofNat 16 (n.word 1)).getLsbD 3 = false ∧
      (s.accountAt (bitsOf (n.word 1) 37 26)).part = 5 ∧ s.leaseAt 40 = none ∧ (s.windowAt (.vf 10)).bound = none) ∧
    (s.partAt 5).isSome = true ∧ BitVec.ofNat 16 0x1000 &&& ~~~(0x0FFF#16) ≠ 0#16 ∧ ((cmd 0x0C 0 20 [4096]).word 1 = 4096 ∧ (cmd 0x0C 0 20 [4095]).word 1 < 4096) ∧
    (s.regionAt 20 5).share = [] ∧ ((0x3F800000#32).getLsbD 31 = false ∧ fpExp 0x3F800000 ≠ 0 ∧ fpExp 0x3F800000 ≠ 255 ∧ fpExp 0x7F800000 = 255) ∧
    (cmd 0x0F 0 20 [127 + 128 * 4, 3]).word 1 < 2 ^ 26 ∧ s.leaseAt 41 = none ∧ (cmd 0x13 0 0 [0]).fn = some (.pf 0) ∧
    ((cmd 0x13 0 0 [1 + 4 * 2 ^ 12 + 7 * 2 ^ 24]).word 1 % 2 = 1 ∧ (cmd 0x13 0 0 [1 + 4 * 2 ^ 12 + 7 * 2 ^ 24]).word 1 / 2 ^ 24 < 0xF0 ∧ (s.quadAt (4 / 128)).owner = some 0) ∧
    ((cmd 0x12 0 0 [0x0A + 8 * 7, 0x2000, 64]).word 1 % 256 ≠ 0x0A ∨ (cmd 0x12 0 0 [0x0A, 0x2000, 64]).word 1 % 256 = 0x0A) := by decide +kernel
theorem test_lease_commands :
    performed .leasedel (cmd 4 0 20 []) 0 (fun t => (t.leaseAt 20).isNone) = true ∧ performed .rights (cmd 5 0 20 [0x0007]) 0 (fun t => (t.leaseD 20).mask = 7) = true ∧ performed .rights (cmd 5 0 20 [0x1000]) 4 = true ∧
    performed .wdlim (cmd 0x0C 0 20 [4096]) 0 (fun t => (t.leaseD 20).wdl = 4096) = true ∧ performed .wdlim (cmd 0x0C 0 20 [4095]) 3 = true ∧
    performed .driftlim (cmd 0x0D 0 20 [5 + 0x3F800000 * 2 ^ 32]) 0 (fun t => (t.regionAt 20 5).u = 0x3F800000) = true ∧
    performed .aperture (cmd 0x0F 0 20 [127 + 128 * 4, 3]) 0 (fun t => (t.leaseD 20).apertures = [(127, (true, 4, 3))]) = true ∧ performed .vfreset (cmd 0x10 0 20 []) 0 = true ∧ performed .vfreset (cmd 0x10 0 41 []) 2 = true ∧
    performed .evroute (cmd 0x13 0 0 [2]) 0 (fun t => t.houseTarget = some (false, 0, 1, 0)) = true := by decide +kernel

/-- Translation tables (R172, R173): stage 2 of partition 5 at 0x100000 and stage 1 at 0x102000, each a pointer and a leaf of one GiB onto itself. -/
def tables : List Host.Cell :=
  [(0x100000, 1#8), (0x100001, 0x10#8), (0x100002, 0x10#8), (0x101000, 0x0F#8), (0x102000, 1#8), (0x102001, 0x30#8), (0x102002, 0x10#8), (0x103000, 0x0F#8)]
def mapped (s : State) : State :=
  { s with mem := tables, parts := [(5, { Partn.house with vf := 8, control := 21, s2root := 0x100000 })], leases := [(0, Lease.house), (20, { Lease.house with part := 5, vf := some 9, s1root := 0x102000 })] }
theorem witness_LeaseCommands_levels :
    let s := (house (cmd 5 5 0 [0x09F7])).setQuad 3 { (house (cmd 5 5 0 [])).quadAt 3 with sched := [(20, 1)] }
    let one := ofPart (cmd 0x0C 0 20 [8192])
    let two := ofLease (cmd 0x13 0 0 [1 + 384 * 2 ^ 12 + 7 * 2 ^ 24])
    (one.level = 1 ∧ (s.partAt one.part).isSome = true ∧ one.partField = 0 ∧ ((tabFind s.parts one.part).map fun p => p.mask.getLsbD 1 && p.mask.getLsbD 5 && p.mask.getLsbD 11) = some true ∧
      ((s.leaseAt 20).map (·.part)) = some one.part ∧ (s.quadAt (bitsOf (two.word 1) 23 12 / 128)).owner = some one.part) ∧
    (two.level = 2 ∧ ((s.leaseAt two.lease).map fun l => l.mask.getLsbD 8 && l.mask.getLsbD 9 && l.mask.getLsbD 10 && l.mask.getLsbD 11) = some true ∧ two.leaseField = 0 ∧ two.word 1 < 2 ^ 32 ∧ two.word 1 % 2 = 1 ∧
      two.word 1 / 2 ^ 24 < 0xF0 ∧ bitsOf (two.word 1) 23 12 / 128 ∈ s.eligQuads two.lease) ∧
    ((cmd 5 5 0 [0x09F7]).code = 5 ∧ (cmd 5 5 0 [0x09F7]).leaseField = 0 ∧ (cmd 5 5 0 [0x09F7]).partField = 5 ∧ (cmd 5 5 0 [0x09F7]).word 1 < 2 ^ 16 ∧ (tabFind s.parts 5).isSome = true ∧
      BitVec.ofNat 16 0x09F7 &&& 0xF008#16 = 0#16 ∧ BitVec.ofNat 16 0x09FF &&& 0xF008#16 ≠ 0#16) := by decide +kernel
theorem witness_LeaseCommands_tables :
    let g := cmd 3 5 40 [0x00F7 + 10 * 2 ^ 16 + 7 * 2 ^ 26, 0x102000, 0x2000]
    let s := mapped (house g)
    let l := ({ Lease.house with part := 5, mask := 0x00F7, vf := some 10, account := 7, s1root := 0x102000, w3 := 0x2000 } : Lease)
    (({ s with gaffer := [] } : State).setLease 40 l).readTable 40 0x2000 ≠ none ∧ (({ s with gaffer := [] } : State).setLease 40 { l with s1root := 0 }).readTable 40 0x2000 = none := by decide +kernel
theorem witness_LeaseCommands_buffers :
    let s : State := { house (cmd 0x11 0 0 [0x2000]) with cores := (at0 task).cores, dies := (at0 task).dies }
    let g := cmd 0x12 0 0 [0x0A + 7 * 2 ^ 32, 0x2000, 64]
    (let a := cmd 0x11 0 0 [0x2000]
     let t : State := { s with gaffer := [] }
     isOk (hwRead (t.issuerCore a) 0 0x2000 64 t) (fun bs u => decide (bs.length = 64) && isOk (blockPlaces (t.issuerCore a) 0 0x2040 8 u)) = true ∧
     isFault (hwRead (t.issuerCore a) 0 0x800000000000 64 t) causeDaddr = false) ∧ (cmd 0x11 0 0 [0x2000]).word 1 % 64 = 0 ∧ bitsOf (g.word 1) 63 48 = 0 ∧ g.word 2 % 64 = 0 ∧
    (s.leaseAt g.winLease).isSome = true ∧ g.winLease ≠ 255 ∧ g.winPart = 0 ∧ g.winIdx < 4096 ∧ (match s.winBytes g with | .ok bs => decide (bs.length ≤ g.word 3) | .error _ => false) = true := by decide +kernel
/-- A read of the ring area, a word of which is poisoned. -/
def poisonedRead : State :=
  let s : State := { house (cmd 0x12 0 0 [0x04, 0x2000, 4096]) with cores := (at0 task).cores, dies := (at0 task).dies }
  s.setLCore 0 0 { s.lcoreAt 0 0 with spadPoison := [0x3F800 / 8] }
theorem test_window_poison :
    let g := cmd 0x12 0 0 [0x04, 0x2000, 4096]
    (poisonedRead.winPoisoned g = true ∧ (match poisonedRead.winBytes g with | .ok bs => decide (bs.length ≤ g.word 3) | .error _ => false) = true) ∧
    gives (exec .statewin poisonedRead) (fun t => (t.windowAt (.pf 0)).cstat = 3 && t.gaffer = [] && t.agenda.head? = some (.event .leaseReset { a := 0 })) = true := by decide +kernel
theorem test_lease_tables :
    gives (exec .leasenew (mapped (house (cmd 3 5 40 [0x00F7 + 10 * 2 ^ 16 + 7 * 2 ^ 26, 0x102000, 0x2000])))) (fun t => (t.windowAt (.pf 0)).cstat = 0 && (t.leaseD 40).account = 7 && (t.windowAt (.vf 10)).bound = some (false, 40)) = true ∧
    gives (exec .leasenew (mapped (house (cmd 3 5 40 [0x00F7 + 10 * 2 ^ 16 + 7 * 2 ^ 26, 0, 0x2000])))) (fun t => (t.windowAt (.pf 0)).cstat = 3 && (t.leaseAt 40).isNone) = true ∧
    (∀ c ∈ [cmd 0x11 0 0 [0x2000], cmd 0x12 0 0 [0x0A + 7 * 2 ^ 32, 0x2000, 64]],
      gives (exec (if c.code = 0x11 then .attest else .statewin) { house c with cores := (at0 task).cores, dies := (at0 task).dies }) (fun t => (t.windowAt (.pf 0)).cstat = 0 && t.gaffer = []) = true) := by decide +kernel

/-! ### Witnesses and steps: the host -/

/-- The PF's window with a register write. -/
def hostWrite (off : Nat) (bs : List Byte) (w : Window := Window.init) : State := withEv (State.reset.setWindow (.pf 0) w) { fn := .pf 0, a := off, bytes := bs }
def parked2 : State := withEv (at0 { task with st := .parked (.stage2 0x10) }) { fn := .pf 0, a := 0, b := 0 }
theorem witness_HostAndOutside :
    let s := hostWrite 0x40 [1]
    let r := withEv (at0 task) { a := 0, word := 0x5123#64 }
    let l := r.setLCore 0 0 { LCore.fresh 0 [] with vtb := 0x5000 }
    let spill := (List.replicate 16 0#8)
    (s.ev.fn.exists = true ∧ s.up = true ∧ Window.init.busy = false ∧ 0x40 ≤ 0x40 ∧ 0x40 + [1].length ≤ 0x80 ∧ { Window.init with busy := true }.busy = true ∧ Window.init.refused < 2 ^ 64 - 1 ∧ ({ s with up := false } : State).up = false ∧
      (hostWrite 0x80 [1]).ev.a = 0x80 ∧ (hostWrite 0x90 (leBytes 8 5)).ev.bytes.length = 8) ∧
    ((parked2.slotAt 0 0).st = .parked (.stage2 0x10) ∧ (parked2.slotAt 0 0).gen = BitVec.ofNat 8 (0 / 256) ∧ (parked2.slotAt 0 0).gen ≠ BitVec.ofNat 8 (256 / 256) ∧ (HostFn.vf 1023).exists = true) ∧
    (r.holderOf 0 = some 0 ∧ r.ev.word &&& 0xFFFFFFFFF000#64 ≠ (r.lcoreAt 0 0).vtb ∧ r.ev.word &&& 0xFFFFFFFFF000#64 = (l.lcoreAt 0 0).vtb ∧ r.gtbIsLocked 0 = false ∧
      ({ r with leases := [(0, { Lease.house with mask := 0 })] } : State).gtbIsLocked 0 = true ∧ (r.lcoreAt 0 0).latched = none) ∧
    (let c := r.setLCore 0 0 { LCore.fresh 0 [] with latched := some spill, refillStop := false, cullsz := 256, cull := 0x2000 }
     (c.trySpill 0 0 spill).2 = (0, 0) ∧ ((c.trySpill 0 0 spill).1.lcoreAt 0 0).pushes = []) := by decide +kernel
theorem witness_HostAndOutside_memory :
    let s := withEv (withMem State.reset) { a := 0x2FFF, b := 0x7FFFFFF000, bytes := [1, 2] }
    let far := withEv State.reset { a := 0x8000000000, b := 0xD000000000000, bytes := [1] }
    memWf s.mem = true ∧ s.inWindow 0x2FFF = true ∧ s.inWindow 0x3000 = true ∧ s.inWindow s.ev.b = true ∧ 0x2FFF / 4096 ≠ s.ev.b / 4096 ∧ s.poison = [] ∧ far.inWindow far.ev.a = false ∧ far.inWindow far.ev.b = false := by decide +kernel
theorem test_host :
    gives (exec .windowRegisterWrite (hostWrite 0x40 [7])) (fun t => (t.windowAt (.pf 0)).cmd.take 2 = [7, 0]) = true ∧
    gives (exec .windowRegisterWrite (hostWrite 0x40 [7] { Window.init with busy := true })) (fun t => (t.windowAt (.pf 0)).refused = 1) = true ∧
    gives (exec .windowRegisterWrite (hostWrite 0x80 [1])) (fun t => (t.windowAt (.pf 0)).busy && (t.gaffer.map (·.level)) = [0]) = true ∧
    gives (exec .windowRegisterWrite (hostWrite 0x90 (leBytes 8 5))) (fun t => (t.windowAt (.pf 0)).irq = 5) = true ∧
    gives (exec .evackResolve parked2) (fun t => t.cur.st = .ready) = true ∧ gives (exec .evackKill parked2) (fun t => t.cur.st = .free) = true ∧
    gives (exec .vtbWrite (withEv ((sender []).setLCore 0 0 { (sender []).lcoreAt 0 0 with vtb := 0x2000 }) { a := 0, word := 0x2123#64 })) (fun t => (t.lcoreAt 0 0).vtb = 0x2000 && (t.lcoreAt 0 0).vcache.length = 0) = true ∧
    gives (exec .gtbWrite (withEv (at0 task) { a := 0, word := 0x2923#64 })) (fun t => (t.lcoreAt 0 0).gtb = 0x2800) = true ∧
    gives (exec .cullWrite (withEv (at0 task) { a := 0, word := 0x2123#64 })) (fun t => (t.lcoreAt 0 0).cull = 0x2000) = true ∧
    gives (exec .cullszWrite (withEv (at0 task) { a := 0, word := 0x1FF#64 })) (fun t => (t.lcoreAt 0 0).cullsz = 0x100) = true ∧
    gives (exec .latchRelease (at0 task)) (fun t => !(t.lcoreAt 0 0).refillStop) = true := by decide +kernel
/-- Until bring-up is complete every register write, and an answer to an upcall of the house, is counted and does nothing else (R407). -/
theorem test_host_down :
    ({ hostWrite 0x90 (leBytes 8 5) with up := false } : State).up = false ∧ leBytes 8 5 ≠ [] ∧
    (∀ s ∈ [hostWrite 0x40 [7], hostWrite 0x80 [1], hostWrite 0x90 (leBytes 8 5), hostWrite 0xA0 (leBytes 8 0)],
      gives (exec .windowRegisterWrite { s with up := false }) (fun t => (t.windowAt (.pf 0)).refused = 1 && (t.windowAt (.pf 0)).irq = 0 && t.gaffer = []) = true) ∧
    gives (exec .evackKill { parked2 with up := false }) (fun t => (t.windowAt (.pf 0)).refused = 1 && t.cur.st = .parked (.stage2 0x10)) = true := by decide +kernel
/-- What a read of a window shows (R394): CDOOR, IRQ, REFUSED and the place of the launch queue; offsets not listed read 0. -/
theorem test_window_read : let s := (hostWrite 0 []).setWindow (.pf 0) { Window.init with busy := true, cstat := 3, irq := 5, refused := 7, headers := [[], []] }
    s.windowRead (.pf 0) 0x088 = 0x8000000000000003 ∧ s.windowRead (.pf 0) 0x090 = 5 ∧ s.windowRead (.pf 0) 0x098 = 7 ∧ s.windowRead (.pf 0) 0x0A8 = 2 ∧ s.windowRead (.pf 0) 0x0F0 = 0 := by decide +kernel
theorem test_outside :
    gives (exec .hostLinkWrite (withEv State.reset { a := 0x2FFF, bytes := [1, 2] })) (fun t => t.mem = [(0x2FFF, 1#8), (0x3000, 2#8)]) = true ∧
    (match exec .hostLinkWrite (withEv State.reset { a := 0x8000000000, bytes := [1] }) with | .fault f => decide (f = .noSuchAddress 0x8000000000) | _ => false) = true := by decide +kernel
set_option maxRecDepth 20000 in
theorem test_migration :
    gives (exec .migrationEngineCopy (withEv { State.reset with mem := [(0x2000, 1#8), (0x5004, 9#8)] } { a := 0x2000, b := 0x5000 })) (fun t => t.mem = [(0x2000, 1#8), (0x5000, 1#8)]) = true := by decide +kernel

/-! ### Witnesses and steps: what cores, homes and engines do -/

/-- Core 0 as a message finds it: one on its way, one class-0 queue, and the event's operands. -/
def receiving (f : Core → Core) (e : EventArgs := {}) (t : Slot := { task with st := .free }) : State :=
  let s := (sender []).setLCore 0 0 (((sender []).lcoreAt 0 0).setEnabled 1 true)
  withEv (s.setCore 0 (f { s.coreAt 0 with slots := [(0, t)] })) e
def old (m : Msg) : Msg := { m with age := 65536 }
theorem witness_MessageEvents :
    let e := vtOfBytes (vtBytes 0x4000 0 0x0A)
    let s := receiving fun k => { k with transit := [aMsg] }
    let h := receiving fun k => k.setQueue 0 [aMsg]
    (s.ev.a < 4096 ∧ (s.coreAt 0).transit = [aMsg] ∧ aMsg.core = 0 ∧ s.holderOf 0 = some aMsg.lease ∧ (s.quadAt (quadOf 0)).preempt = false ∧ aMsg.jdec = none ∧ aMsg.entry = none ∧ aMsg.origin = none ∧ aMsg.poison = false ∧ aMsg.type ≠ 0xFE ∧
      (s.vtUsable 0 0 1).2 = some e ∧ e.cls < 3 ∧ ((s.vtUsable 0 0 1).1.coreAt 0).transit = [aMsg] ∧ ((s.vtUsable 0 0 1).1.coreAt 0).fits e.cls aMsg = true) ∧
    ((h.lcoreAt 0 0).readyHead = none ∧ h.freeSlotOf 0 0 = some 0 ∧ h.queueCandidate 0 0 0 = some (0, aMsg) ∧ aMsg.args.length ≤ 6 ∧ aMsg.effective < 4 ∧ e.prio < 4 ∧
      ((h.setCore 0 ((h.coreAt 0).setQueue 0 (listDrop ((h.coreAt 0).queue 0) 0))).vtUsable 0 0 1).2 = some e) ∧
    (let u := receiving fun k => { k with reserve := [(0, { aMsg with fresh := true })] }
     (u.coreAt 0).reserve = [(0, { aMsg with fresh := true })] ∧ (u.coreAt 0).transit = [] ∧ (u.vtUsable 0 0 1).2 = some e ∧ ((u.vtUsable 0 0 1).1.coreAt 0).reserve = (u.coreAt 0).reserve ∧ (s.coreAt 0).reserve = [] ∧
     (u.vtUsable 0 0 0xF5).2 = none ∧ aMsg.gang = none) ∧
    (((h.coreAt 0).queue 0)[0]? = some aMsg ∧ aMsg.aged = false ∧ 65536 ≤ (old aMsg).age ∧ aMsg.age < 65536) ∧
    ((h.setHome 2 { Home.init with outbox := [aMsg] }).arrive aMsg).2 = true := by decide +kernel
theorem witness_MessageEvents_held :
    let t : Slot := { task with gen := 3 }
    let s := receiving (fun k => { k with held := [.token 0 0 3 0 2 9 0 0] }) {} t
    let u := receiving (fun k => { k with heldUp := [.upcall 0 { aMsg with type := 0xF1 }] }) {} t
    s.ev.flag = false ∧ (s.coreAt 0).held = .token 0 0 3 0 2 9 0 0 :: [] ∧ (s.slotAt 0 0).st ≠ .free ∧ (s.slotAt 0 0).gen = 3 ∧ (s.slotAt 0 0).lease = 0 ∧ (s.slotAt 0 0).frames = [] ∧
    ((s.slotAt 0 0).getQ 2).length < 4 ∧ 4 ≤ (({ t with q := [(2, [1, 2, 3, 4])] } : Slot).getQ 2).length ∧ (u.coreAt 0).heldUp = [.upcall 0 { aMsg with type := 0xF1 }] ∧ u.holderOf 0 = some aMsg.lease ∧ tabFind (u.coreAt 0).reserve 0 = none := by decide +kernel
/-- A token that left die 0 before its last reset; a completion message whose lease has lost its target's quadrant, counted in launch 9. -/
def staleToken : State := receiving (fun k => { k with held := [.token 0 0 3 0 2 9 0 1] }) {} { task with gen := 3 }
def lostMessage : State :=
  let s := receiving (fun k => { k with held := [.message { aMsg with tag := 9, counted := true } 0 true 0x1000#64] }) {} task
  { s with quads := [(0, { Quad.init with owner := none })],
           launches := [(9, { lease := 0, fn := none, hdr := [], hdrDva := 0, account := 0, open_ := 2, next := 0, sent := 0, groups := [], rows := [], completed := false })] }
theorem witness_MessageEvents_dropped :
    staleToken.ev.flag = false ∧ (1 : BitVec 3) ≠ (staleToken.dieAt (dieOf 0)).inc ∧ lostMessage.ev.flag = false ∧ lostMessage.ownWord 0x1000#64 = false ∧ lostMessage.destLease 0 0 = none ∧
    (lostMessage.leaseAt 0).isSome = true ∧ (tabFind lostMessage.launches 9).isSome = true := by decide +kernel
theorem test_held_dropped :
    gives (exec .engineHeldDelivery staleToken) (fun t => (t.coreAt 0).held = [] && (t.slotAt 0 0).getQ 2 = [] && (t.dieAt 0).staleResp = 1 && (t.leaseD 0).stale = 0) = true ∧
    gives (exec .engineHeldDelivery lostMessage) (fun t => (t.coreAt 0).held = [] && (t.leaseD 0).dropped = 1 && (t.launches.map (·.2.open_)) = [1] && (t.coreAt 0).transit = []) = true := by decide +kernel
theorem witness_MessageEvents_counted :
    let m : Msg := { aMsg with tag := 9, counted := true }
    let h : State := { receiving (fun k => k.setQueue 0 [m]) with launches := [(9, { lease := 0, fn := none, hdr := List.replicate 48 0 ++ [0x40#8] ++ List.replicate 15 0, hdrDva := 0, account := 0, open_ := 1, next := 0, sent := 0, groups := [], rows := [], completed := false })] }
    h.queueCandidate 0 0 0 = some (0, m) ∧ (((h.setCore 0 ((h.coreAt 0).setQueue 0 (listDrop ((h.coreAt 0).queue 0) 0))).vtUsable 0 0 1).1.liveLaunch m.lease m.tag).isSome = true ∧
    gives (exec .handlerStart h) (fun t => (t.slotAt 0 0).getX 8 = 0x40 && (t.slotAt 0 0).getX 9 = 9 && (t.slotAt 0 0).getX 16 = 0) = true := by decide +kernel
theorem test_upcall_arrival :
    gives (exec .messageArrival (receiving fun k => { k with reserve := [(0, { aMsg with fresh := true })] })) (fun t => ((t.coreAt 0).reserve.map fun r => (r.2.fresh, r.2.prio)) = [(false, 2)]) = true ∧
    gives (exec .messageArrival (receiving fun k => { k with reserve := [(17, { aMsg with type := 0xF5, fresh := true })] })) (fun t => (t.coreAt 0).reserve = [] && (t.leaseD 0).lost = 1 && (t.leaseD 0).dropped = 1) = true := by decide +kernel
theorem test_message_events :
    gives (exec .messageArrival (receiving fun k => { k with transit := [aMsg] })) (fun t => (t.coreAt 0).transit = [] && (((t.coreAt 0).queue 0).map fun m => (m.type, m.prio)) = [(1, 2)]) = true ∧
    gives (exec .handlerStart (receiving (fun k => k.setQueue 0 [aMsg]) { a := 0, b := 0 })) (fun t => (t.coreAt 0).queue 0 = [] && (let u := t.slotAt 0 0
      u.st = .ready && u.pc = 0x4000 && u.gen = 1 && u.wid = 6 && u.getX 9 = 9 && u.getX 10 = 4 && u.getX 11 = 5 && u.getX 12 = 0 && u.prio = 2)) = true ∧
    gives (exec .messageAgeing (receiving (fun k => k.setQueue 0 [old aMsg]) { a := 0, b := 0, c := 0 })) (fun t => (((t.coreAt 0).queue 0).map (·.aged)) = [true]) = true ∧
    gives (exec .continuationSend (withEv ((sender []).setHome 2 { Home.init with outbox := [aMsg] }) { a := 2 })) (fun t => (t.homeAt 2).outbox = [] && (((t.coreAt 0).queue 0).length + (t.coreAt 0).transit.length) = 1) = true ∧
    gives (exec .engineHeldDelivery (receiving (fun k => { k with held := [.token 0 0 3 0 2 9 0 0] }) {} { task with gen := 3 })) (fun t => (t.slotAt 0 0).getQ 2 = [9] && (t.coreAt 0).held = []) = true ∧
    gives (exec .engineFaultUpcall (receiving (fun k => { k with heldUp := [.upcall 0 aMsg] }) {} task)) (fun t => tabFind (t.coreAt 0).reserve 0 = some { aMsg with fresh := true } && (t.coreAt 0).heldUp = []) = true := by decide +kernel

/-- Four words of carried code (R156): x10 := x10 + x11, and three that do nothing. -/
def carriedMsg (w0 : Word := 0x0000001300B50533#64) : Msg := { aMsg with type := 0xFE, args := [w0, 0x0000001300000013#64, 7#64, 8#64] }
/-- A JDEC of 1 at the head of the carried-code queue, for a join word that holds 3, or 1 with the spill latch held or not. -/
def jdecs (off : Nat) (j : Nat := 0x10100000003) : State := withSpad (receiving fun k => { k with carried := [{ aMsg with jdec := some (off, 1) }] }) off (leBytes 8 j)
def firing (latched : Bool) : State :=
  let s := jdecs 64 0x10100000001
  s.setLCore 0 0 { s.lcoreAt 0 0 with latched := if latched then some (List.replicate 16 0#8) else none }
theorem witness_CarriedForms :
    let s := receiving fun k => { k with carried := [carriedMsg] }
    let v := s.setCore 0 { s.coreAt 0 with carried := [] }
    let e := vtOfBytes (vtBytes 0 0 0x04)
    (s.ev.a < 4096 ∧ (s.coreAt 0).carried = carriedMsg :: [] ∧ carriedMsg.jdec = none ∧ (v.vtUsable 0 0 0xFE).2 = some e ∧ e.cc = true ∧
      decodeCarried carriedMsg.words = some [.add 10 10 11, .addi 0 0 0, .addi 0 0 0, .addi 0 0 0] ∧ decodeCarried (carriedMsg 0x0000001300000073#64).words = none ∧
      (Hidden.runAll (v.vtUsable 0 0 0xFE).1 ⟨0, 0, e.dom, 0, (Slot.init.setX 10 7#64).setX 11 8#64⟩ [.add 10 10 11, .addi 0 0 0, .addi 0 0 0, .addi 0 0 0] 0).2 = (4, false)) ∧
    ({ aMsg with jdec := some (64, 1) } : Msg).jdec = some (64, 1) ∧ aMsg.counted = false ∧ carriedMsg.poison = false ∧
    (jdecs 64).decWaits 0 0 64 1 = false ∧ (firing true).decWaits 0 0 64 1 = true ∧ (firing false).decWaits 0 0 64 1 = false := by decide +kernel
theorem witness_CarriedForms_counted :
    let m : Msg := { aMsg with jdec := some (64, 1), counted := true, tag := 9 }
    let s : State := { (jdecs 64).setCore 0 { (jdecs 64).coreAt 0 with carried := [m] } with launches := [(9, { lease := 0, fn := none, hdr := [], hdrDva := 0, account := 0, open_ := 3, next := 0, sent := 0, groups := [], rows := [], completed := false })] }
    s.decWaits 0 m.lease 64 1 = false ∧ (s.coreAt s.ev.a).carried = m :: [] ∧ m.poison = false ∧ (tabFind s.launches 9).isSome = true ∧
    gives (exec .jdecApply s) (fun t => (t.launches.map (·.2.open_)) = [2]) = true := by decide +kernel
/-- A cullet ring of 256 records at 0x2000 whose head is a codelet of type 1 (R331, R332). -/
def cullet : State :=
  let s : State := { sender [] with mem := memPutBytes [] 0x2000 (codeletRec 1 0 64 5) }
  withEv (s.setLCore 0 0 ({ s.lcoreAt 0 0 with cull := 0x2000, cullsz := 256 }.setCullet 0 1 0)) { a := 0 }
/-- A cullet ring whose memory the gaffer's load faults on: past the backed bytes of the local window. -/
def brokenCullet : State := withEv ((sender []).setLCore 0 0 ({ (sender []).lcoreAt 0 0 with cull := 0x7FFFFFF40000, cullsz := 256 }.setCullet 0 1 0)) { a := 0 }
theorem witness_CarriedForms_cullet :
    let s := cullet
    let r := s.runHw 0 (hwRead 0 0 0x2000 16)
    s.holderOf 0 = some 0 ∧ (s.lcoreAt 0 0).ccount = 1 ∧ (s.lcoreAt 0 0).refillStop = false ∧ (s.lcoreAt 0 0).cullsz ≠ 0 ∧ (s.lcoreAt 0 0).culletDva (s.lcoreAt 0 0).chead = 0x2000 ∧
    r.2 = some (codeletRec 1 0 64 5) ∧ (codeletRec 1 0 64 5).length = 16 ∧ recEntries (codeletRec 1 0 64 5) = 1 ∧ (r.1.lcoreAt 0 0).ccount ≠ 0 ∧ (r.1.lcoreAt 0 0).rcount < 64 ∧
    recIsMsg (codeletRec 1 0 64 5) = false ∧ (let b := brokenCullet
      (b.runHw 0 (hwRead 0 0 ((b.lcoreAt 0 0).culletDva (b.lcoreAt 0 0).chead) 16)).2 = none ∧ b.holderOf 0 = some 0 ∧ (b.lcoreAt 0 0).ccount ≠ 0 ∧ (b.lcoreAt 0 0).cullsz ≠ 0) := by decide +kernel
/-- A cullet ring whose head is a message record of three entries, type 1 with two arguments (R330). -/
def threeEntries : State :=
  let r := msgRec aMsg
  let s : State := { sender [] with mem := memPutBytes [] 0x2000 r }
  withEv (s.setLCore 0 0 ({ s.lcoreAt 0 0 with cull := 0x2000, cullsz := 256, culletFacts := [{ srcLease := 0, counted := false }] }.setCullet 0 (r.length / 16) 0)) { a := 0 }
theorem witness_CarriedForms_entries :
    let s := threeEntries
    let n := (msgRec aMsg).length / 16
    let e := fun i => ((msgRec aMsg).drop (16 * i)).take 16
    let s1 := (s.runHw 0 (hwRead 0 0 0x2000 16)).1
    n = 3 ∧ recEntries (e 0) = 3 ∧ recIsMsg (e 0) = true ∧ recType (e 0) = 1 ∧ (s.lcoreAt 0 0).ringBad = false ∧ (s.lcoreAt 0 0).ccount = 3 ∧ (s.runHw 0 (hwRead 0 0 0x2000 16)).2 = some (e 0) ∧
    (s1.runHw 0 (hwRead 0 0 0x2010 16)).2 = some (e 1) ∧ ((s1.runHw 0 (hwRead 0 0 0x2010 16)).1.runHw 0 (hwRead 0 0 0x2020 16)).2 = some (e 2) ∧ (e 2).length = 16 := by decide +kernel
theorem test_refill_entries :
    gives (exec .culletRefill threeEntries) (fun t => (t.lcoreAt 0 0).rcount = 3 && (t.lcoreAt 0 0).ccount = 0 && (t.lcoreAt 0 0).chead = 3 &&
      (t.lcoreAt 0 0).spadBytes (readyEntry 0) 16 ++ (t.lcoreAt 0 0).spadBytes (readyEntry 1) 16 ++ (t.lcoreAt 0 0).spadBytes (readyEntry 2) 16 = msgRec aMsg) = true := by decide +kernel
theorem test_carried :
    gives (exec .carriedCodeExecute (receiving fun k => { k with carried := [carriedMsg] })) (fun t => (t.coreAt 0).carried = [] && (t.coreAt 0).busy = 4) = true ∧
    gives (exec .jdecApply (firing true)) (fun t => (t.coreAt 0).carried.length = 1 && (t.lcoreAt 0 0).readSpad 64 8 = 0x10100000001) = true ∧
    gives (exec .jdecApply (firing false)) (fun t => (t.coreAt 0).carried = [] && (t.lcoreAt 0 0).rcount = 1) = true ∧
    gives (exec .culletRefill brokenCullet) (fun t => (t.lcoreAt 0 0).cfault = 3 && (t.lcoreAt 0 0).refillStop && ((tabFind (t.coreAt 0).reserve 16).map fun m => (m.type, m.args.take 2)) = some (0xF3, [3, 0x7FFFFFF40000#64])) = true ∧
    gives (exec .jdecApply (jdecs 64))
      (fun t => (t.coreAt 0).carried = [] && (t.lcoreAt 0 0).readSpad 64 8 = 0x10100000002) = true ∧
    gives (exec .culletRefill cullet) (fun t => (t.lcoreAt 0 0).rcount = 1 && (t.lcoreAt 0 0).ccount = 0 && (t.lcoreAt 0 0).chead = 1) = true := by decide +kernel

/-! ### Witnesses and steps: slots and the clk -/

def asker : Asker := { core := 0, slot := 0, gen := 3, lease := 0, inc := 0, d := 5 }
def noted (st : SlotSt) (n : Notice) : State := withEv { at0 { task with st := st, gen := 3 } with notices := [n] } { a := 0 }
def notice (val : Word) (retry : Bool := false) (inc : BitVec 3 := 0) : Notice := { who := { asker with inc := inc }, val := val, ab := false, acq := false, retry := retry }
theorem witness_SlotEvents :
    let w := withEv (at0 { task with wdc := 0xFFFFFFFF }) {}
    let f := withEv (at0 { callee true false with frames := (callee true false).frames.map fun f => { f with remaining := 0 } }) {}
    let r := withEv (at0 { task with st := .blocked (.ldfRetry 5 0x2000 8) }) {}
    (0 < 4096 ∧ 0 < 8 ∧ (w.slotAt 0 0).st ≠ .free ∧ (w.leaseD 0).wdl.toNat ≤ (w.slotAt 0 0).wdc.toNat ∧ (w.slotAt 0 0).warned = false ∧ { w.slotAt 0 0 with warned := true }.warned = true ∧
      ({ (w.slotAt 0 0) with wdc := 0xFFFFFFFE } : Slot).wdc.toNat < (w.leaseD 0).wdl.toNat) ∧
    ((f.slotAt 0 0).frames.length = 1 ∧ ((f.slotAt 0 0).frames.map (·.remaining)) = [0] ∧ (∀ f ∈ (at0 (callee true false)).cur.frames, f.remaining ≠ 0)) ∧
    ((noted (.blocked (.answer 5)) (notice 7)).notices[0]? = some (notice 7) ∧ (notice 7).who.inc = ((noted .ready (notice 7)).dieAt 0).inc ∧ ((noted (.blocked (.answer 5)) (notice 7)).slotAt 0 0).gen = 3 ∧
      (notice 7 false 1).who.inc ≠ ((noted .ready (notice 7)).dieAt 0).inc ∧ (notice 7).who.unwound = ((noted .ready (notice 7)).slotAt 0 0).unwound ∧
      ((noted .free (notice 7)).slotAt 0 0).st = .free ∧ { notice 7 with acq := true }.acq = true) ∧
    ((r.slotAt 0 0).st = .blocked (.ldfRetry 5 0x2000 8) ∧ isOk (feWord (BitVec.ofNat 64 0x2000) 8 false { r with core := 0, slot := 0 }) (fun _ t => decide (t.core = 0) && decide (t.slot = 0) && decide ((t.drainSlot 0 0).core = 0) &&
      decide ((t.drainSlot 0 0).slot = 0)) = true) ∧
    (let q := withEv (at0 { task with st := .blocked (.on (.qpop 5 2)), q := [(2, [9])] }) {}
     (q.slotAt 0 0).st = .blocked (.on (.qpop 5 2)) ∧ (q.slotAt 0 0).frames = [] ∧ (q.slotAt 0 0).getQ 2 = 9 :: [] ∧ (at0 task).cur.getQ 2 = []) := by decide +kernel
/-- Two frames whose limits run out in the same clk; and a PLBINV that waits for a slot in an LDF. -/
def spent2 : State := withEv (at0 { callee true false with frames := ((callee true false).frames ++ (callee true false).frames).map fun f => { f with remaining := 0 } }) {}
def draining (n : BitVec 8) : State :=
  let s := withEv (at0 { task with st := .blocked (.drain 5 [(0, 1, 3)]) }) {}
  s.setSlot 0 1 { task with gen := n, st := .blocked (.ldf 5 0x2000 8 (xlat 0)) }
theorem witness_SlotEvents_more :
    (spent2.slotAt 0 0).frames.length = 2 ∧ (∀ f ∈ (spent2.slotAt 0 0).frames, f.remaining = 0) ∧ (spent2.coreAt 0).vecq = [] ∧
    ((draining 3).slotAt 0 0).st = .blocked (.drain 5 [(0, 1, 3)]) ∧ ((draining 3).slotAt 0 1).gen = 3 ∧ ((draining 3).slotAt 0 1).access.isSome = true ∧ ((draining 4).slotAt 0 1).gen ≠ 3 := by decide +kernel
theorem test_slot_events_more :
    gives (exec .glimitExpiry spent2) (fun t => t.cur.frames = [] && t.cur.getX 11 = 0x1B && t.cur.st = .ready) = true ∧
    gives (exec .slotUnblock (draining 3)) (fun t => t.cur.st ≠ .ready) = true ∧ gives (exec .slotUnblock (draining 4)) (fun t => t.cur.st = .ready && t.cur.getX 5 = 0 && t.cur.pc = 0x1004) = true := by decide +kernel
theorem test_slot_events :
    gives (exec .watchdogExpiry (withEv (at0 { task with wdc := 0xFFFFFFFF }) {})) (fun t => t.cur.warned && t.cur.wdc = 0 && ((tabFind (t.coreAt 0).reserve 8).map (·.type)) = some 0xF2) = true ∧
    gives (exec .watchdogExpiry (withEv (at0 { task with wdc := 0xFFFFFFFF, warned := true }) {})) (fun t => t.cur.st = .free) = true ∧
    gives (exec .glimitExpiry (withEv (at0 { callee true false with frames := (callee true false).frames.map fun f => { f with remaining := 0 } }) {})) (fun t => t.cur.frames = [] && t.cur.getX 11 = 0x1B) = true ∧
    gives (exec .noticeDelivery (noted (.blocked (.answer 5)) (notice 7))) (fun t => t.cur.getX 5 = 7 && t.cur.st = .ready && t.cur.pc = 0x1004 && t.notices = []) = true ∧
    gives (exec .noticeDelivery (noted (.blocked (.ldf 5 0x2000 8 (xlat 0))) (notice 7 true))) (fun t => t.cur.st = .blocked (.ldfRetry 5 0x2000 8)) = true ∧
    gives (exec .noticeDelivery (noted .free (notice 7))) (fun t => (t.leaseD 0).stale = 1 && t.notices = []) = true ∧
    gives (exec .noticeDelivery { noted (.blocked (.answer 5)) (notice 7) with cores := [(0, { Core.init with slots := [(0, { task with st := .blocked (.answer 5), gen := 3, unwound := 1 })] })] }) (fun t =>
      (t.leaseD 0).stale = 1 && t.cur.st = .blocked (.answer 5)) = true ∧
    gives (exec .staleResponseDrop (noted .ready (notice 7 false 1))) (fun t => (t.dieAt 0).staleResp = 1 && t.notices = []) = true ∧
    gives (exec .ldfRetry (withEv (at0 { task with st := .blocked (.ldfRetry 5 0x2000 8) }) {})) (fun t => t.cur.st = .blocked (.ldf 5 0x2000 8 (xlat 0)) && (t.homeAt 2).reqs.length = 1) = true ∧
    gives (exec .slotUnblock (withEv (at0 { task with st := .blocked (.on (.qpop 5 2)), q := [(2, [9])] }) {})) (fun t => t.cur.getX 5 = 9 && t.cur.st = .ready && t.cur.pc = 0x1004) = true := by decide +kernel

/-- Quadrant 0 with lease 20 next, and its slice used up. -/
def slicing (v : Quad) (tasks : Core := Core.init) : State :=
  withEv { State.reset with cores := [(0, tasks)], leases := [(0, Lease.house), (20, Lease.house)], quads := [(0, v)], accounts := [(0, { balance := 100, part := 0, lease := 0, en := true })] } { a := 0 }
def spent : Quad := { Quad.init with sched := [(0, 1), (20, 2)], clk := 1024 }
/-- A charge on its way for a time, no task living. -/
def chargeLate (n : Nat) : State := withEv { State.reset with cores := [(0, Core.init)], pending := [(0, 3)], pendAge := [(0, n)] } { a := 0 }
theorem witness_ClockAndSlices :
    let s := slicing spent { Core.init with slots := [(0, task)], transit := [{ aMsg with lease := 20 }] }
    let p := slicing { spent with idx := 1, preempt := true }
    0 < 4096 ∧ (s.slotAt 0 0).st ≠ .free ∧ (s.slotAt 0 0).frames = [] ∧ (s.quadAt 0).preempt = false ∧ (s.quadAt 0).taking = false ∧ (s.quadAt 0).sched ≠ [] ∧
    ((s.quadAt 0).sched.getD 0 (0, 0)).2 * 1024 ≤ (s.quadAt 0).clk ∧ { spent with clk := 1023 }.clk < 1024 ∧ s.fusedWith 0 = none ∧ (s.quadAt 0).next = none ∧ s.nextOf [0] = some 1 ∧ (slicing { spent with sched := [] }).nextOf [0] = none ∧
    (let f : State := { p with quads := [(0, { spent with idx := 1, preempt := true, owner := some 0 }), (1, { spent with idx := 1, preempt := true, owner := some 0 })] }
     f.fusedWith 0 = some 1 ∧ (f.quadAt 1).preempt = true ∧ f.quiet 1 = true ∧ (f.setCore 130 { Core.init with slots := [(0, { task with st := .ready })] }).quiet 0 = true) ∧
    (let x : State := { slicing { Quad.init with sched := [(0, 5)], holder := some 0 } with pending := [(0, 200)] }
     (x.accountAt 0).balance - (200 : Int) ≤ 0 ∧ (x.quadAt 0).holder = some 0 ∧ (x.accountsOf 0).contains 0 = true ∧ (x.quadAt 0).preempt = false ∧ (x.quadAt 0).sched = [(0, 5)] ∧ x.quads = [(0, x.quadAt 0)]) ∧
    (p.quadAt 0).preempt = true ∧ p.quiet 0 = true ∧ p.fusedWith 0 = none ∧ (p.quadAt 0).sched[1]? = some (20, 2) ∧
    (let a := chargeLate 4095
     a.chargeCore = 0 ∧ a.pendAge = [(0, 4095)] ∧ (a.coreAt 0).issued = none ∧ (a.coreAt 0).jalrClk = 0 ∧ (a.slotAt 0 0).st = .free ∧ a.agenda = []) ∧
    (((receiving fun k => k.setQueue 0 [{ aMsg with age := 65535 }]).coreAt 0).queue 0)[0]? = some { aMsg with age := 65535 } ∧ aMsg.aged = false ∧ 65535 ≤ 65535 ∧
    tabGet 0 ({ s with pending := [(0, 3)] } : State).pending 0 ≠ 0 ∧ tabGet 0 s.pending 0 = 0 ∧ 0 < ((paying s).accountAt 0).balance - (((3 : Nat)) : Int) := by decide +kernel
set_option maxRecDepth 20000 in
theorem test_clock :
    gives (exec .clk (receiving fun k => k.setQueue 0 [{ aMsg with age := 65535 }])) (fun t => t.agenda.head? = some (.event .messageAgeing { a := 0, b := 0, c := 0 })) = true ∧
    gives (exec .clk (receiving fun k => k.setQueue 0 [{ aMsg with age := 65534 }])) (fun t => !t.agenda.contains (.event .messageAgeing { a := 0, b := 0, c := 0 })) = true ∧
    gives (exec .clk (chargeLate 4095)) (fun t => t.agenda = [.event .chargeArrival { a := 0 }]) = true ∧ gives (exec .clk (chargeLate 4094)) (fun t => t.agenda = [] && t.pendAge = [(0, 4095)]) = true ∧
    gives (exec .clk (withEv (at0 task) {})) (fun t => (t.coreAt 0).cyc = 1 && t.cur.wdc = 1 && t.cur.pc = 0x1000) = true ∧ gives (exec .clockLowering (at0 task)) (fun t => t.clockLowered) = true ∧
    gives (exec .sliceEnd (slicing spent { Core.init with slots := [(0, task)], transit := [{ aMsg with lease := 20 }] })) (fun t => (t.quadAt 0).preempt) = true ∧
    gives (exec .preemptionSwitch (slicing { spent with idx := 1, preempt := true })) (fun t => (t.quadAt 0).holder = some 20 && !(t.quadAt 0).preempt) = true ∧
    gives (exec .chargeArrival { slicing { Quad.init with sched := [(0, 5)], holder := some 0 } with pending := [(0, 200)] }) (fun t => (t.accountAt 0).balance = -100 && (t.accountAt 0).exh && (t.quadAt 0).throttled = [0]) = true ∧
    gives (exec .chargeArrival (withEv { paying State.reset with pending := [(0, 3)] } {})) (fun t => (t.accountAt 0).balance = 97 && t.pending = []) = true := by decide +kernel

/-! ### Witnesses and steps: stores, dies and homes -/

def heldDirty : Line := heldLine 0 true (List.replicate 64 7#8) 0x0001
theorem witness_StoreAndDieEvents :
    let s := withEv (posted task 4 (.store [9#8])) { a := 0, b := 0, c := 0x2000 / 64 }
    let f := withEv (withMem (at0 task)) { a := 0, b := 0, c := 0x2000 / 64 }
    let h := withEv (holding task heldDirty) { a := 0, b := 0, c := 0x2000 / 64 }
    let w := withEv (mapped State.reset) { a := 0, b := 20, c := 0x2000 }
    memWf s.mem = true ∧ memWf f.mem = true ∧ memWf w.mem = true ∧
    (0 < 4096 ∧ ((s.coreAt 0).sb.map (·.op)) = [.store [9#8]] ∧ ((s.coreAt 0).sb.map fun e => e.x.kind) = [4] ∧ ownView (dieOf 4095) 0x1000000000000 = false ∧ ownView (dieOf 0) 0x1000000000000 = true) ∧
    (((f.dieAt 0).dtc.find? fun y => y.covers 0 (64 * (0x2000 / 64))) = some (xlat 0) ∧ (f.dieAt 0).lines = [] ∧ (xlat 0).cached = true ∧ f.lineOf 0 0 (0x2000 / 64) = none) ∧
    (h.lineOf 0 0 (0x2000 / 64) = some heldDirty ∧ heldDirty.bytes.length = 64 ∧ heldDirty.dirty ≠ 0 ∧ { heldDirty with dirty := 0 }.dirty = 0) ∧
    ((w.leaseAt 20).isSome = true ∧ isOk (walk 0 20 0x2000 { write := false, fetch := false } w) (fun x _ => decide (x.paOf 0x2000 = 0x2000) && decide (x.span = 2 ^ 30)) = true) := by decide +kernel
/-- The head store of a core whose die holds a copy of its line, clean. -/
def copied (kind : Nat) : State := let s := posted task kind (.store [9#8]); s.setDie 0 { s.dieAt 0 with lines := [{ heldDirty with x := xlat kind, dirty := 0 }] }
theorem witness_StoreAndDieEvents_copies :
    let s := withEv (posted task 0 (.store [9#8])) { a := 0 }
    let p := withEv (copied 3) { a := 0 }
    (0 < 4096 ∧ ((s.coreAt 0).sb.map fun e => (e.op, e.x, e.dva, e.poison)) = [(.store [9#8], xlat 0, 0x2008, false)] ∧ ownView (dieOf 0) 0x2008 = false ∧ s.lineOf 0 0 (0x2008 / 64) = none ∧
      ((s.dieAt 0).lines.filter fun y => y.remote == true).length < 524288) ∧
    ((copied 0).lineOf 0 0 (0x2008 / 64) = some { heldDirty with dirty := 0 } ∧ { heldDirty with dirty := 0 }.x = xlat 0) ∧
    (((p.coreAt 0).sb.map fun e => (e.x, e.poison)) = [(xlat 3, false)] ∧ p.lehr (portOf 0x2008) = [] ∧ p.lineOf 0 0 (0x2008 / 64) = some { heldDirty with x := xlat 3, dirty := 0 }) ∧
    ownView 2 0x2000 = true := by decide +kernel
theorem test_drain_copies :
    gives (exec .storeBufferDrain (withEv (copied 0) {})) (fun t => ((t.lineOf 0 0 0x80).map fun l => (l.bytes.take 9, l.dirty)) = some ([7, 7, 7, 7, 7, 7, 7, 7, 9], 4) && t.homeRead 0x2008 1 = [0]) = true ∧
    gives (exec .storeBufferDrain (withEv (copied 3) {})) (fun t => ((t.lineOf 0 0 0x80).map fun l => (l.bytes.take 9, l.dirty)) = some ([7, 7, 7, 7, 7, 7, 7, 7, 9], 0) && t.homeRead 0x2008 1 = [9] &&
      ((t.lehr 2).map fun r => (r.pa, r.bytes, r.accepted)) = [(0x2008, [9], false)]) = true := by decide +kernel
theorem test_store_and_die :
    gives (exec .storeBufferDrain (withEv (posted task 4 (.store [9#8])) {})) (fun t => (t.coreAt 0).sb = [] && t.homeRead 0x2008 1 = [9]) = true ∧
    gives (exec .fill (withEv (withMem (at0 task)) { a := 0, b := 0, c := 0x80 })) (fun t => ((t.lineOf 0 0 0x80).map fun l => (l.bytes.take 2, l.remote)) = some ([1, 2], true)) = true ∧
    gives (exec .writeback (withEv (holding task heldDirty) { a := 0, b := 0, c := 0x80 })) (fun t => t.homeRead 0x2000 5 = [7, 7, 7, 7, 0] && ((t.lineOf 0 0 0x80).map (·.dirty)) = some 0) = true ∧
    gives (exec .evict (withEv (holding task heldDirty) { a := 0, b := 0, c := 0x80 })) (fun t => (t.lineOf 0 0 0x80).isSome) = true ∧
    gives (exec .evict (withEv (holding task { heldDirty with dirty := 0 }) { a := 0, b := 0, c := 0x80 })) (fun t => (t.lineOf 0 0 0x80).isNone) = true ∧
    gives (exec .pageWalk (withEv (mapped State.reset) { a := 0, b := 20, c := 0x2008 })) (fun t => ((t.dieAt 0).dtc.map fun x => (x.lease, x.page, x.pa, x.lv1)) = [(20, 0, 0, 1)] && ((t.dieAt 0).dtc.map (·.span)) = [2 ^ 30] &&
      (t.homeAt (homeOf 0x100000)).walks.length = 1 && (t.homeAt (homeOf 0x102000)).walks.length = 1) = true := by decide +kernel

def atHome (r : HomeReq) (s : State := withMem State.reset) : State := withEv (s.setHome 2 { Home.init with reqs := [r] }) { a := 2 }
theorem witness_HomeRequests :
    let s := atHome (.ldf asker 0x2000 0x2000 8 3 6)
    let e := atHome (.ldf asker 0x2000 0x2000 8 3 6) { withMem State.reset with fe := [(0x400, 0)] }
    memWf s.mem = true ∧ s.ev.a < 8 ∧ (s.homeAt 2).reqs = [.ldf asker 0x2000 0x2000 8 3 6] ∧ s.feOf 0x2000 = 1 ∧ s.linePoisoned 0x2000 = false ∧ e.feOf 0x2000 = 0 ∧ (e.homeAt (homeOf 0x2000)).waits = [] ∧
    (atHome (.stf asker 0x2000 0x2000 8 7)).homeAt 2 ≠ Home.init ∧ ((atHome (.sete asker 0x2000 0x2000 512)).homeAt 2).reqs = [.sete asker 0x2000 0x2000 512] ∧
    { asker with inc := 1 }.inc ≠ (s.dieAt (dieOf asker.core)).inc ∧ asker.inc = (s.dieAt (dieOf asker.core)).inc ∧ homeOf 0x2008 = 2 := by decide +kernel
/-- An STF at home, for which an LDF of the word waits. -/
def awaited : State :=
  withEv (({ State.reset with fe := [(0x400, 0)] } : State).setHome 2 { Home.init with reqs := [.stf asker 0x2000 0x2000 8 0x0102], waits := [waiter 0x2000 true] }) { a := 2 }
theorem witness_HomeRequests_waiting :
    let w := waiter 0x2000 true
    (awaited.homeAt (homeOf 0x2000)).waits = [w] ∧ w.isLdf = true ∧ w.pa = 0x2000 ∧ w.n = 8 ∧ w.poison = false ∧ awaited.linePoisoned 0x2000 = false ∧ w.asker.inc = (awaited.dieAt (dieOf w.core)).inc ∧
    awaited.lineOf (dieOf w.core) w.lease (w.dva / 64) = none := by decide +kernel
theorem test_home_requests :
    gives (exec .ldfHome (atHome (.ldf asker 0x2000 0x2000 8 3 6))) (fun t => (t.notices.map (·.val)) = [0x8807060504030201] && (t.homeAt 2).reqs = []) = true ∧
    gives (exec .ldfHome (atHome (.ldf asker 0x2000 0x2000 8 3 6) { State.reset with fe := [(0x400, 0)] })) (fun t => t.notices = [] && ((t.homeAt 2).waits.map fun w => (w.isLdf, w.tag, w.wid)) = [(true, 3, 6)]) = true ∧
    gives (exec .stfHome (atHome (.stf asker 0x2000 0x2000 8 0x0102) { State.reset with fe := [(0x400, 0)] })) (fun t => t.homeRead 0x2000 3 = [2, 1, 0] && t.feOf 0x2000 = 1) = true ∧
    gives (exec .stfHome awaited) (fun t => (t.notices.map (·.val)) = [0x0102] && (t.homeAt 2).waits = []) = true ∧
    gives (exec .seteHome (atHome (.sete asker 0x2000 0x2000 2))) (fun t => t.fe = [(0x400, 0)] && t.mem = (withMem State.reset).mem && (t.homeAt 2).reqs = [.sete asker 0x2008 0x2008 1]) = true ∧
    gives (exec .staleRequestDiscard (atHome (.stf { asker with inc := 1 } 0x2000 0x2000 8 7))) (fun t => (t.homeAt 2).reqs = [] && (t.homeAt 2).staleReq = 1) = true := by decide +kernel

/-- An open gather of one row of 16 FP32 elements over K = 2, empty or with the interval [0, 1) (R258). -/
def shape16 : Nat := 0 + 15 * 2 ^ 6 + 2 * 2 ^ 12
def gathering (op : GatherOp) (half : Bool := false) : State :=
  let m := memPutBytes [] 0x2000 (leBytes 8 (shape16 + if half then 2 ^ 40 else 0))
  atHome (.gather asker 0x2000 op) { State.reset with mem := if half then memPutBytes m 0x2010 (leBytes 6 (2 ^ 24)) else m }
def ones : List Lane := List.replicate 16 0x3F800000
theorem witness_GatherEngine :
    let s := gathering (.contribute false 0 2 0 ones)
    let h := gathering (.contribute false 0 2 0 ones) true
    let w0 := leNat (s.homeRead 0x2000 8)
    memWf s.mem = true ∧ memWf h.mem = true ∧ s.ev.a < 8 ∧ homeOf 0x2000 = s.ev.a ∧ s.poison = [] ∧ s.gDead 0x2000 = false ∧ (s.homeAt 2).reqs = [.gather asker 0x2000 (.contribute false 0 2 0 ones)] ∧
    s.gHeaderOk 0x2000 = true ∧ h.gHeaderOk 0x2000 = true ∧ gState w0 = 0 ∧ gRecord (s.gIntervals 0x2000) (gFrags w0) = [] ∧ gRecord (h.gIntervals 0x2000) (gFrags (leNat (h.homeRead 0x2000 8))) = [(0, 1)] ∧
    (0 < 2 ∧ 2 ≤ gK w0) ∧ gRows w0 * gCols w0 ≤ 16 ∧ ones.length = 16 ∧ gK w0 < 3 ∧ gState (leNat ((gathering .abandon).homeRead 0x2000 8)) = 0 ∧ gState (2 ^ 38) ≠ 0 := by decide +kernel
/-- An open gather over K = 40 with eight intervals, each of one block, none adjacent. -/
def fragmented (op : GatherOp) : State :=
  let m := memPutBytes [] 0x2000 (leBytes 8 (0 + 15 * 2 ^ 6 + 40 * 2 ^ 12 + 8 * 2 ^ 40))
  atHome (.gather asker 0x2000 op) { State.reset with mem := memPutBytes m 0x2010 (leBytes 48 (recordWord ((List.range 8).map fun j => (4 * j, 4 * j + 1)))) }
set_option maxRecDepth 20000 in
theorem witness_GatherEngine_more :
    let h := gathering (.contribute true 1 2 0 ones) true
    let f := fragmented (.contribute false 38 39 0 ones)
    let rec_ := gRecord (f.gIntervals 0x2000) (gFrags (leNat (f.homeRead 0x2000 8)))
    (memWf f.mem = true ∧ h.gHeaderOk 0x2000 = true ∧ f.gHeaderOk 0x2000 = true ∧ gState (leNat (f.homeRead 0x2000 8)) = 0) ∧
    ((∀ f ∈ [(0, 1)], ¬ (1 < f.2 ∧ f.1 < 2)) ∧ insertFrag 1 2 [(0, 1)] = [(0, 2)] ∧ gK (leNat (h.homeRead 0x2000 8)) = 2 ∧ gFmt (leNat (h.homeRead 0x2000 8)) = 0 ∧
      0 + gCols (leNat (h.homeRead 0x2000 8)) ≤ 64 ∧ 64 < 49 + gCols (leNat (h.homeRead 0x2000 8))) ∧
    ((∀ f ∈ rec_, ¬ (38 < f.2 ∧ f.1 < 39)) ∧ 39 ≤ gK (leNat (f.homeRead 0x2000 8)) ∧ 8 < (insertFrag 38 39 rec_).length ∧ insertFrag 1 2 rec_ ≠ [(0, 40)] ∧ (insertFrag 1 2 rec_).length ≤ 8) ∧
    (∀ e ∈ h.homes, ∀ w ∈ e.2.waits, w.isLdf = false) := by decide +kernel
theorem test_gather_engine :
    gives (exec .gatherContribution (gathering (.contribute true 1 2 3 ([0, 0, 0] ++ ones)) true)) (fun t => (t.notices.map (·.val)) = [1] && t.homeRead 0x2078 4 = [0, 0, 0x80, 0x3F] && leNat (t.homeRead 0x2008 8) = 1) = true ∧
    gives (exec .gatherContribution (fragmented (.contribute false 38 39 0 ones))) (fun t => (t.notices.map (·.val)) = [3] && leNat (t.homeRead 0x2008 8) = 65536) = true ∧
    gives (exec .gatherContribution (gathering (.contribute true 1 2 49 ones) true)) (fun t => (t.notices.map (·.val)) = [5]) = true ∧
    gives (exec .gatherContribution (gathering (.contribute false 0 2 0 ones))) (fun t => (t.notices.map (·.val)) = [1] && t.homeRead 0x2078 4 = [0, 0, 0x80, 0x3F] && t.feOf 0x2040 = 1 && gState (leNat (t.homeRead 0x2000 8)) = 1) = true ∧
    gives (exec .gatherContribution (gathering (.contribute false 0 2 0 ones) true)) (fun t => (t.notices.map (·.val)) = [2] && leNat (t.homeRead 0x2008 8) = 65536) = true ∧
    gives (exec .gatherContribution (gathering (.contribute false 0 3 0 ones))) (fun t => (t.notices.map (·.val)) = [7]) = true ∧
    gives (exec .gatherInitPerform (gathering (.init shape16))) (fun t => (t.notices.map (·.val)) = [0] && t.feOf 0x2040 = 0 && leNat (t.homeRead 0x2000 8) = shape16) = true ∧
    gives (exec .gatherAbandonPerform (gathering .abandon)) (fun t => (t.notices.map (·.val)) = [0] && t.feOf 0x2078 = 2 && t.feOf 0x2080 = 1) = true ∧
    gives (exec .gatherQueryPerform (gathering .stat)) (fun t => (t.notices.map (·.val)) = [BitVec.ofNat 64 shape16]) = true := by decide +kernel

/-! ### Witnesses and steps: copies, power, resets and the fabric -/

/-- A copy of 8 bytes from 0x2000 to the scratchpad, at the head of core 0's copy engine. -/
def copyCmd (d : List Byte := desc 0x2000 (spad0 + 64) 8) (active : Bool := false) (done : Nat := 0) (coll : Bool := false) : CopyCmd :=
  { id := 1, slot := 0, gen := 0, lease := 0, tag := 0, account := 0, dom := 0, depth := 0, wid := 0, epoch := 0, member := false, fillPat := none, coll := coll, n := 0, desc := d,
    active := active, done := done, window := none }
def copying (q : CopyCmd) (s : State := withMem (at0 task)) : State :=
  withEv ((s.setCore 0 { s.coreAt 0 with copyq := [q] }).setLCore 0 0 { (s.lcoreAt 0 0) with copyId := 1, copySt := [(1, 0)] }) { a := 0 }
def collecting : State := withEv { grouped (withMem (at0 task)) with colls := [{ core := 0, cmd := copyCmd coll true 0 true }] } { a := 0 }
/-- No answer of another device. -/
def none3 : Answer := { bytes := [], inc := 0, seq := 0 }
theorem witness_CopyEvents :
    let s := copying copyCmd
    let a := copying (copyCmd (active := true))
    let q := copyCmd (active := true)
    let bad := copyCmd (desc 0x800000000000 (spad0 + 64) 8) true
    (s.coreAt 0).held = [] ∧ (s.coreAt 0).copyq = [copyCmd] ∧ (s.engineRelease 0 copyCmd).isSome = true ∧ q.done < q.total ∧ isOk (ecopyBytes 0 q none3 a) (fun bs _ => decide (bs = some [1, 2, 3, 4, 5, 6, 7, 0x88])) = true ∧ copyCmd.poison = false ∧ (copyCmd coll (coll := true)).coll = true ∧ copyCmd.coll = false ∧ isOk (q.scrubM 0 a) = true ∧
    isOk (engWrite q 0 q.dstAt (cPeer q.desc) (cMode q.desc == 3) (leBytes 8 1) a) = true ∧ isFault (ecopyBytes 0 bad none3 (copying bad)) 0x06 = true ∧
    (copyCmd (active := true) (done := 8)).total ≤ 8 ∧ a.copyOnFabric 0 q = false ∧ cMode q.desc = 0 ∧ (tabFind (a.lcoreAt 0 0).copySt 1).isSome = true ∧
    ((copying (copyCmd coll (coll := true))).engineRelease 0 (copyCmd coll (coll := true))).isSome = true ∧ (s.coreAt 0).vecq = [] ∧ (s.coreAt 0).sb = [] := by decide +kernel
theorem witness_CopyEvents_collective :
    let s := collecting
    let x : Coll := { core := 0, cmd := copyCmd coll true 0 true }
    s.colls = [x] ∧ s.groupOf 0 (kGroup coll) = some (1, [(0, (s.node, 0))]) ∧ (s.homeAt (dieOf 0)).held = [] ∧ s.ev.a = 0 ∧ s.ev.flag = false ∧ s.ev.order = .rank 0 ∧ kOp coll < 4 ∧ kRoot coll = 0 ∧
    (match (({ s with colls := [] } : State).collRead x).2 with | .ok bs => decide (bs ≠ [] ∧ bs.length = kCount coll * kElem coll) | .error _ => false) = true := by decide +kernel
/-- The copy of a source on another device, its bytes on the way back; the collective while bytes it wrote elsewhere are not acknowledged. -/
def awayCopy : CopyCmd := copyCmd (desc 0x800000001000 (spad0 + 64) 8) true
def reading : State := copying awayCopy (reaching (withMem (at0 task)))
theorem witness_CopyEvents_away :
    let x : Coll := { core := 0, cmd := copyCmd coll true 0 true, written := true }
    let r : FabReq := { id := 4, core := 0, slot := 0, gen := 0, lease := 0, tag := 0, kind := 2, counted := false, dest := 7 * 8192, copyId := 1, d := 0, inc := 0, type := 0, data := [] }
    let s : State := { collecting with colls := [x] }
    (x.given = none ∧ s.collSource x = none ∧ s.cutOff 0 = false ∧ 0 = tabGet 0 s.fabSeq (4 * 0 + 3) ∧ ({ s with fabSeq := [(3, 1)] } : State).fabSeq ≠ s.fabSeq) ∧
    isOk (ecopyBytes 0 awayCopy none3 reading) (fun bs _ => decide (bs = none)) = true ∧ s.copyOnFabric 0 x.cmd = false ∧ ({ s with fabric := [r] } : State).copyOnFabric 0 x.cmd = true ∧
    (s.homeAt (dieOf 0)).held = [] ∧ s.colls[1]? = none := by decide +kernel
/-- A COLL at the head of core 0's copy engine, whose group has a member on another device, or whose source is there. -/
def collAway (away : Bool) : State :=
  let d := if away then coll.take 8 ++ leBytes 8 0x800000001000 ++ coll.drop 16 else coll
  let s := copying (copyCmd d (coll := true)) (reaching (withMem (at0 task)))
  { s with parts := [(0, { Partn.house with groups := [(0, (2, [(0, (0, 0)), (1, (7, 3))]))] })] }
theorem witness_CopyEvents_coll :
    let x := fun (d : List Byte) => ({ core := 0, cmd := copyCmd d true 0 true } : Coll)
    let d := coll.take 8 ++ leBytes 8 0x800000001000 ++ coll.drop 16
    ((collAway false).engineRelease 0 (copyCmd coll (coll := true))).isSome = true ∧ (collAway false).collSource (x coll) = none ∧ (collAway false).collAway (x coll) = [(7, 3)] ∧
    (match ((collAway false).collRead (x coll)).2 with | .ok _ => true | .error _ => false) = true ∧ (collAway true).collSource (x d) = some (7, 0x1003) ∧
    (match (({ collAway false with dies := [] } : State).collRead (x coll)).2 with | .ok _ => false | .error _ => true) = true := by decide +kernel
theorem test_collective_away :
    gives (exec .collectiveStart (collAway false)) (fun t => (t.fabric.map fun r => (r.kind, r.dest, r.vc, r.data.take 3)) = [(4, 0xE000, .data, [0, 0, 1])] && (t.colls.map fun x => x.given.isSome) = [true]) = true ∧
    gives (exec .collectiveStart (collAway true)) (fun t => (t.fabric.map fun r => (r.kind, r.dest, r.data)) = [(3, 0xE000, [0x1003, 8])]) = true := by decide +kernel
/-- The collective with the bytes of a member on device 7, which has number 3 there (R310). -/
def peered (written : List Bool) (made : Option Bool := none) : State :=
  { collecting with colls := written.map fun w => { core := 0, cmd := copyCmd coll true 0 true, written := w },
                    peerBytes := [{ node := 7, lease := 0, group := 0, n := 0, holder := 0, bytes := [], origin := { node := 7, id := 3, inc := 0 }, made := made }] }
theorem witness_CopyEvents_peers :
    let x : Coll := { core := 0, cmd := copyCmd coll true 0 true }
    (peered [false]).groupOf 0 (kGroup coll) = some (1, [(0, ((peered [false]).node, 0))]) ∧ ((peered [false]).peerBytes.map fun b => (b.group, b.n)) = [(kGroup coll, x.cmd.n)] ∧
    (peered [true]).sameColl { x with written := true } { x with written := true } = true ∧ (peered [true]).peerBytes.all ((peered [true]).peerOf x) = true := by decide +kernel
theorem test_collective_peers :
    let out := fun (t : State) => t.fabOut.map fun o => (o.node, o.id, o.status, o.refused)
    gives (exec .collectiveComplete (peered [false])) (fun t => t.peerBytes = [] && out t = [(7, 3, 0, false)]) = true ∧
    gives (exec .collectiveComplete { peered [false] with ev := { flag := true } }) (fun t => t.peerBytes = [] && out t = [(7, 3, 9, true)] && (t.lcoreAt 0 0).fca = 9) = true ∧
    gives (exec .collectiveComplete (peered [true] (some true))) (fun t => t.peerBytes = [] && out t = [(7, 3, 6, true)]) = true ∧
    (let t := (peered [true]).peerDone { core := 0, cmd := copyCmd coll true 0 true } false; (t.peerBytes.map (·.made)) = [some false] ∧ t.fabOut = []) := by decide +kernel
theorem test_copy_events :
    gives (exec .copyStart (copying copyCmd)) (fun t => ((t.coreAt 0).copyq.map (·.active)) = [true]) = true ∧
    gives (exec .ecopy (copying (copyCmd (active := true)))) (fun t => (t.lcoreAt 0 0).spadBytes 64 8 = [1, 2, 3, 4, 5, 6, 7, 0x88] && ((t.coreAt 0).copyq.map (·.done)) = [8]) = true ∧
    gives (exec .copyComplete (copying (copyCmd (active := true) (done := 8)))) (fun t => (t.coreAt 0).copyq = [] && (t.lcoreAt 0 0).copyStatus 1 = 1) = true ∧
    gives (exec .collectiveStart (copying (copyCmd coll (coll := true)))) (fun t => (t.coreAt 0).copyq = [] && t.colls.length = 1) = true ∧
    gives (exec .collectiveComplete collecting) (fun t => t.colls = [] && t.homeRead 0x2040 8 = [1, 2, 3, 4, 5, 6, 7, 0x88]) = true ∧
    gives (exec .collectiveComplete { collecting with colls := [{ core := 0, cmd := copyCmd coll true 0 true, written := true }] }) (fun t => t.colls = []) = true ∧
    gives (exec .collectiveAbort collecting) (fun t => t.colls.length = 1) = true ∧ gives (exec .collectiveAbort { collecting with ev := { flag := true } }) (fun t => t.colls = []) = true ∧
    gives (exec .collectiveAbort { collecting with colls := [{ core := 0, cmd := copyCmd coll true 0 true, age := 4000000 }] }) (fun t => t.colls = [] && (t.lcoreAt 0 0).copyStatus 1 ≠ 0) = true := by decide +kernel

def aRecord (accepted : Bool) : Record := { core := 0, slot := 0, gen := 0, epoch := 0, pa := 0xA000000000000, bytes := [1, 2], accepted := accepted }
def found (ok : Bool := true) : BringUp :=
  { verified := [true, ok, true], interleave := 65, node := 524289, pen := [true, true, true, true], gpf := [], clean := [], volatile := List.replicate 4 (some (2 ^ 32)),
    persistent := [some (2 ^ 32), some (2 ^ 32 + 1), some (2 ^ 33), some (2 ^ 32 + 5)], atomicOps := false }
theorem witness_PowerEvents :
    let s := withEv (State.reset.setLehr 3 [aRecord false]) { a := 3, found := some found }
    s.ev.a < 4 ∧ s.lehr 3 = [aRecord false] ∧ s.ev.b = 0 ∧ s.pwrfail = false ∧ (aRecord false).accepted = false ∧ ((s.lehr 3).filter (·.accepted)).length < 131072 ∧ s.earlierEpoch (aRecord false) = false ∧
    (aRecord true).accepted = true ∧ (∀ r ∈ s.lehr 3, r.accepted = false) ∧ (∀ i, i < 3 → found.verified.getD i false = true) ∧ (found false).verified.getD 1 false = false ∧ memWf s.mem = true ∧ windowOf 0xB000000000000 = 11 ∧ windowOf 0xAFFFFFFFFFFFF ≠ 11 := by decide +kernel
theorem test_power :
    gives (exec .lehrAccept (withEv (State.reset.setLehr 3 [aRecord false]) { a := 3 })) (fun t => ((t.lehr 3).map (·.accepted)) = [true]) = true ∧
    gives (exec .lehrRetire (withEv (State.reset.setLehr 3 [aRecord true]) { a := 3 })) (fun t => t.lehr 3 = [] && t.durable = [(0xA000000000000, 1), (0xA000000000001, 2)]) = true ∧
    gives (exec .pwrfailN (State.reset.setLehr 3 [aRecord true])) (fun t => t.pwrfail && t.lehr 3 = [] && t.durable.length = 2) = true ∧
    gives (exec .powerLoss { at0 task with mem := [(0x2000, 1#8), (0xB000000000000, 2#8)], durable := [(0xA000000000000, 3)] }) (fun t => !t.up && t.cores = [] && t.mem = [(0xA000000000000, 3#8), (0xB000000000000, 2#8)]) = true ∧
    gives (exec .packageReset (withEv (at0 task) { found := some found })) (fun t => t.up && t.cores = [] && t.interleave = 64 && t.node = 1 && !t.atomicOps && t.persistSize = 0x400000000) = true ∧
    gives (exec .packageReset (withEv (at0 task) { found := some { found with persistent := [none] } })) (fun t => t.up && t.persistSize = 0) = true ∧
    gives (exec .packageReset (withEv (at0 task) { found := some (found false) })) (fun t => !t.up && t.log.length = 1) = true := by decide +kernel

def hit (e : ErrorSite) : State := withEv (at0 task) { site := some e }
/-- Home 7 holds line 0x80 in its cache, dirty or not, and loses its tag; lease 20 owned it. -/
def tagged (dirty : Bool) : State :=
  withEv { (at0 task).setHome 7 { Home.init with cache := [(0x80, dirty)] } with leases := [(0, Lease.house), (20, { Lease.house with wdl := 5 })] } { a := 7, b := 0x2000, flag := true, nats := [20] }
/-- A die with a core that has a task. -/
theorem witness_ResetsAndErrors_core :
    let s := withEv (at0 task) { a := 0 }
    s.ev.a < 8 ∧ s.incUsed 0 ((s.dieAt 0).inc + 1) = false ∧ dieOf 0 = 0 ∧ (s.slotAt 0 0).st ≠ .free ∧
    gives (exec .dieReset s) (fun t => (t.slotAt 0 0).st = .free && (t.dieAt 0).inc = 1) = true := by decide +kernel
theorem witness_ResetsAndErrors :
    let s := withEv (at0 task) { a := 7, flag := true, flag2 := false, nats := [20], b := 0x2000 }
    let u := { s with leases := [(0, Lease.house), (20, Lease.house)] }
    s.ev.a < 8 ∧ (∀ c ∈ s.cores, dieOf c.1 ≠ 7) ∧ s.leaseAt 7 = none ∧ (s.leaseAt 0).isSome = true ∧ s.inWindow 0x7FFFFFFFFF = true ∧ s.inWindow 0x8000000000 = false ∧ 0x3FFFF < 0x40000 ∧
    u.ev.nats = [20] ∧ (u.leaseAt 20).isSome = true ∧ s.incUsed 7 ((s.dieAt 7).inc + 1) = false ∧
    (let n := fun (i : BitVec 3) => ({ who := { core := 3584, slot := 0, gen := 0, lease := 0, inc := i, d := 0 }, val := 0, ab := false, acq := false, retry := false } : Notice)
     ({ s with notices := [n 1] } : State).incUsed 7 ((s.dieAt 7).inc + 1) = true) ∧
    ((tagged true).homeAt 7).cache = [(0x80, true)] ∧ ((tagged false).homeAt 7).cache.find? (fun e => e.1 == 0x80) = some (0x80, false) ∧ (s.homeAt 7).cache = [] ∧
    ((holding task heldDirty).lineOf 0 0 0x80 = some heldDirty ∧ heldDirty.remote = true) ∧ ((posted task 0 (.store [1#8])).coreAt 0).sb.length = 1 ∧
    ((State.reset.setLehr 3 [aRecord true]).lehr 3)[0]? = some (aRecord true) ∧ (awaited.homeAt 2).reqs[0]? = some (.stf asker 0x2000 0x2000 8 0x0102) ∧
    collecting.colls[0]? = some { core := 0, cmd := copyCmd coll true 0 true } ∧ tabFind (member [] (gang1 [] false [pass1])).gangs 0 = some (gang1 [] false [pass1]) ∧ (gang1 [] false [pass1]).passes[0]? = some pass1 := by decide +kernel
set_option maxRecDepth 20000 in
theorem test_gaffer_error :
    gives (exec .uncorrectableError { house (cmd 1 5 0 []) with ev := { site := some (.gafferCommand 0) } }) (fun t => (t.gaffer.map (·.poison)) = [true]) = true ∧
    (let s := at0 task
     ({ s with releasing := [{ frames := [], users := [], cmd := some { cmd 4 0 20 [] with asked := some (0, 1) } }] } : State).incUsed 0 ((s.dieAt 0).inc + 1) = true ∧
     (s.setHome 2 { Home.init with held := [.token 0 0 0 0 2 9 0 1] }).incUsed 0 ((s.dieAt 0).inc + 1) = true) := by decide +kernel
theorem test_resets_and_errors :
    gives (exec .dieReset (withEv (holding task heldDirty) { a := 0, flag := true })) (fun t => (t.dieAt 0).lines = [] && (t.dieAt 0).inc = 1) = true ∧
    gives (exec .pairLinkFailure (withEv (at0 task) { a := 7 })) (fun t => (t.dieAt 7).inc = 1 && ((t.log.map fun e => (e.a, e.b)).contains (5, 7))) = true ∧
    gives (exec .leaseReset (withEv { State.reset with leases := [(0, Lease.house), (20, { Lease.house with wdl := 5 })] } { a := 20 })) (fun t => (t.leaseD 20).wdl = 0xFFFFFFFF) = true ∧
    gives (exec .uncorrectableError (hit (.memLine 0x2010))) (fun t => t.linePoisoned 0x2000) = true ∧
    gives (exec .uncorrectableError (hit (.spadWord 0 0 0x3FFFF))) (fun t => (t.lcoreAt 0 0).spadPoison = [0x7FFF]) = true ∧
    gives (exec .uncorrectableError (hit (.accWord 0 0 false 2 1 1))) (fun t => (t.lcoreAt 0 0).accPoison.length = 1) = true ∧
    gives (exec .uncorrectableError (withEv (holding task heldDirty) { site := some (.cacheLine 0 0 0x80) })) (fun t => ((t.lineOf 0 0 0x80).map (·.poison)) = some true) = true ∧
    gives (exec .uncorrectableError (withEv (posted task 0 (.store [1#8])) { site := some (.storeEntry 0 0) })) (fun t => ((t.coreAt 0).sb.map (·.poison)) = [true]) = true ∧
    gives (exec .uncorrectableError (withEv (State.reset.setLehr 3 [aRecord true]) { site := some (.lehrRecord 3 0) })) (fun t => ((t.lehr 3).map (·.poison)) = [true]) = true ∧
    gives (exec .uncorrectableError { awaited with ev := { site := some (.homeRequest 2 0) } }) (fun t => (t.homeAt 2).reqs = [.bad (.stf asker 0x2000 0x2000 8 0x0102)]) = true ∧
    gives (exec .uncorrectableError { collecting with ev := { site := some (.collective 0) } }) (fun t => (t.colls.map (·.cmd.poison)) = [true]) = true ∧
    gives (exec .uncorrectableError { member [] (gang1 [] false [pass1]) with ev := { site := some (.passEntry 0 0) } }) (fun t => (t.gangs.map (·.2.passes.map (·.poison))) = [[true]]) = true ∧
    gives (exec .homeTagParityError (withEv (at0 task) { a := 0, flag := true })) (fun t => t.cur.st = .ready) = true ∧
    gives (exec .homeTagParityError (tagged false)) (fun t => (t.homeAt 7).cache = [] && (t.leaseD 20).wdl = 5) = true ∧
    gives (exec .homeTagParityError (tagged true)) (fun t => (t.homeAt 7).cache = [] && (t.leaseD 20).wdl = 0xFFFFFFFF) = true ∧
    gives (exec .correctableError (withEv (at0 task) { a := 3 })) (fun t => t.corrected = [(3, 1)]) = true := by decide +kernel

def aReq (kind : Nat) (age : Nat := 0) : FabReq :=
  { id := 4, core := 0, slot := 0, gen := 0, lease := 0, tag := 9, kind := kind, counted := true, dest := 0xE000, copyId := 0, d := 5, inc := 0, type := 1, data := [], age := age }
def fabricked (r : FabReq) (e : EventArgs := { a := 4 }) : State := withEv { at0 task with fabric := [r], fabNext := 5, launches := [(9, live9 4 4 1)] } e
/-- Group 0 of this device's lease 0 and of lease 0 of node 7. -/
def grouped2 (s : State) : State := { s with parts := [(0, { Partn.house with groups := [(0, (2, [(0, (0, 0)), (1, (7, 0))]))] })] }
theorem witness_FabricEvents :
    let s := fabricked (aReq 1)
    let p := withEv (reaching (at0 task)) { req := some (.peerBytes 7 0 0 0x3F800 (List.replicate 8 1#8)) }
    let q := { p with parts := [(0, { Partn.house with groups := [(0, (2, [(0, (0, 0)), (1, (7, 0))]))] })] }
    1 < 2 ∧ 1 ∉ s.linksDown ∧ 17 < 18 ∧ 17 ∉ s.portsDown ∧ 17 ∈ ({ s with portsDown := [17] } : State).portsDown ∧ s.admitted 7 0 = none ∧ p.ev.req.isSome = true ∧ q.admitted 7 0 = some 0 ∧ p.holderOf 0 = some 0 ∧
    0x3F800 + (List.replicate 8 1#8).length ≤ 0x3F808 ∧ (s.fabric.find? fun x => x.id == 4 && !x.there) = some (aReq 1) ∧ (aReq 1).kind = 1 ∧ (aReq 1).dest / 8192 % 524288 = 7 ∧ s.ev.fseq = tabGet 0 s.fabSeq (4 * 7 + 2) ∧ s.ev.fseq = tabGet 0 s.fabSeq (4 * 7 + 1) ∧ s.forEcopy (aReq 3) = false ∧
    (let r : FabReq := { aReq 2 with copyId := 1, kind := 3 }; (copying copyCmd).forEcopy r = true) ∧ ((copying copyCmd).coreAt 0).held = [] ∧ ((copying copyCmd).coreAt 0).copyq = [copyCmd] ∧ copyCmd.id = 1 ∧ (copying copyCmd).colls = [] ∧ (aReq 1 4000000).age = 4000000 ∧ (aReq 1).age < 4000000 ∧
    (s.fabric.find? fun x => x.id == 3 && !x.there) = none ∧ 3 < s.fabNext ∧ s.cutOff 7 = false ∧ p.ev.fseq = tabGet 0 p.fabSeq (4 * 7 + 1) ∧ ({ p with fabSeq := [(29, 5)] } : State).ev.fseq ≠ tabGet 0 ({ p with fabSeq := [(29, 5)] } : State).fabSeq (4 * 7 + 1) ∧
    (aReq 1).inc = (s.dieAt 0).inc ∧ { aReq 1 with inc := 3 }.inc ≠ (s.dieAt 0).inc ∧ ({ q with quads := [(0, { Quad.init with holder := none })] } : State).holderOf 0 ≠ some 0 ∧
    (q.admitMsg 0 { Msg.hw 1 0 0 0 [] 6 0 with sender := 9, origin := some { node := 7, id := 0, inc := 0 } }).2 = .taken ∧
    (q.admitMsg 0 { Msg.hw 0 0 0 0 [] 6 0 with sender := 9, jdec := some (64, 1), origin := some { node := 7, id := 0, inc := 0 } }).2 = .taken ∧
    ((owning (crowded (sender []))).admitMsg 0 { Msg.hw 1 0 0 0 [] 6 0 with origin := some { node := 7, id := 0, inc := 0 } }).2 = .noRoom ∧
    (({ q with quads := [(0, { Quad.init with owner := none })] } : State).admitMsg 0 { Msg.hw 1 0 0 0 [] 6 0 with origin := some { node := 7, id := 0, inc := 0 } }).2 = .refused ∧
    isOk (admitReadM 0 9 0x2000 8 q) = true := by decide +kernel
/-- With every port down, no node can be reached. -/
theorem witness_FabricEvents_cut : ({ fabricked (aReq 1) with portsDown := List.range 18 } : State).cutOff 7 = true := by
  simp [State.cutOff, Config.fabricPorts, Nat.mod_lt]
theorem test_fabric :
    gives (exec .hostLinkDown (withEv State.reset { a := 1 })) (fun t => t.linksDown = [1]) = true ∧ gives (exec .fabricPortDown (withEv State.reset { a := 17 })) (fun t => t.portsDown = [17]) = true ∧
    gives (exec .fabricReplay (withEv { State.reset with replays := [(4456449, 3)] } { a := 17, c := 1 })) (fun t => t.replays = [] && t.portsDown = []) = true ∧
    gives (exec .fabricReplay (withEv { State.reset with replays := [(4456449, 14)] } { a := 17, c := 1, flag := true })) (fun t => t.replays = [(4456449, 15)] && t.portsDown = []) = true ∧
    gives (exec .fabricReplay (withEv { State.reset with replays := [(4456449, 15)] } { a := 17, c := 1, flag := true })) (fun t => t.portsDown = [17]) = true ∧
    gives (exec .fabricReplay (withEv { State.reset with replays := [(4456449, 15)] } { a := 17, c := 2, flag := true })) (fun t => t.portsDown = []) = true ∧
    gives (exec .fabricReplay (withEv State.reset { a := 17, b := 1, c := 2, flag2 := true })) (fun t => (t.fabOut.map fun o => (o.vc, o.status, o.id, o.link)) = [(.control, 1, 2, some 17)] && t.replays = []) = true ∧
    gives (exec .fabricAdmission (withEv (grouped2 (owning (sender []))) { req := some (.jdec 7 0 0 64 1 0xE000 6 0), fid := 3 })) (fun t => ((t.coreAt 0).transit.map fun m => (m.sender, m.wid, m.jdec)) = [(0xE000, 6, some (64, 1))]) = true ∧
    gives (exec .fabricAdmission (withEv (grouped2 (at0 task)) { req := some (.peerBytes 7 0 0 64 [1, 2]), fid := 3 })) (fun t => (t.lcoreAt 0 0).spadBytes 64 2 = [1, 2] &&
      ((t.fabOut.filter (!·.credit)).map fun o => (o.node, o.id, o.status, o.refused)) = [(7, 3, 0, false)] && t.fabSeq = [(29, 1)]) = true ∧
    gives (exec .fabricAdmission (withEv (at0 task) { req := some (.peerBytes 7 0 0 64 [1, 2]), fid := 3 })) (fun t => (t.lcoreAt 0 0).spadBytes 64 2 = [0, 0] &&
      ((t.fabOut.filter (!·.credit)).map fun o => (o.status, o.refused)) = [(6, true)]) = true ∧
    gives (exec .fabricAdmission (withEv { grouped2 (at0 task) with quads := [(0, { Quad.init with holder := none })] } { req := some (.peerBytes 7 0 0 64 [1, 2]) })) (fun t => ((t.fabOut.filter (!·.credit)).map fun o => (o.status, o.refused)) = [(0x16, true)]) = true ∧
    gives (exec .fabricAdmission (withEv (grouped2 (at0 task)) { req := some (.peerBytes 7 0 0 64 [1, 2]), fseq := 1 })) (fun t => t.fabOut = [] && t.fabSeq = []) = true ∧
    gives (exec .fabricAck (fabricked (aReq 1) { a := 4, b := 1, fseq := 1 })) (fun t => t.fabric.length = 1 && t.fabSeq = []) = true ∧
    gives (exec .fabricAck (fabricked { aReq 1 with inc := 3 } { a := 4, b := 1 })) (fun t => t.fabric.length = 1 && (t.dieAt 0).staleResp = 1) = true ∧
    gives (exec .fabricAck (fabricked (aReq 1) { a := 4, flag := true, b := 6 })) (fun t => t.fabric = [] && (t.notices.map (·.val)) = [6]) = true ∧
    gives (exec .fabricAck (fabricked (aReq 1) { a := 4, b := 1 })) (fun t => t.fabric = [] && (t.notices.map (·.val)) = [1]) = true ∧
    gives (exec .fabricAck (fabricked (aReq 0))) (fun t => t.fabric = [] && (t.launches.map (·.2.open_)) = [0]) = true ∧
    gives (exec .fabricTimeout (fabricked (aReq 1 4000000))) (fun t => t.fabric = [] && (t.notices.map (·.val)) = [6]) = true ∧
    gives (exec .fabricTimeout (fabricked (aReq 1 3999999))) (fun t => t.fabric.length = 1) = true := by decide +kernel
end Sys2Proof.Tests
end

section
/-! SUPPORT. Control flow: the six branches (R107), the end check of a completed word (R109, R111) and LOOP (R109). -/

namespace Sys2Proof.Machine

/-! ### Branches (R107) -/

/-- What the branch `i` of the word `w`, taken to `t` where `c` holds, is and does in `s`. -/
def BranchMeans (s : State) (off : BitVec 13) (i : Instr) (w : BitVec 32) (c : Bool) (t : Word) : Prop :=
  (off.extractLsb' 0 2 = 0#2 → decode w = .ok i) ∧
  (c = false → Slots s i id) ∧
  (c = true → t.extractLsb' 47 17 = 0#17 → Runs i s (s.setCur (s.cur.complete (.jump (t.setWidth 48))))) ∧
  (c = true → t.extractLsb' 47 17 ≠ 0#17 → Faults s i { cause := causeIaddr, addr := some t })

theorem decode_encode_of_statement {i : Instr} (h : Laws.RoundTrip.Statement i) (h0 : encode i ≠ 0#32) (hw : i.wellFormed = true) :
    decode (encode i) = .ok i := by
  unfold Laws.RoundTrip.Statement at h
  rw [if_neg h0] at h
  exact h hw

theorem rWord_ne_zero {f7 : BitVec 7} {b a : BitVec 5} {f3 : BitVec 3} {d : BitVec 5} {op : BitVec 7} (h : op ≠ 0#7) :
    rWord f7 b a f3 d op ≠ 0#32 := by
  intro e
  have : fieldOp (rWord f7 b a f3 d op) = fieldOp 0#32 := congrArg fieldOp e
  rw [Laws.fieldOp_rWord] at this
  exact h this

theorem checkTarget_below {t : Word} (h : t.extractLsb' 47 17 = 0#17) (s : State) : checkTarget false t s = .ok () s := by
  simp [checkTarget, h]

theorem checkTarget_above {t : Word} (h : t.extractLsb' 47 17 ≠ 0#17) (s : State) :
    checkTarget false t s = .error (.fault { cause := causeIaddr, addr := some t }) s := by
  simp [checkTarget, h]

section Branch
variable {s : State} {a b : BitVec 5} {off : BitVec 13} {taken : Word → Word → Bool}

/-- A branch not taken looks at no target. -/
theorem branch_not_taken (h : taken (s.cur.getX a) (s.cur.getX b) = false) : branch a b off taken s = .ok .seq s := by
  simp [branch, h]

theorem branch_taken_below (h : taken (s.cur.getX a) (s.cur.getX b) = true)
    (ht : (s.cur.pc.zeroExtend 64 + off.signExtend 64 : Word).extractLsb' 47 17 = 0#17) :
    branch a b off taken s = .ok (.jump ((s.cur.pc.zeroExtend 64 + off.signExtend 64 : Word).setWidth 48)) s := by
  simp only [branch, bindM_apply, curM_apply, h, if_true, checkTarget_below ht, pureM_apply]

theorem branch_taken_above (h : taken (s.cur.getX a) (s.cur.getX b) = true)
    (ht : (s.cur.pc.zeroExtend 64 + off.signExtend 64 : Word).extractLsb' 47 17 ≠ 0#17) :
    branch a b off taken s =
      .error (.fault { cause := causeIaddr, addr := some (s.cur.pc.zeroExtend 64 + off.signExtend 64) }) s := by
  simp only [branch, bindM_apply, curM_apply, h, if_true, checkTarget_above ht]

/-- An instruction that runs as a branch and has its word means what R107 says. -/
theorem branchMeans_of_branch (hp : s.Plain) {i : Instr} {w : BitVec 32} {c : Bool}
    (hdec : off.extractLsb' 0 2 = 0#2 → decode w = .ok i) (hrun : exec i s = runSlot (branch a b off taken) s)
    (hc : taken (s.cur.getX a) (s.cur.getX b) = c) :
    BranchMeans s off i w c (s.cur.pc.zeroExtend 64 + off.signExtend 64) := by
  rw [runSlot_plain hp] at hrun
  refine ⟨hdec, fun h => ?_, fun h ht => ?_, fun h ht => ?_⟩
  · rw [branch_not_taken (hc.trans h)] at hrun
    exact hrun
  · rw [branch_taken_below (hc.trans h) ht] at hrun
    exact hrun
  · rw [branch_taken_above (hc.trans h) ht] at hrun
    exact hrun

end Branch

/-- The word of a branch of the B layout (R19). -/
def branchWord (a b : BitVec 5) (off : BitVec 13) (f3 : BitVec 3) : BitVec 32 :=
  rWord (off.extractLsb' 12 1 ++ off.extractLsb' 5 6) b a f3 (off.extractLsb' 1 4 ++ off.extractLsb' 11 1) 0x63#7

/-- An instruction whose word is `branchWord` and whose only range rule is an aligned offset is read back from that word. -/
theorem decode_branchWord {a b : BitVec 5} {off : BitVec 13} {i : Instr} {f3 : BitVec 3} (h : Laws.RoundTrip.Statement i)
    (he : encode i = branchWord a b off f3) (hw : i.wellFormed = (off.extractLsb' 0 2 == 0#2)) (ho : off.extractLsb' 0 2 = 0#2) :
    decode (branchWord a b off f3) = .ok i := by
  rw [← he]
  refine decode_encode_of_statement h ?_ ?_
  · rw [he]
    exact rWord_ne_zero (by decide)
  · simp [hw, ho]

theorem bne_eq_decide (x y : Word) : (x != y) = decide (x ≠ y) := by
  rw [bne, Bool.beq_eq_decide_eq, decide_not]

/-- Signed "not less" is "greater or equal". -/
theorem not_slt_eq_decide (x y : Word) : (!x.slt y) = decide (y.toInt ≤ x.toInt) :=
  BitVec.sle_eq_not_slt.symm

/-- Unsigned "not less" is "greater or equal". -/
theorem not_ult_eq_decide (x y : Word) : (!x.ult y) = decide (y.toNat ≤ x.toNat) :=
  (BitVec.ule_eq_not_ult y x).symm

/-- Settles O17: each of the six is the one `branch` with its own condition. -/
theorem branchForms : Obligations.BranchForms := by
  unfold Obligations.BranchForms
  intro s a b off hp x y t word e he
  change BranchMeans s off e.1 (branchWord a b off e.2.1) e.2.2 t
  simp only [List.mem_cons, List.not_mem_nil, or_false] at he
  rcases he with rfl | rfl | rfl | rfl | rfl | rfl
  · exact branchMeans_of_branch hp (decode_branchWord (Laws.RoundTrip.beq a b off) rfl rfl) rfl (Bool.beq_eq_decide_eq x y)
  · exact branchMeans_of_branch hp (decode_branchWord (Laws.RoundTrip.bne a b off) rfl rfl) rfl (bne_eq_decide x y)
  · exact branchMeans_of_branch hp (decode_branchWord (Laws.RoundTrip.blt a b off) rfl rfl) rfl rfl
  · exact branchMeans_of_branch hp (decode_branchWord (Laws.RoundTrip.bge a b off) rfl rfl) rfl (not_slt_eq_decide x y)
  · exact branchMeans_of_branch hp (decode_branchWord (Laws.RoundTrip.bltu a b off) rfl rfl) rfl rfl
  · exact branchMeans_of_branch hp (decode_branchWord (Laws.RoundTrip.bgeu a b off) rfl rfl) rfl (not_ult_eq_decide x y)

/-! ### The loop state of a slot (R32, R109) -/

theorem getLsbD_setBit_ne {n : Nat} (w : BitVec n) {i j : Nat} (b : Bool) (h : j ≠ i) : (setBit w i b).getLsbD j = w.getLsbD j := by
  have : (1#n <<< i).getLsbD j = false := by
    rw [BitVec.getLsbD_shiftLeft, BitVec.getLsbD_one]
    by_cases hji : j < i
    · simp [hji]
    · simp [show j - i ≠ 0 by omega]
  unfold setBit
  split
  · simp [this]
  · simpa [this] using BitVec.lt_of_getLsbD

/-- Marking one level changes no other level's mark. -/
theorem Slot.loopOn_setLoop_ne (t : Slot) {l m : Nat} (b : Bool) (h : m ≠ l) : (t.setLoop l b).loopOn m = t.loopOn m :=
  getLsbD_setBit_ne t.ss b (by omega)

/-- The marks of the levels lie above the format word in `ss` (R32). -/
@[simp] theorem Slot.setLoop_pfx (t : Slot) (l : Nat) (b : Bool) : (t.setLoop l b).pfx = t.pfx := by
  have hbit : ∀ j, j < 13 → (setBit t.ss (13 + l) b).getLsbD j = t.ss.getLsbD j := fun j hj => getLsbD_setBit_ne t.ss b (by omega)
  have hword : (setBit t.ss (13 + l) b).extractLsb' 1 12 = t.ss.extractLsb' 1 12 := by
    ext i hi
    simp only [BitVec.getElem_extractLsb', hbit (1 + i) (by omega)]
  simp only [Slot.pfx, Slot.setLoop, hbit 0 (by omega), hword]

/-- Consuming the format word leaves the marks of both levels. -/
theorem Slot.loopOn_setPfx_none (t : Slot) {l : Nat} (h : l < 2) : (t.setPfx none).loopOn l = t.loopOn l := by
  have hmask : (0xFFFE000#28).getLsbD (13 + l) = true := by
    have : l = 0 ∨ l = 1 := by omega
    rcases this with rfl | rfl <;> decide
  simp only [Slot.loopOn, Slot.setPfx, BitVec.getLsbD_and, hmask, Bool.and_true]

@[simp] theorem Slot.setPfx_none_pfx (t : Slot) : (t.setPfx none).pfx = none := by
  simp [Slot.pfx, Slot.setPfx]

/-! ### The end check (R109) -/

/-- The word at `w` ends the active level `l`. -/
def Slot.EndsAt (t : Slot) (l : Nat) (w : BitVec 48) : Prop := t.loopOn l = true ∧ t.leN l = w

/-- Level `l` loops: one trip less, back to its body start. -/
def Slot.nextTrip (t : Slot) (l : Nat) : Slot := { t.setLc l (t.lcN l - 1) with pc := t.lsN l }

/-- Level `l` is left after its last trip. -/
def Slot.lastTrip (t : Slot) (l : Nat) : Slot := (t.setLc l 0).setLoop l false

section EndLevel
variable {t : Slot} {l : Nat} {w : BitVec 48}

theorem endLevel_idle (h : ¬ t.EndsAt l w) : endLevel t l w = (t, false) := by
  have : (t.loopOn l && t.leN l == w) = false := by simpa [Slot.EndsAt] using h
  simp [endLevel, this]

theorem endLevel_nextTrip (h : t.EndsAt l w) (hc : 1 < (t.lcN l).toNat) : endLevel t l w = (t.nextTrip l, true) := by
  obtain ⟨hon, hle⟩ := h
  simp [endLevel, hon, hle, hc, Slot.nextTrip]

theorem endLevel_lastTrip (h : t.EndsAt l w) (hc : (t.lcN l).toNat ≤ 1) : endLevel t l w = (t.lastTrip l, false) := by
  obtain ⟨hon, hle⟩ := h
  simp [endLevel, hon, hle, Nat.not_lt.mpr hc, Slot.lastTrip]

/-- What one level of the end check can do. -/
theorem endLevel_cases (t : Slot) (l : Nat) (w : BitVec 48) :
    endLevel t l w = (t, false) ∨ endLevel t l w = (t.nextTrip l, true) ∨ endLevel t l w = (t.lastTrip l, false) := by
  by_cases h : t.EndsAt l w
  · by_cases hc : 1 < (t.lcN l).toNat
    · exact .inr (.inl (endLevel_nextTrip h hc))
    · exact .inr (.inr (endLevel_lastTrip h (Nat.not_lt.mp hc)))
  · exact .inl (endLevel_idle h)

theorem endCheck_inner_again (h : t.EndsAt 1 w) (hc : 1 < (t.lcN 1).toNat) : endCheck t w = t.nextTrip 1 := by
  simp [endCheck, endLevel_nextTrip h hc]

theorem endCheck_inner_last (h : t.EndsAt 1 w) (hc : (t.lcN 1).toNat ≤ 1) : endCheck t w = (endLevel (t.lastTrip 1) 0 w).1 := by
  simp [endCheck, endLevel_lastTrip h hc]

theorem endCheck_inner_idle (h : ¬ t.EndsAt 1 w) : endCheck t w = (endLevel t 0 w).1 := by
  simp [endCheck, endLevel_idle h]

end EndLevel

/-- Leaving level 1 leaves the end of level 0 as it was. -/
theorem Slot.lastTrip_endsAt (t : Slot) (w : BitVec 48) : (t.lastTrip 1).EndsAt 0 w ↔ t.EndsAt 0 w := by
  have hon : (t.lastTrip 1).loopOn 0 = t.loopOn 0 := Slot.loopOn_setLoop_ne (t.setLc 1 0) false (by decide)
  have hle : (t.lastTrip 1).leN 0 = t.leN 0 := rfl
  rw [Slot.EndsAt, Slot.EndsAt, hon, hle]

/-! ### What a completed word changes (R109, R111) -/

/-- `u` is `t` but for the PC, the loop counts and `ss`. -/
def Slot.LoopFrame (t u : Slot) : Prop := u = { t with pc := u.pc, lc := u.lc, ss := u.ss }

theorem Slot.LoopFrame.trans {t u v : Slot} (h1 : t.LoopFrame u) (h2 : u.LoopFrame v) : t.LoopFrame v := by
  unfold Slot.LoopFrame at *
  rw [h2, h1]

theorem endLevel_frame (t : Slot) (l : Nat) (w : BitVec 48) : t.LoopFrame (endLevel t l w).1 := by
  rcases endLevel_cases t l w with h | h | h <;> rw [h] <;> rfl

theorem endLevel_pfx (t : Slot) (l : Nat) (w : BitVec 48) : (endLevel t l w).1.pfx = t.pfx := by
  rcases endLevel_cases t l w with h | h | h <;> rw [h]
  · rfl
  · exact Slot.setLoop_pfx (t.setLc l 0) l false

/-- The end check is one level, or one level after another. -/
theorem endCheck_eq (t : Slot) (w : BitVec 48) :
    endCheck t w = (endLevel t 1 w).1 ∨ endCheck t w = (endLevel (endLevel t 1 w).1 0 w).1 := by
  unfold endCheck
  cases h : (endLevel t 1 w).2
  · right; simp [h]
  · left; simp [h]

theorem endCheck_frame (t : Slot) (w : BitVec 48) : t.LoopFrame (endCheck t w) := by
  rcases endCheck_eq t w with h | h <;> rw [h]
  · exact endLevel_frame t 1 w
  · exact (endLevel_frame t 1 w).trans (endLevel_frame _ 0 w)

theorem endCheck_pfx (t : Slot) (w : BitVec 48) : (endCheck t w).pfx = t.pfx := by
  rcases endCheck_eq t w with h | h <;> rw [h]
  · exact endLevel_pfx t 1 w
  · exact (endLevel_pfx _ 0 w).trans (endLevel_pfx t 1 w)

/-- The slot at the next word, its format word consumed. -/
def Slot.nextWord (t : Slot) : Slot := { t.setPfx none with pc := t.pc + 4 }

theorem Slot.complete_seq (t : Slot) : t.complete .seq = endCheck t.nextWord t.pc := rfl

theorem Slot.nextWord_endsAt (t : Slot) {l : Nat} (h : l < 2) (w : BitVec 48) : t.nextWord.EndsAt l w ↔ t.EndsAt l w := by
  have hon : t.nextWord.loopOn l = t.loopOn l := Slot.loopOn_setPfx_none t h
  have hle : t.nextWord.leN l = t.leN l := rfl
  rw [Slot.EndsAt, Slot.EndsAt, hon, hle]

theorem Slot.complete_seq_pfx (t : Slot) : (t.complete .seq).pfx = none := by
  rw [Slot.complete_seq, endCheck_pfx]
  exact Slot.setPfx_none_pfx t

theorem Slot.complete_seq_frame (t : Slot) : t.LoopFrame (t.complete .seq) := by
  have hnext : t.LoopFrame t.nextWord := rfl
  exact hnext.trans (endCheck_frame t.nextWord t.pc)

section Complete
variable {t : Slot}

theorem Slot.complete_seq_inner_again (h1 : t.EndsAt 1 t.pc) (c1 : 1 < (t.lcN 1).toNat) : t.complete .seq = t.nextWord.nextTrip 1 :=
  endCheck_inner_again ((t.nextWord_endsAt (by decide) _).mpr h1) c1

/-- Where the word ends level 1 on its last trip, level 0 is checked next. -/
theorem Slot.complete_seq_inner_last (h1 : t.EndsAt 1 t.pc) (c1 : (t.lcN 1).toNat ≤ 1) :
    t.complete .seq = (endLevel (t.nextWord.lastTrip 1) 0 t.pc).1 :=
  endCheck_inner_last ((t.nextWord_endsAt (by decide) _).mpr h1) c1

/-- Where the word does not end level 1, level 0 is checked. -/
theorem Slot.complete_seq_inner_idle (h1 : ¬ t.EndsAt 1 t.pc) : t.complete .seq = (endLevel t.nextWord 0 t.pc).1 :=
  endCheck_inner_idle (mt (t.nextWord_endsAt (by decide) _).mp h1)

end Complete

/-- The three outcomes of level 0 at the word `w` of a slot `u` that has the end and the count of level 0 of `t`. -/
theorem outer_cases {t u : Slot} {w : BitVec 48} (he : u.EndsAt 0 w ↔ t.EndsAt 0 w) (hc : u.lcN 0 = t.lcN 0) :
    (t.EndsAt 0 w → 1 < (t.lcN 0).toNat → (endLevel u 0 w).1 = u.nextTrip 0) ∧
    (t.EndsAt 0 w → (t.lcN 0).toNat ≤ 1 → (endLevel u 0 w).1 = u.lastTrip 0) ∧
    (¬ t.EndsAt 0 w → (endLevel u 0 w).1 = u) := by
  rw [← he, ← hc]
  refine ⟨fun h c => ?_, fun h c => ?_, fun h => ?_⟩
  · rw [endLevel_nextTrip h c]
  · rw [endLevel_lastTrip h c]
  · rw [endLevel_idle h]

/-! ### LOOP (R109) -/

/-- The last word of the body of `n` words behind the LOOP of a slot. -/
def Slot.bodyEnd (t : Slot) (n : BitVec 12) : BitVec 48 := t.pc + 4 * n.zeroExtend 48

/-- LOOP is illegal: its level is active, or it is level 0 inside a level-1 body, or level 1 past the end of the level-0 body. -/
def Slot.loopBad (t : Slot) (l : BitVec 1) (n : BitVec 12) : Bool :=
  t.loopOn l.toNat || (decide (l.toNat = 0) && t.loopOn 1) ||
    (decide (l.toNat = 1) && t.loopOn 0 && decide ((t.leN 0).toNat < (t.bodyEnd n).toNat))

/-- The entry of a level with its count, body start and last word. -/
def Slot.enterLoop (t : Slot) (l : Nat) (count : Word) (e : BitVec 48) : Slot :=
  (((t.setLc l count).setLs l (t.pc + 4)).setLe l e).setLoop l true

/-- The two levels by their field. -/
theorem level_toNat_eq (l : BitVec 1) : decide (l.toNat = 0) = decide (l = 0#1) ∧ decide (l.toNat = 1) = decide (l = 1#1) := by
  revert l
  decide

/-- Bits [31:0] of the count register, [63:32] ignored. -/
theorem tripCount_eq (x : Word) : x &&& 0xFFFFFFFF#64 = BitVec.ofNat 64 (x.toNat % 2 ^ 32) := by
  apply BitVec.eq_of_toNat_eq
  have hmask : x.toNat &&& (2 ^ 32 - 1) = x.toNat % 2 ^ 32 := Nat.and_two_pow_sub_one_eq_mod _ _
  have hlt : x.toNat % 2 ^ 32 < 2 ^ 64 := by omega
  rw [BitVec.toNat_and, BitVec.toNat_ofNat, BitVec.toNat_ofNat, Nat.mod_eq_of_lt hlt]
  exact hmask

theorem tripCount_eq_zero_iff (x : Word) : x &&& 0xFFFFFFFF#64 = 0#64 ↔ x.toNat % 2 ^ 32 = 0 := by
  have hlt : x.toNat % 2 ^ 32 < 2 ^ 64 := by omega
  rw [tripCount_eq, ← BitVec.toNat_inj, BitVec.toNat_ofNat, Nat.mod_eq_of_lt hlt]
  rfl

section Loop
variable {s : State} {l : BitVec 1} {a : BitVec 5} {n : BitVec 12}

/-- Any of the three checks stops LOOP before it changes anything. -/
theorem loop_illegal (hp : s.Plain) (h : s.cur.loopBad l n = true) : Illegal s (.loop l a n) := by
  change execLoop l a n s = _
  unfold Slot.loopBad Slot.bodyEnd at h
  simp only [Bool.or_eq_true] at h
  rw [execLoop, runSlot_plain hp]
  simp only [bindM_apply, curM_apply]
  by_cases h1 : s.cur.loopOn l.toNat = true
  · simp only [h1, if_true, bindM_apply, throwM_apply, finishM_error]
  by_cases h2 : (decide (l.toNat = 0) && s.cur.loopOn 1) = true
  · simp only [h1, h2, if_true, bindM_apply, throwM_apply, finishM_error, Bool.false_eq_true, if_false]
  · have h3 := h.resolve_left (not_or.mpr ⟨h1, h2⟩)
    simp only [h1, h2, h3, if_true, bindM_apply, throwM_apply, finishM_error, Bool.false_eq_true, if_false]

/-- A legal LOOP skips its body where the count is 0, and enters its level elsewhere. -/
theorem loop_legal (hp : s.Plain) (h : s.cur.loopBad l n = false) :
    exec (.loop l a n) s = .next (finishM s.core s.slot (
      if s.cur.getX a &&& 0xFFFFFFFF#64 = 0#64 then .ok (.skip (s.cur.bodyEnd n)) s
      else .ok .seq (s.setCur (s.cur.enterLoop l.toNat (s.cur.getX a &&& 0xFFFFFFFF#64) (s.cur.bodyEnd n))))) := by
  change execLoop l a n s = _
  unfold Slot.loopBad Slot.bodyEnd at h
  simp only [Bool.or_eq_false_iff] at h
  obtain ⟨⟨h1, h2⟩, h3⟩ := h
  rw [execLoop, runSlot_plain hp]
  simp only [bindM_apply, curM_apply, h1, h2, h3, Bool.false_eq_true, if_false]
  split <;> rfl

/-- A body of no trips is skipped as if its last word had completed. -/
theorem loop_skip (hp : s.Plain) (h : s.cur.loopBad l n = false) (hc : (s.cur.getX a).toNat % 2 ^ 32 = 0) :
    Runs (.loop l a n) s (s.setCur (({ s.cur with pc := s.cur.bodyEnd n } : Slot).complete .seq)) := by
  rw [Runs, loop_legal hp h, if_pos ((tripCount_eq_zero_iff _).mpr hc)]
  rfl

theorem loop_enter (hp : s.Plain) (h : s.cur.loopBad l n = false) (hc : (s.cur.getX a).toNat % 2 ^ 32 ≠ 0) :
    Slots s (.loop l a n) fun t =>
      t.enterLoop l.toNat (BitVec.ofNat 64 ((s.cur.getX a).toNat % 2 ^ 32)) (s.cur.bodyEnd n) := by
  rw [Slots, Runs, loop_legal hp h, if_neg (mt (tripCount_eq_zero_iff _).mp hc), tripCount_eq]
  simp only [finishM_ok, State.completed, State.setCur, State.slotAt_setSlot, State.setSlot_setSlot]

end Loop

/-- Settles O7: the end check of a completed word by its two levels, and LOOP by its three outcomes. -/
theorem hardwareLoops : Obligations.HardwareLoops := by
  unfold Obligations.HardwareLoops
  refine ⟨fun t => ?_, fun s l a n hp => ?_⟩
  · refine ⟨t.complete_seq_pfx, Slot.complete_seq_inner_again, fun h1 c1 => ?_, fun h1 => ?_, t.complete_seq_frame⟩
    · rw [Slot.complete_seq_inner_last h1 c1]
      exact outer_cases ((Slot.lastTrip_endsAt _ _).trans (t.nextWord_endsAt (by decide) _)) rfl
    · rw [Slot.complete_seq_inner_idle h1]
      exact outer_cases (t.nextWord_endsAt (by decide) _) rfl
  · intro t e count bad
    have hbad : bad = s.cur.loopBad l n := by
      obtain ⟨h0, h1⟩ := level_toNat_eq l
      rw [Slot.loopBad, h0, h1]
      rfl
    rw [hbad]
    exact ⟨loop_illegal hp, loop_skip hp, loop_enter hp⟩

end Sys2Proof.Machine
end

section
/-! SUPPORT. A form that changes one x register and the flags (R30, R119): what it leaves once its word is completed, and the word it is read from. -/

namespace Sys2Proof.Machine

/-! ### The x registers and the flags take no part in the end check (R109) -/

/-- The slot with other x registers and other flags. -/
def Slot.withRegs (t : Slot) (x : List (Nat × Word)) (ff : BitVec 8) : Slot := { t with x := x, ff := ff }

section WithRegs
variable (t : Slot) (x : List (Nat × Word)) (ff : BitVec 8)

theorem endLevel_withRegs (l : Nat) (w : BitVec 48) :
    endLevel (t.withRegs x ff) l w = ((endLevel t l w).1.withRegs x ff, (endLevel t l w).2) := by
  by_cases h : t.EndsAt l w
  · by_cases hc : 1 < (t.lcN l).toNat
    · rw [endLevel_nextTrip h hc]
      exact endLevel_nextTrip (t := t.withRegs x ff) h hc
    · rw [endLevel_lastTrip h (Nat.not_lt.mp hc)]
      exact endLevel_lastTrip (t := t.withRegs x ff) h (Nat.not_lt.mp hc)
  · rw [endLevel_idle h]
    exact endLevel_idle (t := t.withRegs x ff) h

theorem endCheck_withRegs (w : BitVec 48) : endCheck (t.withRegs x ff) w = (endCheck t w).withRegs x ff := by
  simp only [endCheck, endLevel_withRegs]
  split <;> rfl

/-- Completing a word does the same whatever the x registers and the flags hold. -/
theorem Slot.complete_withRegs : (t.withRegs x ff).complete .seq = (t.complete .seq).withRegs x ff :=
  endCheck_withRegs t.nextWord x ff t.pc

end WithRegs

/-! ### One x register and the flags written (R119) -/

theorem Slot.setFlagged_eq_withRegs (t : Slot) (d : BitVec 5) (v : Word) (f : FpFlags) :
    t.setFlagged d v f = t.withRegs (t.setX d v).x (ffRaise t.ff f) := by
  unfold Slot.setFlagged Slot.setX
  split <;> rfl

@[simp] theorem ffRaise_zero (ff : BitVec 8) : ffRaise ff 0#5 = ff := by
  simp [ffRaise]

/-- A register written with no flag raised. -/
theorem Slot.setFlagged_zero (t : Slot) (d : BitVec 5) (v : Word) : t.setFlagged d v 0#5 = t.setX d v := by
  unfold Slot.setFlagged Slot.setX
  split <;> simp

theorem Slot.setF_eq_setFlagged (t : Slot) (d : BitVec 5) (r : Lane × FpFlags) :
    t.setF d r = t.setFlagged d (r.1.zeroExtend 64) r.2 := rfl

/-- The written slot once its word is completed: nothing but the register and the flags differ from a word that writes none. -/
theorem Slot.complete_setFlagged (t : Slot) (d : BitVec 5) (v : Word) (f : FpFlags) :
    (t.setFlagged d v f).complete .seq = (t.complete .seq).withRegs (t.setX d v).x (ffRaise t.ff f) := by
  rw [Slot.setFlagged_eq_withRegs, Slot.complete_withRegs]

/-- The slot in focus written and its word completed is what `Wrote` says. -/
theorem wrote_complete_setFlagged (s : State) (d : BitVec 5) (v : Word) (f : FpFlags) :
    Wrote s (s.setCur ((s.cur.setFlagged d v f).complete .seq)) d v f := by
  have hcur : (s.setCur ((s.cur.setFlagged d v f).complete .seq)).cur =
      (s.cur.complete .seq).withRegs (s.cur.setX d v).x (ffRaise s.cur.ff f) := by
    rw [State.setCur_cur, Slot.complete_setFlagged]
  have hget : ∀ r, (s.setCur ((s.cur.setFlagged d v f).complete .seq)).cur.getX r = (s.cur.setX d v).getX r := by
    intro r
    rw [hcur]
    rfl
  refine { only := ?_, slot := ?_, dest := ?_, rest := fun r hr => ?_, flags := ?_ }
  · rw [State.setCur_cur]
  · rw [hcur]
    rfl
  · rw [hget, Slot.getX_setX]
    by_cases hd : d = 0#5 <;> simp [hd]
  · rw [hget, Slot.getX_setX, if_neg fun h => hr h.1]
  · rw [hcur]
    rfl

section Forms
variable {s : State} {i : Instr} {d a b : BitVec 5} {v : Word} {f : FpFlags} {g : Slot → Slot}

/-- A register-only instruction that writes x[d] and raises flags. -/
theorem writes_of_slotOp (hp : s.Plain) (hrun : exec i s = runSlot (slotOp g) s) (hg : g s.cur = s.cur.setFlagged d v f) :
    Writes s i d v f := by
  refine ⟨_, hrun.trans (runSlot_slotOp hp g), ?_⟩
  rw [hg]
  exact wrote_complete_setFlagged s d v f

/-- A register-only instruction that writes x[d] and raises no flag. -/
theorem writes_of_setX (hp : s.Plain) (hrun : exec i s = runSlot (slotOp g) s) (hg : g s.cur = s.cur.setX d v) : Writes s i d v :=
  writes_of_slotOp hp hrun (hg.trans (s.cur.setFlagged_zero d v).symm)

theorem writes_of_unary {op : Word → Word} (hp : s.Plain) (hrun : exec i s = runSlot (unary d a op) s)
    (hv : op (s.cur.getX a) = v) : Writes s i d v :=
  writes_of_setX hp hrun (congrArg (s.cur.setX d) hv)

theorem writes_of_binary {op : Word → Word → Word} (hp : s.Plain) (hrun : exec i s = runSlot (binary d a b op) s)
    (hv : op (s.cur.getX a) (s.cur.getX b) = v) : Writes s i d v :=
  writes_of_setX hp hrun (congrArg (s.cur.setX d) hv)

end Forms

/-! ### The words of the forms (R19, R22) -/

section Words
variable {f7 : BitVec 7} {b a : BitVec 5} {f3 : BitVec 3} {d : BitVec 5} {op : BitVec 7}

/-- An instruction with no range rule is read back from the word it encodes to. -/
theorem decode_of_encode {i : Instr} {w : BitVec 32} (h : Laws.RoundTrip.Statement i) (he : encode i = w) (hw : i.wellFormed = true)
    (h0 : w ≠ 0#32 := by decide) : decode w = .ok i := by
  subst he
  exact decode_encode_of_statement h h0 hw

theorem decode_rWord_of_encode {i : Instr} (h : Laws.RoundTrip.Statement i) (he : encode i = rWord f7 b a f3 d op)
    (hw : i.wellFormed = true) (hop : op ≠ 0#7 := by decide) : decode (rWord f7 b a f3 d op) = .ok i :=
  decode_of_encode h he hw (rWord_ne_zero hop)

theorem decode_rWord (f7 : BitVec 7) (b a : BitVec 5) (f3 : BitVec 3) (d : BitVec 5) (op : BitVec 7) :
    decode (rWord f7 b a f3 d op) = Sys2Proof.checkRange (decodeFields f7 b a f3 d op) := by
  simp [decode]

/-- A word whose fields are refused is no instruction. -/
theorem decode_rWord_ne_ok {e : DecodeError} (h : decodeFields f7 b a f3 d op = .error e) (i : Instr) :
    decode (rWord f7 b a f3 d op) ≠ .ok i := by
  simp [decode_rWord, h, Sys2Proof.checkRange]

end Words

/-! ### A form by its word and what it writes -/

section WordForms
variable {s : State} {i : Instr} {d a b r : BitVec 5} {v : Word} {f7 : BitVec 7} {f3 : BitVec 3} {op : BitVec 7}

/-- A form with one x register as source; the field `r` of its word holds no register. -/
theorem unaryForm {f : Word → Word} (hp : s.Plain) (h : Laws.RoundTrip.Statement i) (he : encode i = rWord f7 r a f3 d op)
    (hw : i.wellFormed = true) (hrun : exec i s = runSlot (unary d a f) s) (hv : f (s.cur.getX a) = v) (hop : op ≠ 0#7 := by decide) :
    decode (rWord f7 r a f3 d op) = .ok i ∧ Writes s i d v :=
  ⟨decode_rWord_of_encode h he hw hop, writes_of_unary hp hrun hv⟩

/-- A form with two x registers as sources. -/
theorem binaryForm {f : Word → Word → Word} (hp : s.Plain) (h : Laws.RoundTrip.Statement i) (he : encode i = rWord f7 b a f3 d op)
    (hw : i.wellFormed = true) (hrun : exec i s = runSlot (binary d a b f) s) (hv : f (s.cur.getX a) (s.cur.getX b) = v)
    (hop : op ≠ 0#7 := by decide) : decode (rWord f7 b a f3 d op) = .ok i ∧ Writes s i d v :=
  ⟨decode_rWord_of_encode h he hw hop, writes_of_binary hp hrun hv⟩

end WordForms

end Sys2Proof.Machine
end

section
/-! SUPPORT. The OP-IMM and OP forms, LUI and AUIPC (R105, R120, R121): the word of each and the value it writes. -/

namespace Sys2Proof.Machine

/-! ### Words of the model and values of the rules -/

theorem boolWord_slt (x y : Word) : boolWord (x.slt y) = if x.toInt < y.toInt then 1 else 0 := by
  simp [boolWord, BitVec.slt_eq_decide]

theorem boolWord_ult (x y : Word) : boolWord (x.ult y) = if x.toNat < y.toNat then 1 else 0 := by
  simp [boolWord, BitVec.ult_eq_decide]

/-- A shift takes bits [5:0] of its register. -/
theorem shamt_eq (y : Word) : shamt y = y.toNat % 64 :=
  BitVec.extractLsb'_toNat 0 6 y

/-- A rotate by less than the width is a shift each way. -/
theorem rotateRight_eq (x : Word) {n : Nat} (h : n < 64) : x.rotateRight n = (x >>> n) ||| (x <<< (64 - n)) :=
  BitVec.rotateRight_eq_rotateRightAux_of_lt h

/-! ### OP-IMM, LUI and AUIPC -/

section OpImm
variable {d a : BitVec 5} {sh : BitVec 6}

/-- funct3 001 is SLLI alone. -/
theorem decode_shiftLeft_ne_ok {hi : BitVec 6} (h : hi ≠ 0#6) (i : Instr) :
    decode (rWord (hi ++ sh.extractLsb' 5 1) (sh.extractLsb' 0 5) a 1#3 d 0x13#7) ≠ .ok i := by
  refine decode_rWord_ne_ok (e := .selector) ?_ i
  simp [decodeFields, decodeOpImm, h]

/-- funct3 101 is SRLI, SRAI and RORI alone. -/
theorem decode_shiftRight_ne_ok {hi : BitVec 6} (h0 : hi ≠ 0#6) (h16 : hi ≠ 16#6) (h24 : hi ≠ 24#6) (i : Instr) :
    decode (rWord (hi ++ sh.extractLsb' 5 1) (sh.extractLsb' 0 5) a 5#3 d 0x13#7) ≠ .ok i := by
  refine decode_rWord_ne_ok (e := .selector) ?_ i
  simp [decodeFields, decodeOpImm, h0, h16, h24]

end OpImm

/-- Settles O8: each form by its word and the value the model's operator has in the terms of the rule. -/
theorem immediateForms : Obligations.ImmediateForms := by
  unfold Obligations.ImmediateForms
  refine ⟨fun s d a imm sh hi hp => ?_, fun s d imm hp => ?_⟩
  · intro x v word shift
    refine ⟨?addi, ?slti, ?sltiu, ?xori, ?ori, ?andi, ?slli, ?srli, ?srai, ?rori, decode_shiftLeft_ne_ok, decode_shiftRight_ne_ok⟩
    case addi => exact unaryForm hp (Laws.RoundTrip.addi d a imm) rfl rfl rfl rfl
    case slti => exact unaryForm hp (Laws.RoundTrip.slti d a imm) rfl rfl rfl (boolWord_slt x v)
    case sltiu => exact unaryForm hp (Laws.RoundTrip.sltiu d a imm) rfl rfl rfl (boolWord_ult x v)
    case xori => exact unaryForm hp (Laws.RoundTrip.xori d a imm) rfl rfl rfl rfl
    case ori => exact unaryForm hp (Laws.RoundTrip.ori d a imm) rfl rfl rfl rfl
    case andi => exact unaryForm hp (Laws.RoundTrip.andi d a imm) rfl rfl rfl rfl
    case slli => exact unaryForm hp (Laws.RoundTrip.slli d a sh) rfl rfl rfl rfl
    case srli => exact unaryForm hp (Laws.RoundTrip.srli d a sh) rfl rfl rfl rfl
    case srai => exact unaryForm hp (Laws.RoundTrip.srai d a sh) rfl rfl rfl rfl
    case rori => exact unaryForm hp (Laws.RoundTrip.rori d a sh) rfl rfl rfl (rotateRight_eq x sh.isLt)
  · exact ⟨⟨decode_rWord_of_encode (Laws.RoundTrip.lui d imm) rfl rfl, writes_of_setX hp rfl rfl⟩,
      ⟨decode_rWord_of_encode (Laws.RoundTrip.auipc d imm) rfl rfl, writes_of_setX hp rfl rfl⟩⟩

/-! ### OP -/

/-- Settles O9: each form by its word and the value the model's operator has in the terms of the rule. -/
theorem opForms : Obligations.OpForms := by
  unfold Obligations.OpForms
  intro s d a b hp x y sh word
  have hsh : shamt y = sh := shamt_eq y
  refine ⟨?add, ?sub, ?sll, ?slt, ?sltu, ?xor, ?srl, ?sra, ?or, ?and⟩
  case add => exact binaryForm hp (Laws.RoundTrip.add d a b) rfl rfl rfl rfl
  case sub => exact binaryForm hp (Laws.RoundTrip.sub d a b) rfl rfl rfl rfl
  case sll => exact binaryForm hp (Laws.RoundTrip.sll d a b) rfl rfl rfl (congrArg (x <<< ·) hsh)
  case slt => exact binaryForm hp (Laws.RoundTrip.slt d a b) rfl rfl rfl (boolWord_slt x y)
  case sltu => exact binaryForm hp (Laws.RoundTrip.sltu d a b) rfl rfl rfl (boolWord_ult x y)
  case xor => exact binaryForm hp (Laws.RoundTrip.xor d a b) rfl rfl rfl rfl
  case srl => exact binaryForm hp (Laws.RoundTrip.srl d a b) rfl rfl rfl (congrArg (x >>> ·) hsh)
  case sra => exact binaryForm hp (Laws.RoundTrip.sra d a b) rfl rfl rfl (congrArg x.sshiftRight hsh)
  case or => exact binaryForm hp (Laws.RoundTrip.or d a b) rfl rfl rfl rfl
  case and => exact binaryForm hp (Laws.RoundTrip.and d a b) rfl rfl rfl rfl

end Sys2Proof.Machine
end

section
/-! SUPPORT. The multiply and divide forms with their corners (R122). -/

namespace Sys2Proof.Machine

/-! ### Products -/

/-- The upper half of a whole number of 128 bits. -/
theorem extractHigh_ofInt (n : Int) : (BitVec.ofInt 128 n).extractLsb' 64 64 = BitVec.ofInt 64 (n / 2 ^ 64) := by
  apply BitVec.eq_of_toNat_eq
  simp only [BitVec.extractLsb'_toNat, BitVec.toNat_ofInt, Nat.shiftRight_eq_div_pow]
  omega

theorem extractHigh_ofNat (n : Nat) : (BitVec.ofNat 128 n).extractLsb' 64 64 = BitVec.ofNat 64 (n / 2 ^ 64) := by
  apply BitVec.eq_of_toNat_eq
  simp only [BitVec.extractLsb'_toNat, BitVec.toNat_ofNat, Nat.shiftRight_eq_div_pow]
  omega

theorem mul_eq_ofNat (x y : Word) : x * y = BitVec.ofNat 64 (x.toNat * y.toNat) := by
  rw [BitVec.ofNat_mul, BitVec.ofNat_toNat, BitVec.ofNat_toNat, BitVec.setWidth_eq, BitVec.setWidth_eq]

/-- MULH is the upper half of the product of the sign-extended sources. -/
theorem mulHigh_eq (x y : Word) : mulHigh x y = (x.signExtend 128 * y.signExtend 128).extractLsb' 64 64 := by
  have hprod : x.signExtend 128 * y.signExtend 128 = BitVec.ofInt 128 (x.toInt * y.toInt) := (BitVec.ofInt_mul _ _).symm
  rw [hprod, extractHigh_ofInt]
  rfl

/-- MULHU is the upper half of the product of the zero-extended sources. -/
theorem mulHighU_eq (x y : Word) : mulHighU x y = (x.zeroExtend 128 * y.zeroExtend 128).extractLsb' 64 64 := by
  have hprod : x.zeroExtend 128 * y.zeroExtend 128 = BitVec.ofNat 128 (x.toNat * y.toNat) := by
    rw [BitVec.ofNat_mul, BitVec.ofNat_toNat, BitVec.ofNat_toNat]
  rw [hprod, extractHigh_ofNat]
  rfl

/-! ### Quotients and remainders -/

/-- The quotient truncates toward zero; that of MIN by -1 wraps. -/
theorem sdiv_eq_ofInt (x y : Word) : x.sdiv y = BitVec.ofInt 64 (x.toInt.tdiv y.toInt) := by
  apply BitVec.eq_of_toInt_eq
  rw [BitVec.toInt_sdiv, BitVec.toInt_ofInt]

theorem srem_eq_ofInt (x y : Word) : x.srem y = BitVec.ofInt 64 (x.toInt - y.toInt * x.toInt.tdiv y.toInt) := by
  rw [← Int.tmod_def, ← BitVec.toInt_srem, BitVec.ofInt_toInt]

theorem udiv_eq_ofNat (x y : Word) : x.udiv y = BitVec.ofNat 64 (x.toNat / y.toNat) :=
  BitVec.udiv_def

theorem umod_eq_ofNat (x y : Word) : x.umod y = BitVec.ofNat 64 (x.toNat - y.toNat * (x.toNat / y.toNat)) := by
  rw [← Nat.mod_def]
  exact BitVec.umod_def

/-- DIV with both corners: a zero divisor, and MIN by -1. -/
theorem divWord_eq (x y : Word) : divWord x y = if y = 0#64 then 0xFFFFFFFFFFFFFFFF#64
    else if x = 0x8000000000000000#64 ∧ y = 0xFFFFFFFFFFFFFFFF#64 then 0x8000000000000000#64
    else BitVec.ofInt 64 (x.toInt.tdiv y.toInt) := by
  unfold divWord
  by_cases hy : y = 0#64
  · simp [hy]
  · rw [if_neg hy, if_neg hy]
    split
    case isTrue h =>
      obtain ⟨rfl, rfl⟩ := h
      decide
    case isFalse => exact sdiv_eq_ofInt x y

/-- REM with both corners. -/
theorem remWord_eq (x y : Word) : remWord x y = if y = 0#64 then x
    else if x = 0x8000000000000000#64 ∧ y = 0xFFFFFFFFFFFFFFFF#64 then 0
    else BitVec.ofInt 64 (x.toInt - y.toInt * x.toInt.tdiv y.toInt) := by
  unfold remWord
  by_cases hy : y = 0#64
  · simp [hy]
  · rw [if_neg hy, if_neg hy]
    split
    case isTrue h =>
      obtain ⟨rfl, rfl⟩ := h
      decide
    case isFalse => exact srem_eq_ofInt x y

theorem divWordU_eq (x y : Word) : divWordU x y = if y = 0#64 then 0xFFFFFFFFFFFFFFFF#64 else BitVec.ofNat 64 (x.toNat / y.toNat) := by
  rw [divWordU, udiv_eq_ofNat]

theorem remWordU_eq (x y : Word) :
    remWordU x y = if y = 0#64 then x else BitVec.ofNat 64 (x.toNat - y.toNat * (x.toNat / y.toNat)) := by
  rw [remWordU, umod_eq_ofNat]

/-- funct3 010 under funct7 0000001 is unassigned. -/
theorem decode_mulDiv2_ne_ok (d a b : BitVec 5) (i : Instr) : decode (rWord 1#7 b a 2#3 d 0x33#7) ≠ .ok i := by
  refine decode_rWord_ne_ok (e := .selector) ?_ i
  simp [decodeFields, decodeOp]

/-- Settles O10: each form by its word and the value the model's operator has in the terms of the rule. -/
theorem mulDivForms : Obligations.MulDivForms := by
  unfold Obligations.MulDivForms
  intro s d a b hp x y ones min word
  refine ⟨?mul, ?mulh, ?mulhu, ?div, ?divu, ?rem, ?remu, decode_mulDiv2_ne_ok d a b⟩
  case mul => exact binaryForm hp (Laws.RoundTrip.mul d a b) rfl rfl rfl (mul_eq_ofNat x y)
  case mulh => exact binaryForm hp (Laws.RoundTrip.mulh d a b) rfl rfl rfl (mulHigh_eq x y)
  case mulhu => exact binaryForm hp (Laws.RoundTrip.mulhu d a b) rfl rfl rfl (mulHighU_eq x y)
  case div => exact binaryForm hp (Laws.RoundTrip.div d a b) rfl rfl rfl (divWord_eq x y)
  case divu => exact binaryForm hp (Laws.RoundTrip.divu d a b) rfl rfl rfl (divWordU_eq x y)
  case rem => exact binaryForm hp (Laws.RoundTrip.rem d a b) rfl rfl rfl (remWord_eq x y)
  case remu => exact binaryForm hp (Laws.RoundTrip.remu d a b) rfl rfl rfl (remWordU_eq x y)

end Sys2Proof.Machine
end

section
/-! SUPPORT. The bit forms (R123): the carry-less product, the counts, and the bytes reversed. -/

namespace Sys2Proof.Machine

/-! ### The carry-less product -/

/-- The product over the bits of `y` below `n`, by the loop of R123. -/
def clmulLoop (x y : Word) (n : Nat) : BitVec 128 :=
  (List.range n).foldl (fun (p : BitVec 128) i => if y.getLsbD i then p ^^^ (x.zeroExtend 128 <<< i) else p) 0#128

theorem clmulGo_eq_loop (x y : Word) (n : Nat) : clmulGo x y n = clmulLoop x y n := by
  induction n with
  | zero => rfl
  | succ n ih =>
    rw [clmulGo, ih, clmulLoop, clmulLoop, List.range_succ, List.foldl_append]
    cases h : y.getLsbD n <;> simp [h]

theorem clmul128_eq_loop (x y : Word) : clmul128 x y = clmulLoop x y 64 :=
  clmulGo_eq_loop x y 64

/-! ### The counts -/

theorem clzGo_le (x : Word) (n : Nat) : clzGo x n ≤ n := by
  induction n with
  | zero => exact Nat.le_refl 0
  | succ n ih =>
    unfold clzGo
    split <;> omega

/-- The bits counted from the top of the low `n` are zero. -/
theorem clzGo_zeros (x : Word) {n i : Nat} (hi : i < n) (h : n - clzGo x n ≤ i) : x.getLsbD i = false := by
  induction n with
  | zero => omega
  | succ n ih =>
    unfold clzGo at h
    split at h
    case isTrue => omega
    case isFalse hn =>
      by_cases he : i = n
      · simpa [he] using hn
      · exact ih (by omega) (by omega)

/-- The bit at which the count from the top ends is set. -/
theorem clzGo_stops (x : Word) {n : Nat} (h : clzGo x n < n) : x.getLsbD (n - 1 - clzGo x n) = true := by
  induction n with
  | zero => omega
  | succ n ih =>
    unfold clzGo at h ⊢
    split at h
    case isTrue hn => simp [hn]
    case isFalse hn =>
      have hlt : clzGo x n < n := by omega
      rw [if_neg hn, show n + 1 - 1 - (clzGo x n + 1) = n - 1 - clzGo x n by omega]
      exact ih hlt

theorem ctzGo_le (x : Word) (i n : Nat) : ctzGo x i n ≤ n := by
  induction n generalizing i with
  | zero => exact Nat.le_refl 0
  | succ n ih =>
    have := ih (i + 1)
    unfold ctzGo
    split <;> omega

/-- The bits counted from bit `i` up are zero. -/
theorem ctzGo_zeros (x : Word) {i n j : Nat} (hi : i ≤ j) (h : j < i + ctzGo x i n) : x.getLsbD j = false := by
  induction n generalizing i with
  | zero =>
    unfold ctzGo at h
    omega
  | succ n ih =>
    unfold ctzGo at h
    split at h
    case isTrue => omega
    case isFalse hn =>
      by_cases he : j = i
      · simpa [he] using hn
      · exact ih (i := i + 1) (by omega) (by omega)

/-- The bit at which the count from bit `i` up ends is set. -/
theorem ctzGo_stops (x : Word) {i n : Nat} (h : ctzGo x i n < n) : x.getLsbD (i + ctzGo x i n) = true := by
  induction n generalizing i with
  | zero => omega
  | succ n ih =>
    unfold ctzGo at h ⊢
    split at h
    case isTrue hn => simp [hn]
    case isFalse hn =>
      have hlt : ctzGo x (i + 1) n < n := by omega
      rw [if_neg hn, show i + (ctzGo x (i + 1) n + 1) = i + 1 + ctzGo x (i + 1) n by omega]
      exact ih hlt

theorem cpopGo_eq_countP (x : Word) (n : Nat) : cpopGo x n = (List.range n).countP fun i => x.getLsbD i := by
  induction n with
  | zero => rfl
  | succ n ih => rw [cpopGo, ih, List.range_succ, List.countP_append, List.countP_singleton]

/-! ### The bytes reversed -/

/-- The bytes of `x` from the lowest up to byte `n`, the lowest on top. -/
def bytesReversed (x : Word) : (n : Nat) → BitVec (8 * (n + 1))
  | 0 => x.extractLsb' 0 8
  | n + 1 => bytesReversed x n ++ x.extractLsb' (8 * (n + 1)) 8

theorem bswapWord_eq_bytesReversed (x : Word) : bswapWord x = bytesReversed x 7 := rfl

theorem bytesReversed_byte (x : Word) {n i : Nat} (h : i ≤ n) :
    (bytesReversed x n).extractLsb' (8 * i) 8 = x.extractLsb' (8 * (n - i)) 8 := by
  induction n generalizing i with
  | zero =>
    obtain rfl : i = 0 := by omega
    exact BitVec.extractLsb'_eq_self
  | succ n ih =>
    cases i with
    | zero => exact BitVec.extractLsb'_append_eq_right
    | succ i =>
      have happ : (bytesReversed x (n + 1)).extractLsb' (8 * (i + 1)) 8 = (bytesReversed x n).extractLsb' (8 * i) 8 :=
        BitVec.extractLsb'_append_eq_of_le (by omega)
      rw [happ, ih (by omega), Nat.add_sub_add_right]

/-- Byte `i` of the reversed word is byte 7 - i of the word. -/
theorem bswapWord_byte (x : Word) {i : Nat} (h : i < 8) : (bswapWord x).extractLsb' (8 * i) 8 = x.extractLsb' (8 * (7 - i)) 8 := by
  rw [bswapWord_eq_bytesReversed, bytesReversed_byte x (by omega)]

/-! ### Words that are no instruction -/

/-- A unary bit form has no second source, and the field it would stand in is zero. -/
theorem decode_unaryBit_ne_ok {d a b : BitVec 5} (hb : b ≠ 0) {f3 : BitVec 3} (h : f3 = 2#3 ∨ f3 = 3#3 ∨ f3 = 4#3 ∨ f3 = 6#3) (i : Instr) :
    decode (rWord 5#7 b a f3 d 0x33#7) ≠ .ok i := by
  have hz : (b = 0#5) = False := eq_false hb
  refine decode_rWord_ne_ok (e := .zeroField) ?_ i
  rcases h with rfl | rfl | rfl | rfl <;> simp [decodeFields, decodeOp, whenZero, hz]

/-- funct3 111 under funct7 0000101 is unassigned. -/
theorem decode_bit7_ne_ok (d a b : BitVec 5) (i : Instr) : decode (rWord 5#7 b a 7#3 d 0x33#7) ≠ .ok i := by
  refine decode_rWord_ne_ok (e := .selector) ?_ i
  simp [decodeFields, decodeOp]

/-- The words worked from R19 and R24 under R123. -/
theorem decode_workedWords :
    decode 0xFFF32293#32 = .ok (.slti 5 6 0xFFF#12) ∧ decode 0x43F3D393#32 = .ok (.srai 7 7 63) ∧
    decode 0x6082D293#32 = .ok (.rori 5 5 8) ∧ decode 0x407302B3#32 = .ok (.sub 5 6 7) ∧
    decode 0x02C5D533#32 = .ok (.divu 10 11 12) ∧ decode 0x0A7312B3#32 = .ok (.clmulh 5 6 7) ∧
    decode 0x0A0342B3#32 = .ok (.cpop 5 6) :=
  ⟨decode_of_encode (Laws.RoundTrip.slti 5 6 0xFFF#12) rfl rfl,
    decode_of_encode (Laws.RoundTrip.srai 7 7 63) rfl rfl,
    decode_of_encode (Laws.RoundTrip.rori 5 5 8) rfl rfl,
    decode_of_encode (Laws.RoundTrip.sub 5 6 7) rfl rfl,
    decode_of_encode (Laws.RoundTrip.divu 10 11 12) rfl rfl,
    decode_of_encode (Laws.RoundTrip.clmulh 5 6 7) rfl rfl,
    decode_of_encode (Laws.RoundTrip.cpop 5 6) rfl rfl⟩

/-- Settles O11: each form by its word and the value the model's recursion has in the terms of the rule. -/
theorem bitForms : Obligations.BitForms := by
  unfold Obligations.BitForms
  intro s d a b hp x y product word
  have hclmul : clmul128 x y = product := clmul128_eq_loop x y
  refine ⟨?clmul, ?clmulh, ?clz, ?ctz, ?cpop, ?ror, ?bswap, decode_unaryBit_ne_ok, decode_bit7_ne_ok d a b, decode_workedWords⟩
  case clmul => exact binaryForm hp (Laws.RoundTrip.clmul d a b) rfl rfl rfl (congrArg (BitVec.extractLsb' 0 64) hclmul)
  case clmulh => exact binaryForm hp (Laws.RoundTrip.clmulh d a b) rfl rfl rfl (congrArg (BitVec.extractLsb' 64 64) hclmul)
  case clz =>
    obtain ⟨hdec, hwr⟩ := unaryForm (v := BitVec.ofNat 64 (clzGo x 64)) hp (Laws.RoundTrip.clz d a) rfl rfl rfl rfl
    refine ⟨hdec, clzGo x 64, clzGo_le x 64, hwr, fun i hi => ?_, clzGo_stops x⟩
    by_cases h : i < 64
    · exact clzGo_zeros x h hi
    · exact BitVec.getLsbD_of_ge x i (Nat.not_lt.mp h)
  case ctz =>
    obtain ⟨hdec, hwr⟩ := unaryForm (v := BitVec.ofNat 64 (ctzGo x 0 64)) hp (Laws.RoundTrip.ctz d a) rfl rfl rfl rfl
    refine ⟨hdec, ctzGo x 0 64, ctzGo_le x 0 64, hwr, fun i hi => ?_, fun h => ?_⟩
    · exact ctzGo_zeros x (n := 64) (Nat.zero_le i) (by omega)
    · simpa using ctzGo_stops x h
  case cpop => exact unaryForm hp (Laws.RoundTrip.cpop d a) rfl rfl rfl (congrArg (BitVec.ofNat 64) (cpopGo_eq_countP x 64))
  case ror =>
    have hror : x.rotateRight (shamt y) = x >>> (y.toNat % 64) ||| x <<< (64 - y.toNat % 64) := by
      rw [shamt_eq, rotateRight_eq x (Nat.mod_lt _ (by decide))]
    exact binaryForm hp (Laws.RoundTrip.ror d a b) rfl rfl rfl hror
  case bswap =>
    obtain ⟨hdec, hwr⟩ := unaryForm (v := bswapWord x) hp (Laws.RoundTrip.bswap d a) rfl rfl rfl rfl
    exact ⟨hdec, bswapWord x, hwr, fun i hi => bswapWord_byte x hi⟩

end Sys2Proof.Machine
end

section
/-! SUPPORT. Sign injection, minimum, maximum, the compares and the class of FP32 words (R130, R133). -/

namespace Sys2Proof.Machine

/-! ### FP32 forms of a slot (R124) -/

section FpForms
variable {s : State} {i : Instr} {d : BitVec 5} {v : Word} {w : Lane} {f : FpFlags}

/-- A form that writes an FP32 result, zero-extended. -/
theorem writes_of_setF {r : Slot → Lane × FpFlags} (hp : s.Plain) (hrun : exec i s = runSlot (slotOp fun t => t.setF d (r t)) s)
    (hr : r s.cur = (w, f)) : Writes s i d (w.zeroExtend 64) f :=
  writes_of_slotOp hp hrun (congrArg (s.cur.setF d) hr)

/-- A compare writes 1 or 0. -/
theorem writes_of_compare {c : Slot → Bool} {fl : Slot → FpFlags} {b : Bool} (hp : s.Plain)
    (hrun : exec i s = runSlot (slotOp fun t => t.setFlagged d (truthWord (c t)) (fl t)) s) (hc : c s.cur = b) (hf : fl s.cur = f) :
    Writes s i d (if b then 1#64 else 0#64) f := by
  refine writes_of_slotOp hp hrun ?_
  rw [hc, hf]
  rfl

end FpForms

/-! ### FP32 words by sign, exponent and fraction (R193) -/

/-- A word is its sign over its magnitude. -/
theorem fp_toNat_eq (w : Lane) : w.toNat = (if fpSign w then 2 ^ 31 else 0) + (w.extractLsb' 0 31).toNat := by
  have hsign : fpSign w = decide (2 ^ 31 ≤ w.toNat) := by
    rw [fpSign, ← BitVec.msb_eq_getLsbD_last, BitVec.msb_eq_decide]
  have hlt : w.toNat < 2 ^ 32 := w.isLt
  rw [hsign, BitVec.extractLsb'_toNat, Nat.shiftRight_zero]
  simp only [decide_eq_true_eq]
  split <;> omega

/-- A magnitude is its exponent over its fraction. -/
theorem magnitude_eq_append (w : Lane) : (w.extractLsb' 23 8 ++ w.extractLsb' 0 23 : BitVec 31) = w.extractLsb' 0 31 :=
  Laws.join2 w 0 8 23

theorem fpExp_eq_iff (w : Lane) {e : BitVec 8} {n : Nat} (h : e.toNat = n) : fpExp w = n ↔ w.extractLsb' 23 8 = e := by
  rw [fpExp, ← h, BitVec.toNat_inj]

theorem fpFrac_eq_zero_iff (w : Lane) : fpFrac w = 0 ↔ w.extractLsb' 0 23 = 0#23 := by
  rw [fpFrac, ← BitVec.toNat_inj]
  rfl

/-- A zero has exponent and fraction 0. -/
theorem fpIsZero_iff (w : Lane) : fpIsZero w = true ↔ w.extractLsb' 23 8 = 0#8 ∧ w.extractLsb' 0 23 = 0#23 := by
  rw [fpIsZero, beq_iff_eq, ← magnitude_eq_append]
  constructor
  · intro h
    have he := congrArg (BitVec.extractLsb' 23 8) h
    have hf := congrArg (BitVec.extractLsb' 0 23) h
    rw [BitVec.extractLsb'_append_eq_left] at he
    rw [BitVec.extractLsb'_append_eq_right] at hf
    exact ⟨he, hf⟩
  · rintro ⟨he, hf⟩
    rw [he, hf]
    rfl

/-! ### The order of FP32 words (R130) -/

/-- Words of one key are one word. -/
theorem fpKey_inj {x y : Lane} (h : fpKey x = fpKey y) : x = y := by
  apply BitVec.eq_of_toNat_eq
  rw [fp_toNat_eq x, fp_toNat_eq y]
  unfold fpKey at h
  cases hx : fpSign x <;> cases hy : fpSign y <;> simp [hx, hy] at h ⊢ <;> omega

/-- A choice by the smaller key may ask for either key first: words that tie are the same. -/
theorem ite_key_swap {x y p q : Lane} (h : x = y → p = q) :
    (if fpKey x < fpKey y then p else q) = if fpKey y < fpKey x then q else p := by
  rcases Int.lt_trichotomy (fpKey x) (fpKey y) with hk | hk | hk
  · simp [hk, Int.lt_asymm hk]
  · simp [hk, h (fpKey_inj hk)]
  · simp [hk, Int.lt_asymm hk]

/-- One NaN gives the other operand, two the canonical NaN, else `first` chooses (R130). -/
def fpChoose (x y : Lane) (first : Bool) : Lane :=
  if fpIsNaN x && fpIsNaN y then canonNaN else if fpIsNaN x then y else if fpIsNaN y then x else if first then x else y

theorem fpMin_eq_choose (x y : Lane) : fpMin x y = fpChoose x y (decide (fpKey x < fpKey y)) := by
  simp only [fpMin, fpChoose, ite_key_swap (x := y) (y := x) id, decide_eq_true_eq]

theorem fpMax_eq_choose (x y : Lane) : fpMax x y = fpChoose x y (decide (fpKey y < fpKey x)) := by
  simp only [fpMax, fpChoose, ite_key_swap (x := x) (y := y) Eq.symm, decide_eq_true_eq]

theorem key_le_iff (x y : Lane) : fpKey x ≤ fpKey y ↔ fpKey x < fpKey y ∨ x = y := by
  constructor
  · intro h
    exact (Int.lt_or_eq_of_le h).imp_right fpKey_inj
  · rintro (h | rfl)
    · exact Int.le_of_lt h
    · exact Int.le_refl _

theorem fpEq_eq (x y : Lane) : fpEq x y = (!(fpIsNaN x || fpIsNaN y) && (x == y || (fpIsZero x && fpIsZero y))) := by
  rw [fpEq, Bool.not_or]

theorem fpLt_eq (x y : Lane) :
    fpLt x y = (!(fpIsNaN x || fpIsNaN y) && !(fpIsZero x && fpIsZero y) && decide (fpKey x < fpKey y)) := by
  rw [fpLt, Bool.not_or]

/-- Less than or equal is one test of the keys, but for zeros, which are equal whatever their signs. -/
theorem fpLe_eq (x y : Lane) :
    fpLe x y = (!(fpIsNaN x || fpIsNaN y) && (fpIsZero x && fpIsZero y || decide (fpKey x ≤ fpKey y))) := by
  have hkey : decide (fpKey x ≤ fpKey y) = (decide (fpKey x < fpKey y) || x == y) := by
    rw [Bool.beq_eq_decide_eq, ← Bool.decide_or]
    exact decide_eq_decide.mpr (key_le_iff x y)
  rw [fpLe, fpLt_eq, fpEq_eq, hkey]
  cases fpIsNaN x || fpIsNaN y <;> cases fpIsZero x && fpIsZero y <;> simp

/-- Settles O14: the forms by their cases, the minimum and maximum by the key being total. -/
theorem fpChoiceForms : Obligations.FpChoiceForms := by
  unfold Obligations.FpChoiceForms
  intro s d a b hp x y nan zeros key sign choose bool inv
  refine ⟨?sgnj, ?sgnjn, ?sgnjx, ?min, ?max, ?eq, ?lt, ?le⟩
  case sgnj => exact writes_of_setF hp rfl rfl
  case sgnjn => exact writes_of_setF hp rfl rfl
  case sgnjx => exact writes_of_setF hp rfl rfl
  case min => exact writes_of_setF hp rfl (congrArg (·, 0#5) (fpMin_eq_choose x y))
  case max => exact writes_of_setF hp rfl (congrArg (·, 0#5) (fpMax_eq_choose x y))
  case eq => exact writes_of_compare hp rfl (fpEq_eq x y) rfl
  case lt => exact writes_of_compare hp rfl (fpLt_eq x y) rfl
  case le => exact writes_of_compare hp rfl (fpLe_eq x y) rfl

/-! ### The class of a word (R133) -/

/-- The number of the one bit that FCLASS.S sets. -/
def fpClassBit (w : Lane) : Nat :=
  if w.extractLsb' 23 8 = 255#8 then (if w.extractLsb' 0 23 ≠ 0 then 8 else if fpSign w then 0 else 7)
  else if w.extractLsb' 23 8 = 0#8 then
    (if w.extractLsb' 0 23 = 0 then (if fpSign w then 3 else 4) else if fpSign w then 2 else 5)
  else if fpSign w then 1 else 6

/-- The class mask has one bit set. -/
theorem fpClass_eq (w : Lane) : fpClass w = BitVec.ofNat 64 (2 ^ fpClassBit w) := by
  have hmax : fpExp w = 255 ↔ w.extractLsb' 23 8 = 255#8 := fpExp_eq_iff w rfl
  have hsub : fpExp w = 0 ↔ w.extractLsb' 23 8 = 0#8 := fpExp_eq_iff w rfl
  have hfrac := fpFrac_eq_zero_iff w
  have hzero := fpIsZero_iff w
  by_cases he : w.extractLsb' 23 8 = 255#8
  · by_cases hf : w.extractLsb' 0 23 = 0#23 <;> cases hs : fpSign w <;>
      simp [fpClass, fpClassBit, fpIsNaN, fpIsInf, hmax, hfrac, he, hf, hs]
  · by_cases h0 : w.extractLsb' 23 8 = 0#8
    · by_cases hf : w.extractLsb' 0 23 = 0#23 <;> cases hs : fpSign w <;>
        simp [fpClass, fpClassBit, fpIsNaN, fpIsInf, hmax, hsub, hzero, h0, hf, hs]
    · cases hs : fpSign w <;> simp [fpClass, fpClassBit, fpIsNaN, fpIsInf, hmax, hsub, hzero, he, h0, hs]

/-- The words worked under R133. -/
theorem decode_workedFpWords :
    decode 0x007302D3#32 = .ok (.faddS 5 6 7 0) ∧ decode 0x007372D3#32 = .ok (.faddS 5 6 7 7) ∧
    decode 0x58059553#32 = .ok (.fsqrtS 10 11 1) ∧ decode 0xA07312D3#32 = .ok (.fltS 5 6 7) ∧
    decode 0xC00312D3#32 = .ok (.fcvtWS 5 6 1) ∧ decode 0xD02302D3#32 = .ok (.fcvtSL 5 6 0) ∧
    decode 0xE00312D3#32 = .ok (.fclassS 5 6) ∧ decode 0x407302C3#32 = .ok (.fmaddS 5 6 7 8 0) :=
  ⟨decode_of_encode (Laws.RoundTrip.faddS 5 6 7 0) rfl rfl,
    decode_of_encode (Laws.RoundTrip.faddS 5 6 7 7) rfl rfl,
    decode_of_encode (Laws.RoundTrip.fsqrtS 10 11 1) rfl rfl,
    decode_of_encode (Laws.RoundTrip.fltS 5 6 7) rfl rfl,
    decode_of_encode (Laws.RoundTrip.fcvtWS 5 6 1) rfl rfl,
    decode_of_encode (Laws.RoundTrip.fcvtSL 5 6 0) rfl rfl,
    decode_of_encode (Laws.RoundTrip.fclassS 5 6) rfl rfl,
    decode_of_encode (Laws.RoundTrip.fmaddS 5 6 7 8 0) rfl rfl⟩

/-- Settles O15: the class mask by the exponent and the fraction of the operand. -/
theorem fpClassForm : Obligations.FpClassForm := by
  unfold Obligations.FpClassForm
  intro s d a hp x e f bit
  have hdec := decode_rWord_of_encode (Laws.RoundTrip.fclassS d a) rfl rfl
  have hwr : Writes s (.fclassS d a) d (BitVec.ofNat 64 (2 ^ bit)) := writes_of_setX hp rfl (congrArg (s.cur.setX d) (fpClass_eq x))
  exact ⟨⟨hdec, hwr⟩, decode_workedFpWords⟩

end Sys2Proof.Machine
end
